-- ==== Sys2Proof/Word.lean ====
section
/-!
DEFINITION. Word.lean: the word types of the SZ5120 and the plain index types its operands use.
Bit-field, byte-order and index arithmetic stand in Machine/Bits.lean.
-/

namespace Sys2Proof

/-- One byte (R10). -/
abbrev Byte := BitVec 8

/-- A register word: registers are 32 bits wide and sit in BAR0 (R12). -/
abbrev W32 := BitVec 32

/-- A free-running ring index (R120). -/
abbrev Idx := BitVec 16

/-- Host ports H0 to H3. -/
abbrev Host := Fin 4

/-- High-speed ports P00 to P31. -/
abbrev Port := Fin 32

/-- Traffic classes 0 to 7 (R190). -/
abbrev Cls := Fin 8

/-- Field ports F000 to F479 (R319). -/
abbrev FPort := Fin 480

/-- SQ and CQ numbers of one host (R119). -/
abbrev QId := Fin 1024

/-- Operation tags (R144). -/
abbrev OpTag := Fin 131072

/-- DMA channels of a side (R161). -/
abbrev Chan := Fin 128

/-- Aggregation functions (Field Ports and Aggregation). -/
abbrev AggId := Fin 256

/-- Flow queues (R190). -/
abbrev Flow := Fin 8192

/-- Command groups: `g` stands for group 0x0(g+1) (R55). -/
abbrev Group := Fin 10

/-- A sparse table: key and value pairs, keys strictly rising, no default value listed. -/
abbrev Tab (α : Type) := List (Nat × α)

end Sys2Proof
end

