-- ==== Sys2Proof/Syntax.lean ====
section
/-!
DEFINITION. Syntax.lean: the commands and events of the SZ5120, one constructor of `Instr` per row of the
operation table. An operand is what the row's command or event brings from outside the part (or a choice that the
spec leaves to the part: a tag number, a channel number, an amount fetched).
-/

namespace Sys2Proof

/-- The two control sides (R7). -/
inductive SideId where
  | white
  | black
  deriving DecidableEq, Repr

/-- The five readers of clear-on-read registers (R530). -/
inductive Reader where
  | host (h : Host)
  | firmware
  deriving DecidableEq, Repr

/-- What an access of a host names: a BAR, or the configuration space of its port (R17, R526). -/
inductive Bar where
  | bar0
  | bar2
  | bar4
  | config
  deriving DecidableEq, Repr

/-- What a host has written in the configuration space of its port (R17, R25, R163, R175, R185, R488, R518): Bus Master
Enable, MSI-X Enable, Max_Payload_Size and Max_Read_Request_Size as codes of 128 × 2^n bytes, Enable Relaxed Ordering, the
Completion Timeout Value of Device Control 2. PRESUMED, log entry 76. -/
structure PcieCtl where
  bme : Bool := false
  msix : Bool := false
  mps : BitVec 3 := 0
  mrrs : BitVec 3 := 2
  relaxed : Bool := true
  ctoValue : BitVec 4 := 0
  deriving DecidableEq, Repr

/-- The base addresses that a host has given BAR0, BAR2 and BAR4 (R526). -/
structure Bars where
  bar0 : BitVec 64 := 0
  bar2 : BitVec 64 := 0
  bar4 : BitVec 64 := 0
  deriving DecidableEq, Repr

/-- The 64-byte command packet of R53: the eight fields as delivered, reserved ones included. -/
structure Packet where
  opcode : BitVec 16 := 0
  flags : BitVec 16 := 0
  tag : W32 := 0
  plen : BitVec 16 := 0
  rsv : BitVec 16 := 0
  expGen : W32 := 0
  param : BitVec 384 := 0
  deriving DecidableEq, Repr

/-- The bus-error end codes, READ_ERR to DATA_ERR (R171, R180). -/
inductive BusErr where
  | readErr
  | writeErr
  | cplTimeout
  | dataErr
  deriving DecidableEq, Repr

/-- Another fault of a pool channel, which arrives in the same cycle (R182). -/
structure PoolFault where
  chan : Chan
  err : BusErr
  addr : BitVec 64
  deriving DecidableEq, Repr

/-- How a read of host memory made by a command or entry ended: its data, or a bus error (R57, R171). -/
inductive ReadEnd where
  | data (bytes : List Byte)
  | fault (e : BusErr)
  deriving DecidableEq, Repr

/-- How a ring-fetch read faulted (R553): the read error, or poisoned data. -/
inductive FetchErr where
  | busError
  | poisoned
  deriving DecidableEq, Repr

/-- What the wire shows of one received frame at its end (R267 to R269, R247). `bytes` is the frame with FCS as
received; `phyErr` is the PCS's verdict; `fragments` counts its non-final fragments; `assyErr` says the
fragment sequence broke Clause 99; `smdErr` says an unknown SMD was met. DESIGN CHOICE, log entry 57. -/
structure RxFacts where
  bytes : List Byte := []
  phyErr : Bool := false
  fragments : Nat := 0
  assyErr : Bool := false
  smdErr : Bool := false
  /-- FEC codewords or blocks corrected since the last frame's end (R280) -/
  fecCorr : Nat := 0
  deriving DecidableEq, Repr

/-- A received gPTP Sync or Follow_Up as the servo sees it: the slot, the measured offset of the domain time from
network time, the domain's rate, and whether the servo asks for a rate (R92, R96). -/
structure SyncFacts where
  slot : Fin 2 := 0
  offset : Int := 0
  rate : Int := 0
  adj : Int := 0
  deriving DecidableEq, Repr

/-- Kinds of gPTP message that the engine receives or sends besides Sync (R91). -/
structure PtpMsg where
  port : Port := 0
  slot : Fin 2 := 0
  messageType : BitVec 4 := 0
  sequenceId : BitVec 16 := 0
  /-- the timestamp that its body carries, in ns -/
  time : BitVec 64 := 0
  deriving DecidableEq, Repr

/-- The commit token of R386 as the standby receives it, with the number of flits and the delta CRC it computed. -/
structure Token where
  handover : Bool := false
  cutover : Bool := false
  move : Nat := 0
  base : Nat := 0
  flits : Nat := 0
  flitsSeen : Nat := 0
  crcGood : Bool := true
  deriving DecidableEq, Repr

/-- The kind of output in which two Lockstep sides differ (SIDE_LS_STAT.OUTPUT, R380). -/
inductive LsOutput where
  | staging
  | rimSet
  | hostTlp
  | fieldEnqueue
  deriving DecidableEq, Repr

/-- An output of a side as the rim compares it in Lockstep: kind, address, length, byte enables, data and its place in the side's
output order (R371). -/
structure SideOut where
  kind : LsOutput := .staging
  addr : BitVec 64 := 0
  len : Nat := 0
  enables : BitVec 8 := 0xFF
  data : List Byte := []
  place : Nat := 0
  deriving DecidableEq, Repr

/-- How a side's boot steps end (R439, R446): ready to press with the Move its journal holds, or failed with the cause
code of GLB_START_STAT. -/
inductive BootEnd where
  | ready
  | failed (cause : Nat)
  deriving DecidableEq, Repr

/-- What a boot read of one slot yields: the image's VERSION, SVN, STATE_FMT, SVN_COMMIT and whether it verifies
under R543. -/
structure ImageFacts where
  verifies : Bool := false
  version : W32 := 0
  svn : BitVec 16 := 0
  stateFmt : BitVec 16 := 0
  svnCommit : Bool := false
  deriving DecidableEq, Repr

/-- A health condition of a side that fails (R353). -/
inductive HealthCause where
  | rails
  | coreClock
  | schClock
  | ecc
  | noProgress
  | watchdog
  deriving DecidableEq, Repr

/-- The rim island clocks of R46. -/
inductive RimIsland where
  | time
  | field
  | buffer
  | hostIsland
  deriving DecidableEq, Repr

/-- The three temperature sensors of R524. -/
inductive Sensor where
  | white
  | black
  | rim
  deriving DecidableEq, Repr

/-- The two power feeds. -/
inductive Feed where
  | a
  | b
  deriving DecidableEq, Repr

/-- The three supply selectors of R500. -/
inductive Rail where
  | vcore
  | vsram
  | vio18
  deriving DecidableEq, Repr

/-- One item of the configuration image (R548's table): a command packet (with what its indirect buffer reads as), or a
register write. -/
inductive CfgItem where
  | command (p : Packet) (ib : ReadEnd)
  | regWrite (addr : Nat) (v : W32)
  | endOfImage (stayConfig : Bool)
  | noImage
  deriving DecidableEq, Repr

/-- A received CAN or 10BASE-T1S frame (R331): the header fields the bus gives and the data. -/
structure FldFrame where
  id : W32 := 0
  af : W32 := 0
  fmt : Byte := 0
  data : List Byte := []
  deriving DecidableEq, Repr

/-- How a field frame's reception ends (R330, R331). -/
inductive FldRxEnd where
  | good (f : FldFrame)
  | filtered
  | error
  deriving DecidableEq, Repr

/-- A hello as received (R412). -/
structure Hello where
  uid : BitVec 64 := 0
  nodeId : BitVec 12 := 0
  idState : BitVec 2 := 0
  given : Bool := false
  port : BitVec 5 := 0
  interval : Nat := 0
  topoSeq : BitVec 16 := 0
  peerUid : BitVec 64 := 0
  deriving DecidableEq, Repr

/-- One neighbor word of a topology message (R417). -/
structure NbrWord where
  nbr : BitVec 12 := 0
  lport : BitVec 5 := 0
  nport : BitVec 5 := 0
  deriving DecidableEq, Repr

/-- A topology message as received (R417). -/
structure TopoMsg where
  uid : BitVec 64 := 0
  nodeId : BitVec 12 := 0
  idState : BitVec 2 := 0
  given : Bool := false
  seq : BitVec 16 := 0
  nbrs : List NbrWord := []
  deriving DecidableEq, Repr

/-- The two trees of one destination that the computation of R418 chose, each as parts with their next hops toward the
destination, and the local port of this part's link to its next hop in the second tree. -/
structure SecPath where
  dst : Nat := 0
  first : List (Nat × Nat) := []
  second : List (Nat × Nat) := []
  port : Nat := 0
  deriving DecidableEq, Repr

/-- The commands and events of the SZ5120. An operand with a default may be left out where a row is written. -/
inductive Instr where
  -- group 0x01 Queues (R78)
  | queCreateCq (h : Host) (p : Packet)
  | queCreateSq (h : Host) (p : Packet)
  | queDeleteSq (h : Host) (p : Packet)
  | queDeleteCq (h : Host) (p : Packet)
  | queSetWrr (h : Host) (p : Packet)
  | queSetQuota (h : Host) (p : Packet)
  | queQuery (h : Host) (p : Packet)
  -- group 0x02 Ports
  | portSet (h : Host) (p : Packet)
  | portEnable (h : Host) (p : Packet)
  | portFilterSet (h : Host) (p : Packet)
  | portEeeSet (h : Host) (p : Packet)
  | portRecal (h : Host) (p : Packet)
  | portQuery (h : Host) (p : Packet)
  | fldPortSet (h : Host) (p : Packet)
  | fldAggLoad (h : Host) (p : Packet) (ib : ReadEnd)
  | fldQuery (h : Host) (p : Packet)
  -- group 0x03 Schedules and gate tapes
  | gateTapeLoad (h : Host) (p : Packet) (ib : ReadEnd)
  | gateClassSet (h : Host) (p : Packet)
  | gateCloseMode (h : Host) (p : Packet)
  | schFlowSet (h : Host) (p : Packet)
  | schFlowDisable (h : Host) (p : Packet)
  | gateQuery (h : Host) (p : Packet)
  | schQuery (h : Host) (p : Packet)
  | gateTapeCancel (h : Host) (p : Packet)
  -- group 0x04 Streams and FRER
  | strmIdLoad (h : Host) (p : Packet) (ib : ReadEnd)
  | strmMeterSet (h : Host) (p : Packet)
  | strmSeqgenSet (h : Host) (p : Packet)
  | strmSeqrecSet (h : Host) (p : Packet)
  | strmQuery (h : Host) (p : Packet)
  -- group 0x05 Time
  | timeDomainSet (h : Host) (p : Packet)
  | timeStep (h : Host) (p : Packet)
  | timeRateSet (h : Host) (p : Packet)
  | timePpsSet (h : Host) (p : Packet)
  | timeQuery (h : Host) (p : Packet)
  -- group 0x06 Sides and redundancy
  | sideCastle (h : Host) (p : Packet)
  | sideSelftest (h : Host) (p : Packet)
  | sideResetStandby (h : Host) (p : Packet)
  | sideQuery (h : Host) (p : Packet)
  -- group 0x07 Fabric
  | fabSet (h : Host) (p : Packet)
  | fabRouteLoad (h : Host) (p : Packet) (ib : ReadEnd)
  | fabBypassSet (h : Host) (p : Packet)
  | fabQuery (h : Host) (p : Packet)
  -- group 0x08 Recorder
  | recNote (h : Host) (p : Packet)
  | recClearChallenge (h : Host) (p : Packet)
  | recClear (h : Host) (p : Packet) (ib : ReadEnd)
  | recQuery (h : Host) (p : Packet)
  -- group 0x09 Firmware
  | fwQuery (h : Host) (p : Packet)
  | fwWrite (h : Host) (p : Packet) (ib : ReadEnd)
  | fwVerify (h : Host) (p : Packet)
  | fwActivate (h : Host) (p : Packet)
  -- group 0x0A Mode and start
  | modeQuery (h : Host) (p : Packet)
  | modeStartCold (h : Host) (p : Packet)
  | modeStartWarm (h : Host) (p : Packet)
  | modeConfigEnter (h : Host) (p : Packet)
  | modeConfigExit (h : Host) (p : Packet)
  | modeSafeHold (h : Host) (p : Packet)
  | modeResume (h : Host) (p : Packet)
  -- the command processor
  | longCommandComplete (g : Group)
  | classLTimeout (g : Group)
  | calibrationEnd (p : Port)
  | statusPacketWrite (h : Host) (d : SideId := .white)
  -- starts of submission entries
  | frameTx (h : Host) (q : QId) (t : OpTag)
  | frameRxPost (h : Host) (q : QId) (t : OpTag)
  | inlineFrame (h : Host) (q : QId) (t : OpTag)
  | streamSend (h : Host) (q : QId) (t : OpTag) (tpl : ReadEnd)
  | dmaXfer (h : Host) (q : QId) (t : OpTag)
  | aggBuildGather (h : Host) (q : QId) (t : OpTag)
  | aggBuildScatter (h : Host) (q : QId) (t : OpTag) (src : ReadEnd)
  | fence (h : Host) (q : QId) (t : OpTag)
  | fenceFlush (h : Host) (q : QId) (t : OpTag)
  -- rings
  | sqDbWrite (h : Host) (q : QId) (aligned : Bool) (v : W32)
  | sqPushWrite (h : Host) (q : QId) (off : Nat) (bytes : List Byte)
  | cqCiWrite (h : Host) (q : QId) (aligned : Bool) (v : W32)
  | ringFetchTurn (h : Host) (q : QId) (slots : Nat)
  | ringFetchComplete (h : Host) (q : QId) (bytes : List Byte)
  | ringFetchFault (h : Host) (q : QId) (e : FetchErr)
  | entryAccept (h : Host) (q : QId)
  | cqeWrite (h : Host) (c : QId) (d : SideId := .white)
  | cqOverflowMove (h : Host) (c : QId) (d : SideId := .white)
  -- DMA
  | dmaPoolChannelAssign (t : OpTag) (c : Chan)
  | dmaReadCompletion (c : Chan) (bytes : List Byte)
  | dmaChainEnd (c : Chan)
  | dmaBarrierFlushComplete (c : Chan) (ok : Bool)
  | dmaBusErrorPool (c : Chan) (e : BusErr) (addr : BitVec 64) (also : Option PoolFault)
  | dmaBusErrorPrivileged (c : Chan) (e : BusErr) (addr : BitVec 64) (space : Fin 4) (h : Host)
  | pchHaltRelease (c : Chan)
  | dmaPoolResume (h : Host)
  | dmaPoolAbortCand (h : Host)
  | dmaPoolAutoAbort
  | lateCompletionDiscard (c : Chan)
  | dmaCompletionTimeout (c : Chan) (addr : BitVec 64) (also : Option PoolFault)
  | dmaWithdraw (c : Chan) (residue : Nat)
  -- egress scheduling
  | schedulerPick (p : Port) (t : Cls) (d : SideId := .white)
  | expressLaneArrival (h : Host) (q : QId) (t : OpTag) (d : SideId := .white)
  | segmentPick (p : Port) (t : Cls) (d : SideId := .white)
  | payloadPrefetch (t : OpTag) (bytes : List Byte)
  | frameExpiry (f : Flow)
  | tagSweep (f : Flow)
  | monitorSample (m : Fin 64)
  | rateTick
  -- gates and MAC merge
  | gateEntryStart (p : Port)
  | gateCycleEnd (p : Port)
  | tapeSwitch (p : Port)
  | gateHoldAdvance (p : Port)
  | executorFrameStart (p : Port)
  | frameDeparture (p : Port)
  | mmVerifyResponse (p : Port)
  | mmVerifyTimeout (p : Port)
  -- Ethernet ports
  | portFrameRxStart (p : Port)
  | portFrameRxEnd (p : Port) (f : RxFacts)
  | rxClassify (p : Port)
  | linkUp (p : Port)
  /-- `lock`: the receiver still holds block lock or synchronization; `hiBer`: high bit error rate (R263) -/
  | linkDown (p : Port) (lock hiBer : Bool := false)
  | inbandMismatch (p : Port) (speed : BitVec 3) (fullDuplex : Bool)
  | lpiEnter (p : Port)
  | lpiWake (p : Port)
  | lpiWakeDone (p : Port)
  | lldpEeeTlvRx (p : Port) (rxTwUs : Nat) (addFrag : BitVec 2)
  | lldpTlvAgeOut (p : Port)
  | frerResetTimeout (r : Fin 4096)
  -- time
  | timeTick (a b c : BitVec 96)
  | stepApply
  | ppsOutPulse
  | ppsInEdge
  | moveMarker
  | msTimeEvent
  | optimeSave
  | journalSummaryWrite
  | syncRx (f : SyncFacts)
  | syncTransmit (slot : Fin 2) (sequenceId : BitVec 16) (d : SideId := .white)
  | pdelayReqTransmit (slot : Fin 2) (p : Port) (sequenceId : BitVec 16) (d : SideId := .white)
  | pdelayRx (m : PtpMsg)
  | syncReceiptTimeout (slot : Fin 2)
  | slewEnd
  | prefSlotReturn
  | refLost (r : Fin 2)
  | refQualified (r : Fin 2) (qual : Bool := true)
  | refHoldExpiry
  | forceSwitch (h : Host) (v : W32)
  | txtsPop0Read (r : Reader) (p : Port)
  -- sides and the Chess Clock
  | alivePulseStop (d : SideId) (c : HealthCause)
  | heartbeatSend (d : SideId)
  | heartbeatMiss (d : SideId)
  | mlFlitCrcFail (flit : Nat := 0) (d : SideId := .white)
  | flagFall (d : SideId)
  | chessClockPress (d : SideId)
  | chessClockGrant
  | pressRefused (d : SideId)
  | handoverAck
  | handoverTimeout
  | commitTokenRx (t : Token)
  | commitAck
  | commitAckTimeout
  | moveSlotWriteDone (move : Nat)
  | jrnThrottle
  | replayEnd (diverged : List OpTag) (rereads : List ReadEnd := [])
  | dispatchRestartEnd (interruptNs : Nat)
  | lsOutputMismatch (o : LsOutput) (white : SideOut := {}) (black : SideOut := { data := [0] })
  | lsPartnerWaitTimeout (o : LsOutput)
  | lsSelfCheckEnd (whitePass blackPass : Bool)
  | mlSelftestRun (clean : Bool)
  | selftestEnd (passed : BitVec 7)
  | resyncPhaseEnd (granules : Nat)
  | resyncLoadEnd
  | scoresheetFull
  | flushEnd (d : SideId)
  | sideResetRelease (d : SideId)
  -- pins, hosts, power, clocks
  | porstNAssert
  | porstNRelease
  | sideResetPinAssert (d : SideId)
  | bothSidePinsLow
  | holdNLow
  | perstAssert (h : Host)
  | hostLinkChange (h : Host) (up : Bool)
  | busMasterEnableChange (h : Host) (x : PcieCtl) (bars : Bars)
  | msixUnmask (h : Host) (v : Fin 64)
  | feedLoss (f : Feed)
  | feedPresent (f : Feed)
  | rimSupplyFail
  | viofFault (k : Fin 15) (v3v3 : Bool := false)
  | viofRecover (k : Fin 15) (v3v3 : Bool)
  | rimClockUnlock (n : RimIsland)
  | autoReset (d : SideId)
  | thermCross (n : Sensor) (temp : BitVec 16)
  | configLoadItem (item : CfgItem)
  | timeAcqTimeout
  -- field ports
  | fieldFrameRxStart (n : FPort)
  | fieldFrameRxEnd (n : FPort) (e : FldRxEnd)
  | fieldRxDeliver (n : FPort)
  | fieldEnqueue (n : FPort) (num : W32) (d : SideId := .white)
  | fieldTxEnd (n : FPort) (ok : Bool)
  | fieldSettingApply (n : FPort)
  | canBusOff (n : FPort)
  | busoffRecovery (n : FPort)
  | plcaBeaconLoss (n : FPort)
  | gatherTrigger (a : AggId)
  | gatherBuildEnd (a : AggId)
  | scatterWriteEnd (a : AggId)
  -- fabric
  | helloSend
  | helloRx (p : Port) (x : Hello)
  | adjacencyTimeout (p : Port)
  | topologySend
  | topologyRx (p : Port) (m : TopoMsg)
  | topologyAgeOut (uid : BitVec 64)
  | routeCompute (sec : List SecPath)
  | idClaim
  | transitRelay (p : Port) (f : RxFacts) (cut : Bool)
  | relayHoldTimeout (p : Port) (t : Cls)
  | bypassInsertTimeout (k : Fin 8)
  | bypassHoldoffEnd (k : Fin 8)
  -- recorder
  | recordTake
  | recordWriteDone (retries : Fin 5 := 0)
  | bankFail (b : Fin 2) (cause : Fin 5)
  | recCursorWrite (r : Reader) (v : W32)
  | recRdOldest (r : Reader) (v : W32)
  | recRdNewest (r : Reader) (v : W32)
  | recWindowLoadEnd (r : Reader) (damaged : List W32 := [])
  -- numbered sets and events
  | rimSetApply (d : SideId := .white)
  | evtRouteWrite (h : Host) (n : Host) (src : Fin 256) (v : W32)
  | evtCoalWrite (h : Host) (n : Host) (vec : Fin 64) (v : W32)
  | coalesceTimeout (h : Host) (vec : Fin 64)
  | evtPinCfgWrite (h : Host) (v : W32)
  | eventNPulseEnd
  | evtTestRaise (h : Host) (v : W32)
  | evtStatClear (r : Reader) (pinCopy : Bool) (w : Fin 8) (v : W32)
  -- registers
  | cmdAqCfgWrite (h : Host) (n : Host) (v : W32)
  | portCntLoRead (r : Reader) (p : Port) (c : Fin 38)
  | counterReadClear (r : Reader) (addr : Nat)
  | loWordRead (r : Reader) (addr : Nat) (bar : Bar := .bar0) (whole : Bool := true)
  | heldSideReadComplete (h : Host) (addr : Nat)
  | registerWrite (h : Host) (addr : Nat) (enables : BitVec 4) (v : W32) (bar : Bar := .bar0)
  | sideRegWriteApply
  | holdNHigh
  | supplySelectorSwitch (r : Rail) (source : Fin 4)
  | sideBootEnd (d : SideId) (e : BootEnd) (active other : ImageFacts) (bufFault : Bool := false)
  | recorderRebuildEnd (bad0 bad1 : Bool)
  | plcaBeaconReturn (n : FPort) (nodeCount : Nat)
  | bypassLinkLossTimeout (k : Fin 8)
  | rimClockRelock (n : RimIsland)
  | fecUncorrectableBlock (p : Port)
  | rxLpiSignaled (p : Port) (us : Nat) (active : Bool)
  deriving DecidableEq, Repr

end Sys2Proof
end

