-- ==== Sys2Proof/Decode.lean ====
section
/-!
DEFINITION. Decode.lean: the block has no instruction words. spec/opcode_table.json gives no row any bits, so no word
spells a command.
-/

namespace Sys2Proof

/-- The command that a word spells by the table's bits: the table gives no row bits, so none. -/
def decodeTableWord (_nbits _w : Nat) : Option Instr := none

end Sys2Proof
end

