-- ==== Sys2Proof/Machine/State.lean ====
section
/-!
DEFINITION. Machine/State.lean: the state of the SZ5120 as plain data, every piece the spec gives the part, and the
state after reset. Field defaults are the reset values; a record that a table does not list has the default record.
Rim state and side state stand together. The sides' state is held once: by R383 both sides reach the same state from
the same records, so what a side holds beyond it is its last Move, its journal mark and its progress (SideRec).
-/

namespace Sys2Proof.Machine

/-- Where a step stops. No meaning of this model faults: every command and event has its effect. The one constructor is
kept for an operand outside the part (never raised; safe). -/
inductive Fault where
  /-- Raised by no meaning: kept so that the type has a name for an access outside the part. Safe. -/
  | noSuchUnit
  deriving DecidableEq, Repr

/-- Why a command is refused by the model. -/
inductive Refusal where
  /-- Raised by `exec` for a row that has no meaning yet. Safe: the model stops where the hardware goes on. -/
  | notModelled (mnemonic : String)
  deriving DecidableEq, Repr

/-- The five separate deltas of a clear-on-read counter: hosts H0 to H3 and firmware (R276, R530). -/
structure Five where
  h0 : Nat := 0
  h1 : Nat := 0
  h2 : Nat := 0
  h3 : Nat := 0
  fw : Nat := 0
  deriving DecidableEq, Repr

/-- A 12-byte timestamp (R108). -/
structure Ts where
  ns : BitVec 64 := 0
  epoch : BitVec 16 := 0
  tsf : BitVec 16 := 0
  deriving DecidableEq, Repr

/-- The ordering attributes of a TLP: Relaxed Ordering and ID-Based Ordering (R150). -/
structure Attr where
  ro : Bool := false
  ido : Bool := false
  deriving DecidableEq, Repr

/-- What the part sends on the host links, in order (R150): posted writes, MSI-X messages, and read requests with their
length. A barrier's flush read has length 0. -/
inductive Tlp where
  | memWrite (h : Nat) (addr : BitVec 64) (bytes : List Byte) (attr : Attr)
  | cqe (h : Nat) (addr : BitVec 64) (bytes : List Byte) (attr : Attr)
  | msix (h : Nat) (vec : Nat) (addr : BitVec 64) (data : W32) (attr : Attr)
  | memRead (h : Nat) (addr : BitVec 64) (len : Nat)
  | flushRead (h : Nat)
  deriving DecidableEq, Repr

/-- A status packet that is due (R59), without its PHASE. -/
structure StatusPkt where
  tag : W32 := 0
  opcode : BitVec 16 := 0
  status : Nat := 0
  asqHead : BitVec 16 := 0
  epoch : BitVec 16 := 0
  detail : W32 := 0
  result : BitVec 96 := 0
  gen : W32 := 0
  noIrq : Bool := false
  deriving DecidableEq, Repr

/-- A CQE of an I/O CQ (R147), without its PHASE. -/
structure Cqe where
  user : W32 := 0
  sqid : BitVec 16 := 0
  slot : Idx := 0
  ai : Idx := 0
  status : Nat := 0
  flags : Byte := 0
  epoch : BitVec 16 := 0
  source : BitVec 16 := 0xFFFF
  ts : Ts := {}
  result : W32 := 0
  deriving DecidableEq, Repr

/-- The times that a record carries: elapsed network time, network time, time epoch and operating time in ms (R383, R390). -/
structure Stamp where
  el : Nat := 0
  ns : Nat := 0
  epoch : BitVec 16 := 0
  op : Nat := 0
  deriving DecidableEq, Repr

/-- What stands in a CQ slot or in its overflow area. -/
inductive CqBody where
  | status (p : StatusPkt)
  | cqe (c : Cqe)
  deriving DecidableEq, Repr

/-- An item of a CQ: the content, the operation tag that its release frees (none for a status packet), NO_IRQ. -/
structure CqItem where
  body : CqBody
  tag : Option Nat := none
  noIrq : Bool := false
  deriving DecidableEq, Repr

/-- A taken entry of an SQ that has not started (R140, R553). -/
structure Taken where
  first : Idx := 0
  nslots : Nat := 1
  bytes : List Byte := []
  pushed : Bool := false
  fault : Option FetchErr := none
  accepted : Bool := false
  /-- network time at acceptance, recorded with the entry (R340) -/
  acceptNs : Nat := 0
  /-- when the rim took the push it met the conditions of the express lane (R145) -/
  express : Bool := false
  /-- the express lane has staged or queued it already, under this tag (R145) -/
  lane : Option Nat := none
  /-- the time of its record, and whether no side consumed it then: it is decided as of that time (R366, R383) -/
  stamp : Stamp := {}
  late : Bool := false
  deriving DecidableEq, Repr

/-- An open push (R126): PI when it began, the next slot it writes, and the bytes of its incomplete entry. -/
structure PushSt where
  base : Idx := 0
  next : Nat := 0
  buf : List Byte := []
  deriving DecidableEq, Repr

/-- A ring-fetch turn whose reads are outstanding (R143): the first slot that it has not taken, the slots of its read, those of the
second read of a turn that wraps the end of the ring, the whole entries that it may still take; and, once the first of two reads has
completed, the bytes of the entry that the wrap cuts. -/
structure FetchTurn where
  first : Idx := 0
  slots : Nat := 0
  second : Nat := 0
  left : Nat := 1
  got : Bool := false
  buf : List Byte := []
  deriving DecidableEq, Repr

/-- One submission queue (R119 to R146). -/
structure Sq where
  sizeLog2 : Nat := 4
  weight : Nat := 0
  burst : Nat := 1
  cqid : Nat := 0
  base : BitVec 64 := 0
  pi : Idx := 0
  ai : Idx := 0xFFFF
  /-- one past the last slot taken (R128) -/
  taken : Idx := 0
  push : Option PushSt := none
  turn : Option FetchTurn := none
  /-- not eligible until PI moves, because an INLINE_FRAME was not wholly rung (R143) -/
  stalled : Bool := false
  entries : List Taken := []
  /-- R138: `some true` for a receive SQ, `some false` for another, `none` while nothing has decided -/
  rx : Option Bool := none
  /-- tags of posted unfilled receive buffers, oldest first -/
  posted : List Nat := []
  /-- tags of started entries whose CQEs are not written (R139, R142) -/
  live : List Nat := []
  /-- tag of a FENCE that has started and is not completed (R139) -/
  fence : Option Nat := none
  /-- the rim holds its doorbell page (R65, R124); the side has deleted it and the rim has not -/
  page : Bool := false
  gone : Bool := false
  deriving DecidableEq, Repr

/-- One completion queue (R119, R146, R153). -/
structure Cq where
  sizeLog2 : Nat := 4
  vec : Nat := 0
  irqEn : Bool := false
  base : BitVec 64 := 0
  wi : Idx := 0
  ci : Idx := 0
  /-- places reserved (R146) -/
  resv : Nat := 0
  /-- contents of the slots from CI to WI, oldest first (R155) -/
  slots : List CqItem := []
  /-- the overflow area, oldest first -/
  ovf : List CqItem := []
  /-- QUE_CQ_FULL has been raised for the present full spell -/
  fullSeen : Bool := false
  /-- the rim knows it (R65); the side has deleted it and the rim has not -/
  page : Bool := false
  gone : Bool := false
  deriving DecidableEq, Repr

/-- What an operation does. -/
inductive OpKind where
  | frame
  | inline
  | stream
  | xfer
  | gather
  | scatter
  | rxBuf
  | fence
  deriving DecidableEq, Repr

/-- Where an operation stands. -/
inductive OpStage where
  | waitChan
  | onChan (c : Nat)
  | queued
  | staged
  | posted
  | waitQueue
  /-- a filled receive buffer whose write has ended with this code: it completes once the buffers of its SQ filled before it have
  (R151) -/
  | written (code : Nat)
  /-- it failed and completes with this status once the earlier entries of its SQ and flow queue have (R151) -/
  | failed (status : Nat)
  | done
  deriving DecidableEq, Repr

/-- An entry that holds an operation tag (R144). -/
structure Op where
  host : Nat := 0
  sq : Nat := 0
  slot : Idx := 0
  kind : OpKind := .frame
  user : W32 := 0
  port : Nat := 0
  tc : Nat := 0
  flow : Nat := 0
  noIrq : Bool := false
  tsReq : Bool := false
  addr : BitVec 64 := 0
  len : Nat := 0
  /-- MAXLEN of its port when it started (R271) -/
  maxlen : Nat := 1518
  /-- bytes of the packet buffer that it holds for the transmit side (R274) -/
  held : Nat := 0
  /-- order of start, for R162 -/
  order : Nat := 0
  stage : OpStage := .waitChan
  /-- copies of the frame still to leave or expire, and whether one has left (R306) -/
  copies : Nat := 0
  left : Bool := false
  /-- segments sent, ports served, buffers flushed: the count of RESULT (R147) -/
  count : Nat := 0
  /-- a segment expired: no further segment is picked (R254); the status when the payload's copy faulted instead (R172) -/
  dead : Bool := false
  fault : Nat := 0
  ts : Ts := {}
  /-- receive: ingress SOURCE, frame as it is written, error bits, BADFRAME -/
  rxBytes : List Byte := []
  rxSource : BitVec 16 := 0xFFFF
  rxErr : BitVec 4 := 0
  rxBad : Bool := false
  /-- stream: template, edits, payload (in the packet buffer), payload length, next segment, bytes sent -/
  tpl : List Byte := []
  edits : List (BitVec 64) := []
  payload : List Byte := []
  payLen : Nat := 0
  seg : Nat := 0
  sentBytes : Nat := 0
  /-- direct function that waits for a place: the port and frame (R344) -/
  target : Nat := 0
  deriving DecidableEq, Repr

/-- The queues, tags and rings of the part (R119 to R160). Tables are keyed host × 1,024 + number. -/
structure Que where
  sqs : Tab Sq := []
  cqs : Tab Cq := []
  ops : Tab Op := []
  quota : List Nat := [32768, 32768, 32768, 32768]
  orderNo : Nat := 0
  /-- where each host's weighted round robin stands: pass × 1,024 + the SQ of the last turn (R143) -/
  round : Tab Nat := []
  /-- queues that the side has deleted and made anew, as the rim still holds them (R63, R65) -/
  oldSqs : Tab Sq := []
  oldCqs : Tab Cq := []
  /-- an admin entry has been fetched for the host since its last I/O turn (R143) -/
  adminTurn : Tab Bool := []
  deriving DecidableEq, Repr

/-- A CQE, status packet or numbered set that waits for the commit of the Move that decided it (R65, R66, R149). -/
structure DueCqe where
  move : Nat := 0
  host : Nat := 0
  cq : Nat := 0
  sq : Nat := 0
  tag : Nat := 0
  noIrq : Bool := false
  /-- SQ_AI is fixed at the end of the Move (R147) -/
  aiDone : Bool := false
  cqe : Cqe := {}
  deriving DecidableEq, Repr

/-- A due status packet. -/
structure DueStatus where
  move : Nat := 0
  host : Nat := 0
  /-- the start monitor executed the command: no Move is waited for -/
  mon : Bool := false
  pkt : StatusPkt := {}
  deriving DecidableEq, Repr

/-- A gate tape entry (R224). -/
structure TapeEntry where
  duration : Nat := 1000000
  gates : BitVec 8 := 0xFF
  action : BitVec 8 := 0
  deriving DecidableEq, Repr

/-- A record for the event recorder (R463) before the rim takes it. -/
structure RecIn where
  sev : Nat := 0
  kind : Nat := 0
  payload : List Byte := []
  deriving DecidableEq, Repr

/-- Settings of a field port: the role and the 28 bytes of SETTINGS (R323). -/
structure FldSet where
  role : Nat := 0
  settings : BitVec 224 := 0
  deriving DecidableEq, Repr

/-- One rim write of a numbered set (R65, R551). -/
inductive RimWrite where
  | raise (src : Nat)
  | bump (key : Nat) (n : Nat)
  | record (r : RecIn)
  | tape (p : Nat) (t : List TapeEntry) (start : Nat)
  | tapeCancel (p : Nat)
  | gateClass (p t : Nat) (pre : Bool) (holdUs : Nat)
  | gateClose (p : Nat) (fit : Bool)
  | portSet (p : Nat) (speed iface maxlen : Nat) (bad eee : Bool)
  | portEnable (p : Nat) (en : Bool)
  | portFilter (p i : Nat) (valid : Bool) (mac : BitVec 48)
  | portEeeMargin (p : Nat) (ns : Nat)
  | portPeer (p : Nat) (tw : Option Nat) (addFrag : BitVec 2)
  | portRecal (p : Nat)
  | fldSet (n : Nat) (x : FldSet)
  | timeStep (off : Int)
  | timeRate (adj : Int)
  | pps (outEn inEn : Bool) (widthUs : Nat)
  | lock (on : Bool)
  | mode (m : Nat)
  | safeHold
  | resume (causes : BitVec 5)
  | resetStandby
  | fwReset (d : SideId)
  | bypassForce (k : Nat) (on : Bool)
  | fabEnable (en given : Bool) (idState : Nat) (id : Nat)
  | routeTable (t : Tab (BitVec 64))
  | clearFloor (host : Nat)
  | privCopy (h : Nat)
  | startCold
  | startWarm
  | evtFwClear (w : Nat) (v : W32)
  | sqPage (h q : Nat) (on : Bool)
  | cqPage (h c : Nat) (on : Bool)
  deriving DecidableEq, Repr

/-- A numbered set (R65): its number, the Move that decided it and its writes. -/
structure RimSet where
  num : Nat := 0
  move : Nat := 0
  writes : List RimWrite := []
  deriving DecidableEq, Repr

/-- The background work of a running class L command. -/
inductive LongOp where
  | waitSet (num : Nat)
  | portSet (p num : Nat)
  | portRecal (p : Nat) (ended : Bool)
  | aggLoad (id : Nat) (body : List Byte)
  | tapeLoad (p : Nat) (t : List TapeEntry) (start : Nat)
  | idLoad (t : List (BitVec 512))
  | routeLoad (t : Tab (BitVec 64))
  | castle (outcome : Option (Nat × Nat))
  | selftest (d : SideId) (tests : Nat) (begun : Bool) (outcome : Option Nat)
  | recClear (host : Nat) (good : Bool)
  | fwWrite (d : SideId) (slot : Nat) (off : Nat) (bytes : List Byte)
  | fwVerify (d : SideId) (slot : Nat)
  | fwActivate (d : SideId) (slot : Nat) (num : Nat) (outcome : Option Nat)
  | startCold
  | startWarm
  deriving DecidableEq, Repr

/-- A running class L command (R69): its host, packet, what the status packet fixed at execution, its work. -/
structure Running where
  host : Nat := 0
  pkt : Packet := {}
  asqHead : BitVec 16 := 0
  epoch : BitVec 16 := 0
  gen : W32 := 0
  op : LongOp := .startCold
  /-- it changes state when it ends with ST_OK (R55); the Move in which it executed -/
  changes : Bool := true
  move : Nat := 0
  /-- an item of the configuration load (R442); executed by the start monitor (R52) -/
  cfg : Bool := false
  mon : Bool := false
  /-- its host was reset by PERSTn_N: no status packet (R517) -/
  dead : Bool := false
  deriving DecidableEq, Repr

/-- The admin queue state of one host (R82, R83). -/
structure AdminHost where
  en : Bool := false
  /-- AQ_EN was written 0 while AQ_BUSY was 1 (R83) -/
  stopping : Bool := false
  cfgErr : Bool := false
  /-- free-running count of admin entries consumed (R59) -/
  head : BitVec 16 := 0
  lastStatus : Nat := 0
  lastOpcode : BitVec 16 := 0
  deriving DecidableEq, Repr

/-- What a command with an indirect buffer did when it executed: it began, was refused, or ran dry (R64). -/
inductive IbKind where
  | began
  | refused
  | dry
  deriving DecidableEq, Repr

/-- One side's flash: the boot record fields (R541) and what is known of its running image (R549).
DESIGN CHOICE, log entry 70. -/
structure Flash where
  active : Nat := 0
  prev : Nat := 0
  st0 : Nat := 0
  st1 : Nat := 0
  confirmed : Bool := false
  tries : Nat := 0
  gen : W32 := 0
  fallback : Bool := false
  running : Nat := 0
  version : W32 := 0
  svn : BitVec 16 := 0
  stateFmt : BitVec 16 := 0
  svnCommit : Bool := false
  /-- raises of the fused minimum used, and the minimum they made (R544) -/
  raises : Nat := 0
  svnMin : Option (BitVec 16) := none
  /-- contents that the part has programmed -/
  cells : List Host.Cell := []
  deriving DecidableEq, Repr

/-- A command with an indirect buffer whose execution a replay would repeat (R58): the Move of its execution, what its
status packet fixed then, and, once it has ended, the numbered set that its end decided. -/
structure IbCmd where
  move : Nat := 0
  host : Nat := 0
  pkt : Packet := {}
  asqHead : BitVec 16 := 0
  epoch : BitVec 16 := 0
  kind : IbKind := .began
  ended : Bool := false
  setNo : Nat := 0
  /-- its end counted its generation, and counted it as done (R55, R82) -/
  bumped : Bool := false
  done : Bool := false
  /-- the nonce in force before it (R79) -/
  nonce : Option (BitVec 64 × Nat) := none
  /-- the flash that an FW_WRITE has written, as it was before -/
  flash : Option Flash := none
  /-- it was refused because its buffer could not be read or failed its CRC -/
  byRead : Bool := false
  /-- STATUS and offset that it has where the buffer fails its CRC, and where it cannot be read (R57, R62) -/
  onCrc : Nat × Nat := (0, 0xFFFF)
  onBus : Nat × Nat := (0, 0xFFFF)
  deriving DecidableEq, Repr

/-- A side object that a command has changed (R63). -/
inductive Obj where
  | flow (f : Nat)
  | agg (a : Nat)
  | quota
  deriving DecidableEq, Repr

/-- The command processor (Command Packets and Status Replies). -/
structure Cmd where
  hosts : Tab AdminHost := []
  /-- accepted admin commands in Scoresheet order: host, packet, the time of the record (R68, R383) -/
  waiting : List (Nat × Packet × Stamp) := []
  gens : Tab W32 := []
  /-- the generations at the markers of Moves that are not committed, with the Move, and at the last commit (R67) -/
  gensMark : List (Nat × Tab W32) := []
  gensDone : Tab W32 := []
  running : Tab Running := []
  dueStatus : List DueStatus := []
  /-- class S commands executed in the present Move (R69) and REC_NOTEs in it (R476) -/
  shortInMove : Nat := 0
  notesInMove : Nat := 0
  /-- CMD_PRIV.HOST as the side holds it -/
  priv : Nat := 0
  /-- the nonce of R79 with the operating time at which it was drawn -/
  nonce : Option (BitVec 64 × Nat) := none
  /-- commands with an indirect buffer that no committed Move holds, in order of execution (R58) -/
  ibCmds : List IbCmd := []
  /-- objects changed by commands, with the Move that changed them, while that Move is not committed (R63) -/
  fresh : List (Nat × Obj) := []
  deriving DecidableEq, Repr

/-- A DMA descriptor as read (R165): 256 bits. -/
abbrev Desc := BitVec 256

/-- What a channel does at present. -/
inductive ChPhase where
  | idle
  | walk
  | index
  | data
  | flush
  | ended
  deriving DecidableEq, Repr

/-- The kind of a channel's owner (DMA_CH_OWNER.KIND). -/
inductive ChKind where
  | idle
  | xfer
  | txCopy
  | rxWrite
  | firmware
  deriving DecidableEq, Repr

/-- A read that a pool channel has issued: its space and host, its first byte and length, the completion data that has
arrived (whole DWORDs where it is a host read), the reference-time tick at its issue (R163, R175, R182, R185). -/
structure ReadReq where
  space : Nat := 0
  host : Nat := 0
  addr : Nat := 0
  want : Nat := 0
  got : List Byte := []
  tick : Nat := 0
  deriving DecidableEq, Repr

/-- One DMA channel (R161 to R189). -/
structure ChanSt where
  kind : ChKind := .idle
  host : Nat := 0
  tag : Nat := 0
  phase : ChPhase := .idle
  /-- the chain's head and count, where its next descriptor lies, the descriptors read, the descriptor executing -/
  head : BitVec 64 := 0
  count : Nat := 0
  nextAddr : Nat := 0
  nextHost : Nat := 0
  descs : List Desc := []
  cur : Nat := 0
  /-- index offsets read of the current INDEX descriptor; bytes read and not yet written; bytes moved (DMA_CH_POS) -/
  offs : List Nat := []
  buf : List Byte := []
  pos : Nat := 0
  /-- the read outstanding; the hosts that the chain has written; the hosts whose flush read a barrier waits for -/
  read : Option ReadReq := none
  wrote : List Nat := []
  flushes : List Nat := []
  halted : Bool := false
  /-- the Move in which the halt was decided (R181) -/
  haltMove : Nat := 0
  endCode : Nat := 0
  endStatus : Nat := 0
  endIdx : Nat := 0
  resid : Nat := 0
  deriving DecidableEq, Repr

/-- A latched bus error (DMA_POOL_ERR, DMA_PCH_ERR). -/
structure ErrLatch where
  addr : BitVec 64 := 0
  dir : Bool := false
  host : Nat := 0
  space : Nat := 0
  code : Nat := 0
  /-- ERR and LATER of a privileged channel -/
  err : Bool := false
  later : Nat := 0
  deriving DecidableEq, Repr

/-- The DMA engine. -/
structure Dma where
  chans : Tab ChanSt := []
  stopped : Bool := false
  auto : Bool := false
  multi : Bool := false
  cand : BitVec 128 := 0
  err : ErrLatch := {}
  pch : Tab ErrLatch := []
  /-- operating time of the stop in ms (R183) -/
  stopAt : Nat := 0
  /-- the round of R163: turns given in it, those given to DMA_XFER, and the last channel served of each kind -/
  turns : Nat := 0
  xferTurns : Nat := 0
  last : Tab Nat := []
  /-- data writes and completed reads of Moves that are not committed, with the Move: a replay makes them again (R174, R187, R393) -/
  sent : List (Nat × Tlp) := []
  deriving DecidableEq, Repr

/-- What an element of a flow queue is. -/
inductive ElemKind where
  | frame
  | stream
  | gather
  | control
  deriving DecidableEq, Repr

/-- An element of a flow queue (R191, R192). -/
structure Elem where
  kind : ElemKind := .frame
  tag : Option Nat := none
  /-- the frame without FCS (empty for a stream, whose bytes its operation holds) -/
  bytes : List Byte := []
  /-- elapsed network time at its entry into the flow queue, or at the previous segment's start (R242) -/
  since : Nat := 0
  /-- elapsed network time of its entry or of the previous staging, for the delay monitors (R217) -/
  enter : Nat := 0
  /-- start and finish tags, once it is the head (R196) -/
  tags : Option (Nat × Nat) := none
  seq : Option Nat := none
  /-- a frame waited for a later window and was counted (R241) -/
  waited : Bool := false
  /-- MAXLEN against which it was checked (R271) -/
  maxlen : Nat := 1518
  deriving DecidableEq, Repr

/-- A flow queue and its shaper (R190 to R207). -/
structure FlowQ where
  en : Bool := false
  port : Nat := 0
  tc : Nat := 0
  weight : Nat := 0
  rate : Nat := 0
  burst : Nat := 0
  overhead : Int := 20
  credit : Int := 0
  tag : Nat := 0
  elems : List Elem := []
  /-- RATE and BURST that wait for their commit, with the Move, oldest first (R204) -/
  newShape : List (Nat × Nat × Nat) := []
  /-- WEIGHT and OVERHEAD that wait for their commit, with the Move, oldest first (R205) -/
  newShare : List (Nat × Nat × Int) := []
  deriving DecidableEq, Repr

/-- Egress scheduling. `vt` is keyed port × 8 + class. -/
structure Sch where
  flows : Tab FlowQ := []
  vt : Tab Nat := []
  /-- rate ticks counted since reset (R201); elapsed network time of each monitor's last sample point (R218) -/
  ticks : Nat := 0
  sampled : Tab Nat := []
  deriving DecidableEq, Repr

/-- What stands in a staging queue (R39, R40, R253). -/
structure Staged where
  /-- 0 frame, 1 segment, 2 gather or control, 3 time-sync, 4 relayed, 5 express lane -/
  src : Nat := 0
  tag : Option Nat := none
  flow : Nat := 0
  bytes : List Byte := []
  seq : Option Nat := none
  /-- the close setting under which it was staged (R236) -/
  fit : Bool := false
  /-- accepted mark (R39) -/
  mark : Bool := true
  expired : Bool := false
  since : Nat := 0
  /-- REF of its transmit timestamp queue entry, when it has one (R109) -/
  ref : Option W32 := none
  lastSeg : Bool := false
  /-- MAX_HOLD_US under which it was staged (R72, R242) -/
  hold : Nat := 1000000
  /-- sent again after a warm start (R402) -/
  again : Bool := false
  deriving DecidableEq, Repr

/-- A frame on the wire, or a cut pre-emptible frame that waits to resume (R239). -/
structure OnWire where
  cls : Nat := 0
  pre : Bool := false
  item : Staged := {}
  /-- wire bytes without FCS once the MAC's edits are in, and how many have left when it was cut -/
  wire : List Byte := []
  sent : Nat := 0
  cuts : Nat := 0
  ts : Ts := {}
  /-- elapsed network time in ps at the first bit of the preamble of the fragment on the wire -/
  startPs : Nat := 0
  /-- and at its message timestamp point (R105) -/
  stampPs : Nat := 0
  again : Bool := false
  padded : Bool := false
  /-- the relay cuts it through (R425); the egress MAC ends it with the complement of its FCS (R426) -/
  thru : Bool := false
  stomp : Bool := false
  deriving DecidableEq, Repr

/-- A pending tape (R229, R230): its entries, START, and the network time A of its application. -/
structure PendTape where
  tape : List TapeEntry := []
  start : Nat := 0
  applied : Nat := 0
  deriving DecidableEq, Repr

/-- The gate-tape executor, close settings and MAC Merge sublayer of one port. -/
structure GateP where
  tape : List TapeEntry := [{}]
  origin : Nat := 0
  pend : Option PendTape := none
  bank : Bool := false
  entry : Nat := 0
  /-- network time of the Midnight, and elapsed network time at it -/
  midnight : Nat := 0
  midEl : Nat := 0
  /-- in a fill interval: network time and elapsed network time of the next Midnight, and whether it is a tape's first -/
  fill : Option (Nat × Nat × Bool) := none
  /-- gates held during a fill interval (R231) -/
  fillGates : BitVec 8 := 0xFF
  hold : Bool := false
  fit : Bool := false
  fitNext : Bool := false
  pre : BitVec 8 := 0
  /-- KIND and MAX_HOLD_US that wait for a frame boundary, or for a cut frame of the class (R65, R235); addFragSize of the
  partner that waits for a frame boundary (R65) -/
  preNext : Tab (Bool × Nat) := []
  fragNext : Option (BitVec 2) := none
  maxHold : Tab Nat := []
  staged : Tab (List Staged) := []
  /-- frames of the staging queues that a warm start found no place for, ahead of every new pick (R209, R402) -/
  back : Tab (List Staged) := []
  relay : Tab (List Staged) := []
  wire : Option OnWire := none
  cut : Option OnWire := none
  /-- elapsed network time in ps from which the next frame may start: what was last on the wire has left with its gap (R245) -/
  freeAt : Nat := 0
  verify : Nat := 0
  attempts : Nat := 0
  peerFrag : BitVec 2 := 0
  /-- gate state changes of the last 256 µs: elapsed network time and gates, newest first (R299) -/
  hist : List (Nat × BitVec 8) := []
  deriving DecidableEq, Repr

/-- The summary of a received frame (R26, R390 RX), with its bytes in the packet buffer. -/
structure RxSum where
  bytes : List Byte := []
  len : Nat := 0
  ts : Ts := {}
  /-- elapsed network time of its receive timestamp; the time of its record -/
  el : Nat := 0
  stamp : Stamp := {}
  bad : Bool := false
  errs : BitVec 4 := 0
  deriving DecidableEq, Repr

/-- What a frame being received is decided by when commands have changed it meanwhile: the address filter, the route table and
the fabric function as they stood before (R65, R72). -/
structure RxKeep where
  filters : Tab (BitVec 49) := []
  routes : Tab (BitVec 64) := []
  en : Bool := false
  given : Bool := false
  idState : Nat := 0
  nodeId : Nat := 0
  deriving DecidableEq, Repr

/-- One high-speed port (High-Speed Ethernet Ports). -/
structure PortSt where
  en : Bool := false
  speed : Nat := 4
  iface : Nat := 0
  /-- SPEED and IFACE that wait for the last frame of a disabled port (R65) -/
  laneNext : Option (Nat × Nat) := none
  eee : Bool := false
  bad : Bool := false
  /-- MAXLEN in force for what is sent, and for what is received (R271) -/
  maxlen : Nat := 1518
  rxMax : Nat := 1518
  /-- settings that wait for the next boundary: MAXLEN and EEE_EN for sending, MAXLEN and BADFRAME_DELIVER for receiving -/
  txNext : Option (Nat × Bool) := none
  rxNext : Option (Nat × Bool) := none
  link : Bool := false
  recal : Bool := false
  recalStatus : Nat := 0
  recalCount : Nat := 0
  mismatch : Bool := false
  hiBer : Bool := false
  blockLock : Bool := false
  txLpi : Bool := false
  waking : Bool := false
  rxLpi : Bool := false
  /-- elapsed network time up to which low-power idle has been counted, of the wake, and of the last frame's end -/
  lpiSince : Nat := 0
  /-- the same of the partner's low-power idle (R280) -/
  rxLpiSince : Nat := 0
  wakeAt : Nat := 0
  idleSince : Nat := 0
  filters : Tab (BitVec 49) := []
  margin : Nat := 1000
  peerTw : Option Nat := none
  dawn : Nat := 0
  inband : Option (BitVec 5) := none
  /-- reservation of the frame being received (R274), 0 for one that is dropped; its timestamp (R105, R106) and the
  elapsed network time at it -/
  rx : Option Nat := none
  rxTs : Ts := {}
  rxEl : Nat := 0
  /-- the same of a pre-emptible frame that an express frame being received interrupts (R106) -/
  rxHeld : Option (Nat × Ts × Nat) := none
  keep : Option RxKeep := none
  /-- bytes held for received frames and reservations (R274) -/
  held : Nat := 0
  /-- summaries recorded and not consumed -/
  sums : List RxSum := []
  txOff : Bool := false
  deriving DecidableEq, Repr

/-- A meter (R300); levels in millibytes. -/
structure Meter where
  aware : Bool := false
  coupled : Bool := false
  cir : Nat := 0
  eir : Nat := 0
  cbs : Nat := 0
  ebs : Nat := 0
  tc : Nat := 0
  te : Nat := 0
  /-- elapsed network time in µs up to which rate ticks have been added -/
  upTo : Nat := 0
  deriving DecidableEq, Repr

/-- A sequence-generation function (R303). -/
structure SeqGen where
  en : Bool := false
  handle : Nat := 0
  next : BitVec 16 := 0
  deriving DecidableEq, Repr

/-- A sequence-recovery function (R309). `hist` bit k stands for RECOV_SEQ − k. -/
structure SeqRec where
  en : Bool := false
  alg : Bool := false
  history : Nat := 0
  resetMs : Nat := 0
  takeAny : Bool := true
  recov : BitVec 16 := 0
  hist : BitVec 128 := 0
  /-- elapsed network time of the last passed frame (R311) -/
  lastPass : Nat := 0
  deriving DecidableEq, Repr

/-- The stream functions. `blocked` holds BLK_GATE in bit 1 and BLK_SDU in bit 0. -/
structure Strm where
  table : List (BitVec 512) := []
  /-- tables of executed STRM_ID_LOADs whose Move is not committed, with the Move, oldest first (R63, R297) -/
  loads : List (Nat × List (BitVec 512)) := []
  /-- executed STRM_SEQGEN_SETs whose Move is not committed, oldest first: the Move, the function, EN, the handle, RESET_SEQ (R63) -/
  newGens : List (Nat × Nat × Bool × Nat × Bool) := []
  meters : Tab Meter := []
  gens : Tab SeqGen := []
  recs : Tab SeqRec := []
  blocked : Tab (BitVec 2) := []
  deriving DecidableEq, Repr

/-- A frame of a field transmit queue: its 16-byte header fields and data. -/
structure FldTx where
  frame : FldFrame := {}
  num : W32 := 0
  deriving DecidableEq, Repr

/-- The frame that a field port sends: its enqueue number, and its bytes as the controller puts them on the bus (R266, R344). -/
structure FldBus where
  num : W32 := 0
  wire : List Byte := []
  /-- bytes of the frame that channel 5 moves -/
  bytes : Nat := 0
  deriving DecidableEq, Repr

/-- One field port (Field Ports and Aggregation). -/
structure FldP where
  cfg : FldSet := {}
  next : Option FldSet := none
  link : Bool := false
  busOff : Bool := false
  passive : Bool := false
  plcaOk : Bool := false
  csma : Bool := false
  /-- NODE_COUNT of the last BEACON (R328) -/
  beaconCount : Nat := 0
  tec : Nat := 0
  recErr : Nat := 0
  txq : List FldTx := []
  /-- the queued frame that is on the bus (R335) -/
  bus : Option FldBus := none
  /-- last enqueue number taken by the rim, and last number given by the side (R336) -/
  enq : W32 := 0
  enqSide : W32 := 0
  /-- enqueues decided by the side that the rim has not taken -/
  enqWait : List FldTx := []
  /-- reservation of the frame being received, 0 for one that is dropped, and its timestamp (R330, R332) -/
  rx : Option Nat := none
  rxTs : Ts := {}
  /-- summaries not consumed: header and data as a host gets them, the timestamp, the time of the record -/
  sums : List (List Byte × Ts × Stamp) := []
  /-- receive image versions, newest first, with their network times; transmit image -/
  images : List (Nat × List Byte) := []
  upd : BitVec 6 := 0
  txImage : List Byte := []
  silent : Bool := false
  deriving DecidableEq, Repr

/-- A run of an aggregation function in progress: the frame it built and its flow queue, or the ports whose images it
wrote; its operation's tag; `old` says that the function has been loaded anew since (R339). -/
structure AggRun where
  bytes : List Byte := []
  flow : Nat := 0
  ports : List Nat := []
  tag : Option Nat := none
  old : Bool := false
  deriving DecidableEq, Repr

/-- One aggregation function (R338), with its run counter and a run in progress. -/
structure Agg where
  kind : Nat := 0
  body : List Byte := []
  runCnt : BitVec 16 := 0
  /-- kind, body and run counter before a load whose Move is not committed (R63) -/
  prev : Option (Nat × List Byte × BitVec 16) := none
  /-- a gather that builds -/
  building : Option AggRun := none
  /-- a scatter that has written its elements -/
  scattered : Option AggRun := none
  deriving DecidableEq, Repr

/-- The field ports and functions; `viof` is keyed by bank: bit 1 VIOF_OK, bit 0 VIOF_3V3. -/
structure Fld where
  ports : Tab FldP := []
  aggs : Tab Agg := []
  held : Nat := 0
  viof : Tab (BitVec 2) := []
  deriving DecidableEq, Repr

/-- A transmit timestamp queue entry (R109). -/
structure TxTs where
  ns : BitVec 64 := 0
  epoch : BitVec 16 := 0
  tsf : BitVec 16 := 0
  ref : W32 := 0
  deriving DecidableEq, Repr

/-- One port's transmit timestamp queue (R110, R111). -/
structure TxTsQ where
  entries : List TxTs := []
  ovf : Bool := false
  /-- timestamps lost since the last gap marker, and the time of the first of them -/
  lost : Nat := 0
  lostAt : Option Ts := none
  deriving DecidableEq, Repr

/-- A gPTP domain slot (R91, R92). States: 0 off, 1 acquiring, 2 locked, 3 lost, 4 grandmaster. -/
structure DomSlot where
  domain : Nat := 0
  role : Nat := 0
  state : Nat := 0
  offset : Int := 0
  rate : Int := 0
  good : Nat := 0
  /-- elapsed network time at its last Sync, and since which it is locked -/
  heard : Nat := 0
  lockedAt : Nat := 0
  /-- elapsed network time at which it last sent Sync -/
  sentAt : Option Nat := none
  /-- it is selected and has stopped being locked at an offset beyond 1 µs (R96) -/
  regain : Bool := false
  deriving DecidableEq, Repr

/-- The peer-delay exchange of a port in a slot (R91): the last request, when it left, when the peer received it, when the
response came, and the link delay in ns that the last whole exchange gave. -/
structure PtpDelay where
  seq : Nat := 0
  t1 : Option Nat := none
  t2 : Option Nat := none
  t4 : Option Nat := none
  delay : Option Int := none
  /-- elapsed network time at which the last request was sent -/
  sentAt : Option Nat := none
  deriving DecidableEq, Repr

/-- The time base (R85 to R104). DESIGN CHOICE, log entry 36. -/
structure Time where
  /-- three copies of network time: nanoseconds in bits [95:32], the sub-nanosecond fraction below (R85, R86) -/
  copyA : BitVec 96 := 0
  copyB : BitVec 96 := 0
  copyC : BitVec 96 := 0
  /-- what is left of 2 × ADJ × 2^-16 / 1,000 ns below the fraction: in units of 2^-32 / 125 ns -/
  residue : Nat := 0
  /-- advance of network time under R85 since reset, as copyA (steps left out) -/
  elapsed : BitVec 96 := 0
  adj : Int := 0
  epoch : BitVec 16 := 0
  /-- reference time in 2 ns ticks -/
  tick : Nat := 0
  tmrFail : Bool := false
  /-- within 100 ms of a reference switch: the tick at which it ends (R88) -/
  refUnsure : Nat := 0
  /-- steps and rate changes taken by the rim and not applied (R98, R104) -/
  steps : List Int := []
  rates : List Int := []
  /-- operating time in ms, its saved value, power cycles -/
  optime : Nat := 0
  optimeSaved : Nat := 0
  pwrCycles : Nat := 0
  ppsOut : Bool := false
  ppsIn : Bool := false
  ppsWidth : Nat := 1
  /-- the last tick has reached a whole second; the reference-time tick up to which PPS_OUT is high (R103) -/
  ppsDue : Bool := false
  ppsUntil : Nat := 0
  /-- whole seconds of network time marked on PPS_OUT -/
  ppsPulses : Nat := 0
  ppsCapture : BitVec 64 := 0
  ppsEpoch : BitVec 16 := 0
  txts : Tab TxTsQ := []
  deriving DecidableEq, Repr

/-- A time-sync message that waits for a side to consume it, with the time of its reception (R105, R113). -/
inductive PtpIn where
  | sync (f : SyncFacts)
  | pdelay (m : PtpMsg) (ts : Ts)
  deriving DecidableEq, Repr

/-- The gPTP engine's side state (R91 to R95). DEDUCED, log entry 31. -/
structure Ptp where
  slot0 : DomSlot := {}
  slot1 : DomSlot := {}
  sel : Fin 2 := 0
  slewing : Bool := false
  /-- in holdover (R95): no slot is locked at reset -/
  holdover : Bool := true
  /-- the time base has been set once (R96) -/
  everSet : Bool := false
  /-- the offset being slewed out, and the rate without the slew's part (R94) -/
  slewOff : Int := 0
  base : Int := 0
  /-- TIME_PTP_PORT and TIME_DOM_CFG as applied: port states keyed port × 2 + slot, settings by slot (R117) -/
  ports : Tab Nat := []
  cfg : Tab Nat := []
  /-- peer-delay exchanges, keyed port × 2 + slot -/
  delays : Tab PtpDelay := []
  /-- time-sync messages received and not processed, with the times of their records (R113, R366) -/
  rxWait : List (PtpIn × Stamp) := []
  /-- time-sync messages that wait to be staged: the port, the message (R40, R193) -/
  due : List (Nat × Staged) := []
  deriving DecidableEq, Repr

/-- An input record of the Scoresheet that the side has still to take at its place: a register write or a clearing
read of a side block (R390 REG), or the assertion of PERSTn_N (R517). -/
inductive RegRec where
  | write (h : Nat) (addr : Nat) (v : W32) (enables : BitVec 4)
  | read (h : Nat) (addr : Nat)
  | perst (h : Nat)
  deriving DecidableEq, Repr

/-- Subkinds of a TIME record (R390), and what each names. -/
inductive TimeSub where
  | marker
  | departure (p t : Nat) (tag : Option Nat)
  | ownStamp (p : Nat)
  | trigger (p entry : Nat)
  | ms
  | step
  | fall
  | grant
  | release
  | mlFail
  deriving DecidableEq, Repr

/-- The input that a record of the Scoresheet carries (R390). -/
inductive SsBody where
  | push (host sq first : Nat) (bytes : List Byte)
  | fetch (host sq first : Nat) (bytes : List Byte)
  | fetchFault (host sq first slots : Nat)
  | doorbell (host sq pi : Nat)
  | cqCi (host cq ci : Nat)
  | reg (r : RegRec)
  | rx (p : Nat) (x : RxSum)
  | fldRx (n : Nat) (bytes : List Byte)
  | time (sub : TimeSub) (ns : Nat)
  deriving DecidableEq, Repr

/-- A record of the Scoresheet: SEQ, the tick of its arrival and its input (R390). -/
structure SsRec where
  seq : Nat := 0
  tick : W32 := 0
  body : SsBody := .time .ms 0
  deriving DecidableEq, Repr

/-- A run of a state delta: its region, its first line and its count of 1 to 64 lines (R384). -/
structure DeltaRun where
  region : Nat := 0
  first : Nat := 0
  count : Nat := 1
  deriving DecidableEq, Repr

/-- A commit token as the active side makes it at a marker (R386). -/
structure CommitTok where
  kind : Nat := 2
  throttled : Bool := false
  handover : Bool := false
  cutover : Bool := false
  move : W32 := 0
  base : W32 := 0
  flits : Nat := 0
  consumed : Nat := 0
  crc : W32 := 0
  deriving DecidableEq, Repr

/-- A heartbeat flit: the side's state, its last Move and its health word (R352). -/
structure Beat where
  state : Nat := 0
  move : Nat := 0
  health : BitVec 16 := 0
  deriving DecidableEq, Repr

/-- What one side holds of its own (R349 to R361, R447). State codes are those of R349. DEDUCED, log entry 5. -/
structure SideRec where
  state : Nat := 0
  alive : Bool := false
  flag : Bool := false
  press : Bool := false
  /-- reference-time tick of its pending press (R359) -/
  pressTick : Nat := 0
  healthy : Bool := true
  /-- last Move committed or applied (SIDE_MOVE_W, SIDE_MOVE_B) -/
  move : Nat := 0
  /-- its base is the handed-over or last applied Move; the journal mark of R447 -/
  jrnValid : Bool := false
  /-- reset held, flush running, boot steps reached and failed -/
  inReset : Bool := true
  flushing : Bool := false
  step : Nat := 0
  failCause : Nat := 0
  /-- every boot step has ended well -/
  ready : Bool := false
  /-- automatic resets since PORST_N, and whether the limit has been told (R453) -/
  autoResets : Nat := 0
  limited : Bool := false
  /-- the boot is a full one: steps 3 to 6 of R439 -/
  fullBoot : Bool := true
  /-- reference-time tick of the last toggle of its alive pulse, and its last heartbeat flit (R352, R362) -/
  toggle : Nat := 0
  beat : Option Beat := none
  /-- the Moves that its two Move slots hold whole, written alternately; the one written last; the Move of its state region, which
  takes each slot once it is whole (R389, R400) -/
  slot0 : Option Nat := none
  slot1 : Option Nat := none
  newer : Bool := true
  region : Option Nat := none
  /-- its flush area: the records, and the mark that the flush is complete (R401) -/
  flush : List SsRec := []
  flushWhole : Bool := false
  /-- it passed its tests after leaving Lockstep and waits for the Mirror Link (R378) -/
  mustLoop : Bool := false
  /-- the 1 GiB that its next DDR_PATTERN tests (R377) -/
  patternGib : Nat := 0
  deriving DecidableEq, Repr

/-- Where the holder's dispatch stands (R362, R366, R369, R373). -/
inductive Disp where
  | none
  | running
  | replay
  | restart
  | check
  deriving DecidableEq, Repr

/-- A planned Castling that runs (R363): armed at execution, handed over at the marker. -/
inductive Handover where
  | none
  | armed
  | sent
  | released (by_ : SideId)
  deriving DecidableEq, Repr

/-- The Chess Clock, the sides and the Mirror Link. -/
structure Sides where
  white : SideRec := {}
  black : SideRec := {}
  holder : Option SideId := none
  disp : Disp := .none
  /-- the present interruption is a Castling, forced when true (R362, R381) -/
  castling : Option Bool := none
  handover : Handover := .none
  mlOk : Bool := false
  /-- how many sends in a row of a flit have failed, keyed flit × 2 + the side that sends it (R31) -/
  mlFails : Tab Nat := []
  lsHold : Bool := false
  lsKind : Nat := 0
  lsOutput : Nat := 0
  lsVerdict : Nat := 0
  /-- consecutive clean self-test runs of R376, and the return to Duplex that waits for the Move end -/
  loopRuns : Nat := 0
  lsExit : Bool := false
  /-- the Move at whose end Lockstep ended: both sides commit it on their own (R376) -/
  exitMove : Option Nat := none
  /-- reference-time tick from which the present interruption is measured (R362) -/
  intrFrom : Option Nat := none
  lastIntr : Nat := 0
  lastGrant : BitVec 64 := 0
  stRunning : Bool := false
  stSide : Bool := false
  stPassed : BitVec 7 := 0
  stFailed : BitVec 7 := 0
  /-- resynchronization: phase, passes, side, amounts (R405, R408) -/
  phase : Nat := 0
  pass : Nat := 0
  rsSide : Bool := false
  rsInUse : Nat := 0
  /-- in KiB, as the two that follow; granules copied in the Move that runs (R405) -/
  rsCopied : Nat := 0
  rsMoved : Nat := 0
  rsDirty : Nat := 0
  rsDirtied : Nat := 0
  rsStart : Nat := 0
  rsLast : Nat := 0
  deriving DecidableEq, Repr

/-- Moves, the Scoresheet and the journal (R382 to R403). DESIGN CHOICE, log entry 40. -/
structure Jrn where
  /-- number of the Move that runs: it ends at the marker of this number -/
  move : Nat := 0
  /-- elapsed network time at the last Move marker -/
  markEl : Nat := 0
  /-- the times that the last record carries, or the one that the side consumes: those of every decision (R60, R100, R213, R383) -/
  last : Stamp := {}
  /-- last Move committed (GLB_LAST_COMMIT) -/
  committed : Option Nat := none
  /-- the Move that awaits its commit: its number, and whether the token awaits the standby's acknowledgement -/
  pending : Option (Nat × Bool) := none
  throttled : Bool := false
  /-- the Move was throttled because of its flits (R385, R386) -/
  capped : Bool := false
  /-- the state delta of the Move that runs: lines that are dirty and not sent, each a region and a line, and the runs sent (R384);
  and the delta of the Move that awaits its commit: what the standby's two receive buffers hold (R387) -/
  dirty : List (Nat × Nat) := []
  delta : List DeltaRun := []
  pendDelta : List DeltaRun := []
  /-- the token of the Move that awaits its commit (R386) -/
  token : CommitTok := {}
  /-- next Scoresheet sequence number, the records not freed, the first number that no side has consumed, and the bytes in the
  on-die ring and in the spill region (R390, R391) -/
  seq : Nat := 0
  sheet : List SsRec := []
  consumed : Nat := 0
  ondie : Nat := 0
  spill : Nat := 0
  full : Bool := false
  /-- register writes, clearing reads and PERSTn_N records not consumed, with their times -/
  regs : List (RegRec × Stamp) := []
  setNo : Nat := 0
  sets : List RimSet := []
  /-- highest set number the rim has taken -/
  setTaken : Nat := 0
  /-- host reads of side registers that clear nothing, held while no side answers (R36) -/
  heldReads : List (Nat × Nat) := []
  dueCqe : List DueCqe := []
  /-- packet-buffer space to free once its Move has committed: Move, use (port, 32 sent, 33 field), bytes (R27) -/
  frees : List (Nat × Nat × Nat) := []
  /-- departures that the side has still to consume: port, class, item, left (false for a skipped expired frame), the timestamp,
  the time of the record -/
  departs : List (Nat × Nat × Staged × Bool × Ts × Stamp) := []
  /-- departures since the last committed Move: the Move, port, class and item (R402) -/
  since : List (Nat × Nat × Nat × Staged) := []
  /-- what no host has released is written again at the next commit (R74, R155) -/
  rewrite : Bool := false
  /-- a side has replayed and not committed since: it writes no CQE and no status packet (R393, R394) -/
  replayed : Bool := false
  /-- tape triggers not consumed: port, entry, network time (R224) -/
  triggers : List (Nat × Nat × Nat) := []
  /-- network time of the last TIME record (R340) -/
  lastTime : Nat := 0
  rxDropped : Nat := 0
  txAgain : Nat := 0
  /-- the 64 rotating journal summaries, the newest first: Move, tags of the four hosts, FLUSHED (R403, R462) -/
  summaries : List (Nat × List Nat × Bool) := []
  deriving DecidableEq, Repr

/-- An adjacency (R413). -/
structure Adj where
  up : Bool := false
  uid : BitVec 64 := 0
  nbr : BitVec 12 := 0
  idState : BitVec 2 := 0
  nbrPort : BitVec 5 := 0
  interval : Nat := 10
  /-- elapsed network time that the record of its last hello carries -/
  heard : Nat := 0
  deriving DecidableEq, Repr

/-- A hello or topology message that waits for a side to consume it (R431). -/
inductive FabIn where
  | hello (p : Nat) (x : Hello)
  | topo (p : Nat) (m : TopoMsg)
  deriving DecidableEq, Repr

/-- The fabric function, the route tables and the bypass outputs. -/
structure Fab where
  en : Bool := false
  given : Bool := false
  idState : Nat := 0
  nodeId : Nat := 0
  /-- hello intervals since the candidate was taken (R414) -/
  idAge : Nat := 0
  adjs : Tab Adj := []
  db : List TopoMsg := []
  /-- by origin, the elapsed network time that the record of its last new message carries (R417) -/
  dbAt : List (BitVec 64 × Nat) := []
  /-- hellos and topology messages received while no side consumed, oldest first, with the times of their records (R431) -/
  wait : List (FabIn × Stamp) := []
  topoSeq : BitVec 16 := 0
  topoDue : Bool := false
  tooMany : Bool := false
  routes : Tab (BitVec 64) := []
  force : BitVec 8 := 0
  fail : BitVec 8 := 0
  open_ : BitVec 8 := 0
  holdoff : BitVec 8 := 0
  /-- relayed-frame counts of the ingress ports (R109) -/
  relayNo : Tab Nat := []
  deriving DecidableEq, Repr

/-- A record of the store (R463). -/
structure Rec where
  seq : W32 := 0
  pwr : W32 := 0
  optime : Nat := 0
  sev : Nat := 0
  kind : Nat := 0
  payload : List Byte := []
  /-- it stands in the kept space (R461, R470) -/
  kept : Bool := false
  /-- both copies have an uncorrectable error (R473) -/
  damaged : Bool := false
  deriving DecidableEq, Repr

/-- One reader of the recorder (R471). -/
structure RecReader where
  source : Bool := false
  minSev : Nat := 0
  busy : Bool := false
  /-- what the load that runs was asked for: 0 cursor, 1 oldest, 2 newest -/
  ask : Nat := 0
  cursor : W32 := 0
  firstSeq : W32 := 0
  window : List Byte := []
  count : Nat := 0
  endFlag : Bool := false
  gap : Bool := false
  next : W32 := 0
  deriving DecidableEq, Repr

/-- The event recorder (R461 to R481). -/
structure Recorder where
  ready : Bool := false
  store : List Rec := []
  ring : List Rec := []
  /-- records offered to the write queue and not yet taken; records taken and not yet written -/
  offered : List RecIn := []
  queue : List Rec := []
  nextSeq : W32 := 0
  floor : W32 := 0
  fail0 : Bool := false
  fail1 : Bool := false
  cause0 : Nat := 0
  cause1 : Nat := 0
  volatile : Bool := false
  epochSaved : BitVec 16 := 0
  readers : Tab RecReader := []
  /-- the power-up record is due at the end of the rebuild: GLB_RESET_CAUSE at the release -/
  powerUp : Option W32 := some 1
  /-- the cold start was requested with tags held (R403) -/
  asked : Bool := false
  deriving DecidableEq, Repr

/-- One MSI-X coalescer and its table entry (R487, R488). PRESUMED, log entry 33. -/
structure Vec where
  pending : Nat := 0
  /-- of the triggers in PENDING, and of those that the Pending Bit stands for: one is of a source other than EVT_MSIX_BLOCKED (R488) -/
  plain : Bool := false
  pbaPlain : Bool := false
  masked : Bool := true
  pba : Bool := false
  addr : BitVec 64 := 0
  data : W32 := 0
  deriving DecidableEq, Repr

/-- Event status and the interrupt outputs (R482 to R493). Bit s of a copy is source s. -/
structure Evt where
  h0 : BitVec 256 := 0
  h1 : BitVec 256 := 0
  h2 : BitVec 256 := 0
  h3 : BitVec 256 := 0
  fw : BitVec 256 := 0
  pin : BitVec 256 := 0
  /-- a pulse runs on EVENT_N (R491) -/
  pulse : Bool := false
  /-- coalescers and table entries, keyed host × 64 + vector -/
  vecs : Tab Vec := []
  deriving DecidableEq, Repr

/-- The MSI-X capability of a host port (R526). -/
structure MsixCap where
  tableSize : BitVec 11 := 63
  tableBir : BitVec 3 := 4
  tableAt : Nat := 0
  pbaBir : BitVec 3 := 4
  pbaAt : Nat := 0x8000
  deriving DecidableEq, Repr

/-- What the configuration space of a host port names, the Vendor ID aside, which the part fixes (R526). -/
structure Ident where
  deviceId : BitVec 16 := 0x5120
  classCode : BitVec 24 := 0x020000
  revision : BitVec 8 := 1
  msix : MsixCap := {}
  deriving DecidableEq, Repr

/-- A host port's PCI Express link and configuration space (R17, R517, R518). -/
structure Link where
  up : Bool := false
  ident : Ident := {}
  cfg : PcieCtl := {}
  bars : Bars := {}
  deriving DecidableEq, Repr

/-- One DDR5 channel: module found, trained, capacity, ranks, rate. DESIGN CHOICE, log entry 35. -/
structure Ddr where
  present : Bool := false
  trained : Bool := false
  capGib : Nat := 0
  ranks : Nat := 0
  speed : Nat := 0
  /-- it is in self-refresh after a flush (R401), and full training has stored new values (R377, R400) -/
  selfRefresh : Bool := false
  stored : Nat := 0
  deriving DecidableEq, Repr

/-- Modes, start, pins, power, clocks, temperature (chapters 14, 17, 18, 19). -/
structure Glb where
  mode : Nat := 1
  prev : Nat := 0
  startBusy : Bool := true
  startKind : Nat := 1
  startBegan : Nat := 0
  startTime : Nat := 0
  cfgIndex : Nat := 0xFFFF
  /-- the configuration load: next item; whether it runs -/
  cfgNext : Nat := 0
  cfgLoad : Bool := false
  resetCause : W32 := 1
  safeCause : BitVec 5 := 0
  /-- mode 11 was held when a warm start began; HOLD_N request that waits for a marker -/
  fromSafe : Bool := false
  holdReq : Bool := false
  /-- SIDE_FAULT came with the Flag Fall of a side whose pin is low (R554) -/
  safePin : Bool := false
  /-- the mode, 3 or 4, that the end of the Castling that runs enters (R435) -/
  castleMode : Option Nat := none
  /-- operating time at which Time Acquisition began (R443) -/
  acqFrom : Nat := 0
  locked : Bool := true
  privCopy : Nat := 0
  porst : Bool := true
  rstW : Bool := true
  rstB : Bool := true
  holdN : Bool := true
  /-- ALARM_N causes: 0 rim clock, 1 TMR, 2 START_FAIL, 3 Safe-Hold fault, 4 AUTO_MAX, 5 recorder -/
  alarm : BitVec 6 := 0
  therm : Bool := true
  tempW : BitVec 16 := 0
  tempB : BitVec 16 := 0
  tempRim : BitVec 16 := 0
  feedA : Bool := true
  feedB : Bool := true
  selCore : Nat := 3
  selSram : Nat := 3
  selIo : Nat := 3
  ref0 : Bool := true
  ref1 : Bool := true
  qual0 : Bool := true
  qual1 : Bool := true
  refSel : Bool := false
  /-- every island clock has lost lock with both references (R513); a release of PORST_N is held for want of a reference (R515) -/
  noClock : Bool := false
  relHeld : Bool := false
  lockTime : Bool := false
  lockField : Bool := false
  lockBuf : Bool := false
  lockHost : Bool := false
  lockCoreW : Bool := false
  lockSchW : Bool := false
  lockCoreB : Bool := false
  lockSchB : Bool := false
  tacqDone : Bool := false
  deriving DecidableEq, Repr

/-- The whole part, and the commands that wait, first in first out. -/
structure State where
  /-- stored RW and RWL fields by register address; a register that is not listed holds its reset value -/
  regs : Tab W32 := []
  /-- clear-on-read counters, keyed register address × 32 + lowest bit (R530) -/
  ctrs : Tab Five := []
  /-- firmware deltas of the port counters as they stood at the last commit (R278) -/
  snap : Tab Nat := []
  /-- firmware reads of port counters whose Move is not committed: Move, counter key, value returned (R278) -/
  fwRead : List (Nat × Nat × Nat) := []
  /-- LO and HI latches, keyed reader × 2^32 + address of the latched word (R531) -/
  latch : Tab W32 := []
  /-- what each reader's last register read returned -/
  rdData : Tab W32 := []
  glb : Glb := {}
  time : Time := {}
  ptp : Ptp := {}
  cmd : Cmd := {}
  que : Que := {}
  dma : Dma := {}
  sch : Sch := {}
  gate : Tab GateP := []
  port : Tab PortSt := []
  strm : Strm := {}
  fld : Fld := {}
  sides : Sides := {}
  jrn : Jrn := {}
  fab : Fab := {}
  recd : Recorder := {}
  evt : Evt := {}
  pcie : Tab Link := []
  flashW : Flash := {}
  flashB : Flash := {}
  ddrW : Ddr := {}
  ddrB : Ddr := {}
  /-- bytes of the packet buffer held by frames and payloads that the part sends -/
  txHeld : Nat := 0
  /-- the model's own: how many free values have been drawn (see Config) -/
  free : Nat := 0
  bus : List Tlp := []
  pending : List Instr := []
  deriving DecidableEq, Repr

/-- The part right after the release of PORST_N with HOLD_N high: every field at its reset value. -/
def State.reset : State := {}

end Sys2Proof.Machine
end

