-- ==== Sys2Proof/Machine/Flags.lean ====
section
/-!
DEFINITION. Machine/Flags.lean: the status codes of R61, their order under R62 and R136, and the event sources of R482.
-/

namespace Sys2Proof.Machine

/-! ### Status codes (R61) -/

abbrev stOk : Nat := 0x00
abbrev stBadOpcode : Nat := 0x01
abbrev stBadParam : Nat := 0x02
abbrev stRange : Nat := 0x03
abbrev stState : Nat := 0x04
abbrev stBusy : Nat := 0x05
abbrev stNoResource : Nat := 0x06
abbrev stDenied : Nat := 0x07
abbrev stWindow : Nat := 0x08
abbrev stExpired : Nat := 0x09
abbrev stResetAbort : Nat := 0x0A
abbrev stIntegrity : Nat := 0x0B
abbrev stBusError : Nat := 0x0C
abbrev stStale : Nat := 0x0D
abbrev stTimeout : Nat := 0x0E

/-- A fault found in a command or an entry: its place in the order of R62 (R136), its status, and the offset of the
field at fault (0xFFFF for none, R59). -/
structure Finding where
  rank : Nat
  status : Nat
  off : Nat := 0xFFFF
  deriving DecidableEq, Repr

abbrev fOpcode : Finding := { rank := 1, status := stBadOpcode, off := 0 }
abbrev fDenied : Finding := { rank := 2, status := stDenied }
/-- A field that is malformed. -/
abbrev fParam (off : Nat) : Finding := { rank := 3, status := stBadParam, off := off }
/-- A field outside its limit. -/
abbrev fRange (off : Nat) : Finding := { rank := 4, status := stRange, off := off }
abbrev fState : Finding := { rank := 5, status := stState }
/-- The object that the field at `off` names is in the wrong state. -/
abbrev fStateAt (off : Nat) : Finding := { rank := 5, status := stState, off := off }
abbrev fBusy : Finding := { rank := 6, status := stBusy }
/-- The object that the field at `off` names is in use. -/
abbrev fBusyAt (off : Nat) : Finding := { rank := 6, status := stBusy, off := off }
abbrev fStale : Finding := { rank := 7, status := stStale, off := 0x0C }
abbrev fNoResource : Finding := { rank := 8, status := stNoResource }
abbrev fWindow : Finding := { rank := 9, status := stWindow }
abbrev fBusError : Finding := { rank := 10, status := stBusError }
abbrev fIntegrity : Finding := { rank := 11, status := stIntegrity }
abbrev fAuth : Finding := { rank := 12, status := stDenied }

/-- A finding where a condition holds. -/
def when (c : Bool) (f : Finding) : List Finding := if c then [f] else []

/-- `a` comes before `b`: the order of R62, then the first field. DESIGN CHOICE, log entry 9. -/
def Finding.before (a b : Finding) : Bool := a.rank < b.rank || (a.rank == b.rank && a.off < b.off)

/-- The fault that is reported: the first of R62's order, at its first field. -/
def worst : List Finding → Option Finding
  | [] => none
  | f :: fs => match worst fs with
    | none => some f
    | some g => if g.before f then some g else some f

/-! ### Event sources (R482) -/

abbrev evModeChange : Nat := 0
abbrev evStartFail : Nat := 1
abbrev evTacqTimeout : Nat := 2
abbrev evSafeHold : Nat := 3
abbrev evClkRimUnlock : Nat := 4
abbrev evFeedALoss : Nat := 5
abbrev evFeedBLoss : Nat := 6
abbrev evCmdRefused (n : Nat) : Nat := 7 + n
abbrev evCmdDenied (n : Nat) : Nat := 11 + n
abbrev evTmrFix : Nat := 15
abbrev evTmrFail : Nat := 16
abbrev evRefSwitch : Nat := 17
abbrev evDomainSwitch : Nat := 18
abbrev evHoldover : Nat := 19
abbrev evStepDone : Nat := 20
abbrev evPpsIn : Nat := 21
abbrev evTxtsOvf (p : Nat) : Nat := 22 + p
abbrev evDbErr (n : Nat) : Nat := 54 + n
abbrev evPushErr (n : Nat) : Nat := 58 + n
abbrev evCiErr (n : Nat) : Nat := 62 + n
abbrev evRxNobuf (n : Nat) : Nat := 66 + n
abbrev evCqOvf (n : Nat) : Nat := 70 + n
abbrev evCqFull (n : Nat) : Nat := 74 + n
abbrev evPoolStop : Nat := 78
abbrev evPchHalt : Nat := 79
abbrev evChainFault : Nat := 80
abbrev evDelayHigh : Nat := 81
abbrev evGateSwitch (p : Nat) : Nat := 82 + p
abbrev evGateExpired (p : Nat) : Nat := 114 + p
abbrev evGateMark : Nat := 146
abbrev evMmVerifyFail : Nat := 147
abbrev evMmAssyErr : Nat := 148
abbrev evLinkUp (p : Nat) : Nat := 149 + p
abbrev evLinkDown (p : Nat) : Nat := 181 + p
abbrev evInbandMismatch : Nat := 213
abbrev evPortRxOvf : Nat := 214
abbrev evRecalDone : Nat := 215
abbrev evFecUncorr : Nat := 216
abbrev evStrmBlocked : Nat := 217
abbrev evFrerReset : Nat := 218
abbrev evFrerRogue : Nat := 219
abbrev evFldRxOvf : Nat := 220
abbrev evFldTxOvf : Nat := 221
abbrev evFldTxBadimg : Nat := 222
abbrev evFldBusoff : Nat := 223
abbrev evPlcaLost : Nat := 224
abbrev evAggOverrun : Nat := 225
abbrev evAggShort : Nat := 226
abbrev evViofFault : Nat := 227
abbrev evFlagFall : Nat := 228
abbrev evClaimRefused : Nat := 229
abbrev evCastleDone : Nat := 230
abbrev evStFail : Nat := 231
abbrev evAutoReset : Nat := 232
abbrev evMlFail : Nat := 233
abbrev evLsEnter : Nat := 234
abbrev evLsMismatch : Nat := 235
abbrev evLsCheckDone : Nat := 236
abbrev evLsExit : Nat := 237
abbrev evJrnThrottle : Nat := 238
abbrev evSsFull : Nat := 239
abbrev evJrnDiverge : Nat := 240
abbrev evWorkLost : Nat := 241
abbrev evResyncDone : Nat := 242
abbrev evResyncAbort : Nat := 243
abbrev evAdjChange : Nat := 244
abbrev evIdChange : Nat := 245
abbrev evIdConflict : Nat := 246
abbrev evTooMany : Nat := 247
abbrev evBypFail : Nat := 248
abbrev evRecRefused : Nat := 249
abbrev evBankFail : Nat := 250
abbrev evRecLost : Nat := 251
abbrev evRecCleared : Nat := 252
abbrev evHostLink : Nat := 253
abbrev evMsixBlocked : Nat := 254
abbrev evTest : Nat := 255

end Sys2Proof.Machine
end

