-- ==== Sys2Proof/Config.lean ====
section
/-!
DEFINITION. Config.lean: what one part fixes (fuses) and the values the spec leaves open. Every constant here is
opaque: no proof can see its value, so a statement about it holds for every value.
-/

namespace Sys2Proof.Config

/-- The random source of R79, by draw. DESIGN CHOICE, log entry 51. -/
opaque nonceDraw : Nat → BitVec 64

/-- A byte of the destination of a COPY whose ranges overlap (R167: undefined), by draw. DESIGN CHOICE, log entry 52. -/
opaque overlapByte : Nat → Byte

/-- A byte of a field frame past the 112 data bytes of its transmit image (R343 gives none), by draw.
DESIGN CHOICE, log entry 29. -/
opaque imageByte : Nat → Byte

/-- The fused device identity (FAB_UID, R432). DESIGN CHOICE, log entry 50. -/
opaque uid : BitVec 64

/-- The Vendor ID assigned to Novivius (R526 names it without its number). DESIGN CHOICE, log entry 50. -/
opaque vendorId : BitVec 16

/-- CLK is present on a field port of role 1, or bus integration is done in role 2, at a tick of the reference clock: the port, the
tick. No input of the command table tells it (R347). DESIGN CHOICE, log entry 28. -/
opaque fldLink : Nat → Nat → Bool

/-- Bytes of a field frame that its bus ends early which channel 4 has not taken (R186, R330), by draw. DESIGN CHOICE, log entry
116. -/
opaque fldResidue : Nat → Nat

/-- REC of a field port after a good reception with REC above 127: the standard gives a range, not a value. PRESUMED, log entry 27. -/
opaque recAfter : Nat → Nat

/-- The source address of the frames that the part makes on a port, in wire order (the spec names none). -/
opaque stationMac : Nat → BitVec 48

/-- Fields of a time-sync message past its messageType, domain and sequenceId (IEEE 802.1AS gives them; the spec does not
state their values), by draw. PRESUMED, log entry 30. -/
opaque ptpBody : Nat → BitVec 512

/-- Octets of a frame that had arrived when its link went down, which no input tells, by draw. DESIGN CHOICE, log entry 95. -/
opaque cutOctets : Nat → Nat

/-- The fused minimum SVN of each side before any raise (R543, R544). -/
opaque svnFuse : SideId → BitVec 16

/-- PRESENT and REVOKED of the four root entries (R543, GLB_FW_KEYS): bits [3:0] and [7:4]. -/
opaque keyFuses : Byte

/-- The SHA-384 hash held by each root entry, its bytes read in order as one number (R543). -/
opaque rootHash : Fin 4 → BitVec 384

/-- Frequency of the reference not in use minus the one in use, in ppb, as the board has it at a reference-time tick
(GLB_CLK_DIFF). DESIGN CHOICE, log entry 54. -/
opaque clkDiff : Nat → W32

/-- GEN of a status packet whose opcode names no group (R59 gives no value). DESIGN CHOICE, log entry 53. -/
opaque undefinedGroupGen : BitVec 16 → W32

/-- The module that training finds on a side's DDR5 channel, as GLB_DDR_W and GLB_DDR_B show it (R519).
DEDUCED, log entry 42. -/
opaque ddrModule : SideId → W32

/-- State in use in MiB when a live copy begins (U of R406), by draw. DESIGN CHOICE, log entry 43. -/
opaque stateInUse : Nat → Nat

/-- The 16-bit health word of a heartbeat flit (R352 gives no layout), by draw. DESIGN CHOICE, log entry 119. -/
opaque healthWord : Nat → BitVec 16

/-- CRC-32C of the flits of a delta, by the sequence number of its marker's record (R386): the spec does not say which bytes the lines of
side state hold. DESIGN CHOICE, log entry 120. -/
opaque deltaCrc : Nat → W32

/-- How many of the records that wait in the write queue are still written when the rim loses both feeds (R467). DESIGN CHOICE, log entry
151. -/
opaque recKept : Nat → Nat

/-- The 128-byte lines of side state that the record of a sequence number changes, each a state region and a line of it: R384 counts
them, and the spec does not say in which line a piece of state lies. DESIGN CHOICE, log entry 99. -/
opaque dirtyLines : Nat → List (Nat × Nat)

end Sys2Proof.Config
end

