-- ==== Sys2Proof/Machine/Bits.lean ====
section
/-!
DEFINITION. Machine/Bits.lean: bit fields, byte order, index arithmetic, CRC-32C and sparse tables.
-/

namespace Sys2Proof.Machine

/-- Bits `lo` and up of `n`, `w` of them. -/
def bitsN (n lo w : Nat) : Nat := (n >>> lo) % 2 ^ w

/-- Bit `i` of `n`. -/
def bitN (n i : Nat) : Bool := n.testBit i

/-- A flag as a number. -/
def b2n (b : Bool) : Nat := if b then 1 else 0

/-- `n` placed as a field of width `w` at bit `lo`. -/
def fieldAt (n lo w : Nat) : Nat := (n % 2 ^ w) <<< lo

/-- `n` in `w` bits read as a signed value. -/
def signedN (n w : Nat) : Int :=
  let m := n % 2 ^ w
  if m < 2 ^ (w - 1) then (m : Int) else (m : Int) - (2 ^ w : Nat)

/-- A signed value in `w` bits of two's complement. -/
def twosN (i : Int) (w : Nat) : Nat := (i % ((2 ^ w : Nat) : Int)).toNat

/-- A 32-bit word from a number. -/
def w32 (n : Nat) : W32 := BitVec.ofNat 32 n

/-- Byte `i` of a list, 0 past its end. -/
def byteAt (l : List Byte) (i : Nat) : Nat := (l.getD i 0).toNat

/-- Little-endian value of a byte list (R12). -/
def leVal : List Byte → Nat
  | [] => 0
  | b :: bs => b.toNat + 256 * leVal bs

/-- Big-endian value of a byte list (network order). -/
def beVal (l : List Byte) : Nat := leVal l.reverse

/-- `k` bytes of `n`, little-endian. -/
def leBytes (n : Nat) : Nat → List Byte
  | 0 => []
  | k + 1 => BitVec.ofNat 8 n :: leBytes (n / 256) k

/-- `k` bytes of `n`, network order. -/
def beBytes (n k : Nat) : List Byte := (leBytes n k).reverse

/-- `n` bytes of `l` from offset `off`. -/
def slice (l : List Byte) (off n : Nat) : List Byte := (l.drop off).take n

/-- Little-endian field of `n` bytes at `off`. -/
def leAt (l : List Byte) (off n : Nat) : Nat := leVal (slice l off n)

/-- Network-order field of `n` bytes at `off`. -/
def beAt (l : List Byte) (off n : Nat) : Nat := beVal (slice l off n)

/-- `l` with the bytes `v` written at `off` (unchanged where `v` would run past its end). -/
def patch (l : List Byte) (off : Nat) (v : List Byte) : List Byte :=
  if off + v.length ≤ l.length then l.take off ++ v ++ l.drop (off + v.length) else l

/-- `l` padded with zero bytes to `n`. -/
def padTo (l : List Byte) (n : Nat) : List Byte := l ++ List.replicate (n - l.length) 0

/-- Quotient rounded up. -/
def divUp (a b : Nat) : Nat := (a + b - 1) / b

/-- dist(a, b) = (a − b) mod 2^16 (R120). -/
def dist (a b : Idx) : Nat := (a - b).toNat

/-- Serial-number order of 16-bit numbers: `a` is newer than `b`. -/
def newer16 (a b : BitVec 16) : Bool := a != b && (a - b).toNat < 2 ^ 15

/-- Serial-number order of 32-bit numbers: `a` is newer than `b`. -/
def newer32 (a b : W32) : Bool := a != b && (a - b).toNat < 2 ^ 31

/-- One bit step of the reflected CRC-32C register. -/
def crcBit (c : Nat) : Nat := if c % 2 = 1 then (c / 2) ^^^ 0x82F63B78 else c / 2

/-- CRC-32C register after a byte. -/
def crcByte (c : Nat) (b : Byte) : Nat :=
  crcBit (crcBit (crcBit (crcBit (crcBit (crcBit (crcBit (crcBit (c ^^^ b.toNat))))))))

/-- CRC-32C (Castagnoli) of a byte list (R56). -/
def crc32c (l : List Byte) : Nat := (l.foldl crcByte 0xFFFFFFFF) ^^^ 0xFFFFFFFF

/-- A parameter of a command packet: `n` bytes at packet offset `off`, from 0x10 (R53). -/
def par (p : Packet) (off n : Nat) : Nat := bitsN p.param.toNat (8 * (off - 16)) (8 * n)

/-- The bytes of the parameter area from packet offset `off`. -/
def parBytes (p : Packet) (off n : Nat) : List Byte := leBytes (par p off n) n

/-- The command packet spelled by 64 bytes (R53). -/
def packetOf (l : List Byte) : Packet :=
  { opcode := BitVec.ofNat 16 (leAt l 0 2), flags := BitVec.ofNat 16 (leAt l 2 2), tag := w32 (leAt l 4 4)
    plen := BitVec.ofNat 16 (leAt l 8 2), rsv := BitVec.ofNat 16 (leAt l 10 2), expGen := w32 (leAt l 12 4)
    param := BitVec.ofNat 384 (leAt l 16 48) }

/-- Look a key up. -/
def tfind {α : Type} : Tab α → Nat → Option α
  | [], _ => none
  | (k, v) :: t, i => if k = i then some v else tfind t i

/-- The value at a key, `d` where none is listed. -/
def tget {α : Type} (d : α) (t : Tab α) (i : Nat) : α := (tfind t i).getD d

/-- Remove a key. -/
def tdel {α : Type} : Tab α → Nat → Tab α
  | [], _ => []
  | (k, v) :: t, i => if k = i then tdel t i else (k, v) :: tdel t i

/-- List a value at a key, keeping the keys rising. -/
def tset {α : Type} : Tab α → Nat → α → Tab α
  | [], i, x => [(i, x)]
  | (k, v) :: t, i, x =>
    if i < k then (i, x) :: (k, v) :: t
    else if k = i then (i, x) :: t
    else (k, v) :: tset t i x

/-- Store a value at a key of a table whose default is `d`: the default is not listed. -/
def tput {α : Type} [DecidableEq α] (d : α) (t : Tab α) (i : Nat) (x : α) : Tab α :=
  if x = d then tdel t i else tset t i x

/-- The byte at an address of a memory whose unlisted bytes read `d`. -/
def readCell (d : Byte) (m : List Host.Cell) (a : Nat) : Byte := tget d m a

/-- Write one byte, keeping the canonical form. -/
def writeCell (d : Byte) (m : List Host.Cell) (a : Nat) (b : Byte) : List Host.Cell := tput d m a b

/-- Write consecutive bytes. -/
def writeCells (d : Byte) : List Host.Cell → Nat → List Byte → List Host.Cell
  | m, _, [] => m
  | m, a, b :: bs => writeCells d (writeCell d m a b) (a + 1) bs

/-- Read `n` consecutive bytes. -/
def readCells (d : Byte) (m : List Host.Cell) (a : Nat) : Nat → List Byte
  | 0 => []
  | n + 1 => readCell d m a :: readCells d m (a + 1) n

/-! ### FCS (R14) -/

/-- One bit step of the reflected CRC-32 register of IEEE 802.3. -/
def fcsBit (c : Nat) : Nat := if c % 2 = 1 then (c / 2) ^^^ 0xEDB88320 else c / 2

/-- The register after a byte. -/
def fcsByte (c : Nat) (b : Byte) : Nat :=
  fcsBit (fcsBit (fcsBit (fcsBit (fcsBit (fcsBit (fcsBit (fcsBit (c ^^^ b.toNat))))))))

/-- The FCS of a frame, as it stands on the wire. -/
def fcsOf (l : List Byte) : List Byte := leBytes ((l.foldl fcsByte 0xFFFFFFFF) ^^^ 0xFFFFFFFF) 4

end Sys2Proof.Machine
end

