-- ==== Sys2Proof/Machine/RegMap.lean ====
section
/-!
DEFINITION. Machine/RegMap.lean: the register map of BAR0 (R527, R538), one row per named register or register array
with the fields that software writes and the fields that a read clears. The register chapters give every row.
-/

namespace Sys2Proof.Machine

/-- The named registers of BAR0 (R538). -/
inductive Reg where
  | sideGatedWr
  | sideIslandLock
  | cmdAsqBaseLo
  | cmdAsqBaseHi
  | cmdAcqBaseLo
  | cmdAcqBaseHi
  | cmdAqCfg
  | cmdPerm
  | cmdAqCnt
  | cmdAqLast
  | cmdReady
  | cmdPriv
  | cmdGen
  | timeCfg
  | timeStatus
  | timeNowLo
  | timeNowHi
  | timeNowEpoch
  | timeAdj
  | timeOptimeLo
  | timeOptimeHi
  | timePwrCycles
  | timeTmrCnt
  | timePpsInLo
  | timePpsInHi
  | timePpsInEpoch
  | timeDomCfg
  | timeDomStat
  | timeDomOffset
  | timeDomRate
  | timePtpPort
  | timePortCorrEgr
  | timePortCorrIng
  | timeTxtsCfg
  | timeTxtsStat
  | timeTxtsPop0
  | timeTxtsPop1
  | timeTxtsPop2
  | timeTxtsPop3
  | timeTxtsLost
  | queHostQuota
  | queHostTags
  | queHostPorts
  | queHostErr
  | queHostCiErr
  | queTagsFree
  | queSqCfg
  | queSqStat
  | queSqRxnobuf
  | queCqCfg
  | queCqStat
  | queCqResv
  | dmaPoolCfg
  | dmaPoolCtl
  | dmaPoolStat
  | dmaPoolStops
  | dmaPoolErrLo
  | dmaPoolErrHi
  | dmaPoolErrInfo
  | dmaPoolCand
  | dmaXhostGrant
  | dmaPchErrLo
  | dmaPchErrHi
  | dmaPchErrInfo
  | dmaChStat
  | dmaChPos
  | dmaChOwner
  | dmaChResid
  | schStatus
  | schPortCfg
  | schClassCfg
  | schClassStat
  | schClassVtLo
  | schClassVtHi
  | schFlowCfg
  | schFlowRate
  | schFlowBurst
  | schFlowOvh
  | schFlowCreditLo
  | schFlowCreditHi
  | schFlowTagLo
  | schFlowTagHi
  | schFlowDepth
  | schFlowDepthKb
  | schFlowMaxdepth
  | schFlowStaged
  | schMonCfg
  | schMonThresh
  | schMonMaxdelay
  | schMonOver
  | schMonFrames
  | schMonDbin
  | schMonQbin
  | gateStatus
  | gateCycle
  | gateEntries
  | gateMidnightLo
  | gateMidnightHi
  | gateSwitchLo
  | gateSwitchHi
  | gateClassCfg
  | gateMaxHold
  | gateDuskCfg
  | gateMmCfg
  | gateSegCfg
  | gateMmStat
  | gateCntFragTx
  | gateCntFragRx
  | gateCntAssyErr
  | gateCntSmdErr
  | gateCntCloseCut
  | gateCntWaited
  | gateCntExpired
  | gateCntMark
  | gateTapeRunW0
  | gateTapeRunW1
  | gateTapePendW0
  | gateTapePendW1
  | portCfg
  | portStatus
  | portPcsCfg
  | portSerdesCfg
  | portRxCfg
  | portRxDefault
  | portBufCfg
  | portBufStat
  | portEeeCfg
  | portEeeIdle
  | portEeeStat
  | portInbandStat
  | portRecalStat
  | portFilterW0
  | portFilterW1
  | portCntLo
  | portCntHi
  | strmStatus
  | strmHStat
  | strmHMatch
  | strmHPass
  | strmHSduDrop
  | strmHGateDrop
  | strmHRed
  | strmHYellow
  | strmHBlkDrop
  | strmMCfg
  | strmMCir
  | strmMEir
  | strmMCbs
  | strmMEbs
  | strmMTc
  | strmMTe
  | strmGCfg
  | strmGSeq
  | strmGCount
  | strmGSkip
  | strmRCfg
  | strmRState
  | strmRPassed
  | strmRDiscarded
  | strmROutOfOrder
  | strmRRogue
  | strmRLost
  | strmRTagless
  | strmRResets
  | strmIdEntry
  | fldPortCfg
  | fldPortSetw
  | fldPortStat
  | fldPortErr
  | fldTxqEnq
  | fldCnt
  | fldBankStat
  | fldBufCfg
  | fldBufStat
  | fldAggCfg
  | fldAggRuns
  | fldAggOverrun
  | fldAggFault
  | fldAggShort
  | fldAggQfull
  | fldImg
  | sideStatus
  | sideAlive
  | sideCfg
  | sideMoveW
  | sideMoveB
  | sideCastleCnt
  | sideFlagCnt
  | sideClaimCnt
  | sideLastIntr
  | sideLastGrantLo
  | sideLastGrantHi
  | sideLsStat
  | sideStStat
  | sideMlStat
  | sideJrnCfg
  | sideJrnDelta
  | sideJrnThrottle
  | sideJrnReplay
  | sideJrnSs
  | sideJrnWarm
  | sideResyncStat
  | sideResyncInuse
  | sideResyncCopied
  | sideResyncDirty
  | sideResyncDirtied
  | sideResyncCnt
  | sideResyncLast
  | fabCfg
  | fabPorts
  | fabUidLo
  | fabUidHi
  | fabStatus
  | fabLocal
  | fabRelayCfg
  | fabBypCfg
  | fabBypStat
  | fabBypFailCnt
  | fabPortCtl
  | fabCntRelayed
  | fabCntCut
  | fabCntNoroute
  | fabCntHops
  | fabCntStomp
  | fabCntDrop
  | fabCntSecFallback
  | fabTopoStat
  | fabAdj
  | fabRouteW0
  | fabRouteW1
  | glbMode
  | glbStartCfg
  | glbStartStat
  | glbStartTime
  | glbResetCause
  | glbSafeCause
  | glbAutoResetCnt
  | glbLastCommit
  | glbPinStat
  | recStatus
  | recFill
  | recCount
  | recCritFill
  | recOldest
  | recNext
  | recRefused
  | recOverwritten
  | recBankStat
  | recVolFill
  | recCursor
  | recRdCfg
  | recWinStat
  | recWinNext
  | recWin
  | evtStat
  | evtPinStat
  | evtPinEn
  | evtPinCfg
  | evtTest
  | evtHostLink
  | evtBlocked
  | evtRoute
  | evtCoal
  | glbPwrStat
  | glbPwrSel
  | glbPwrCnt
  | glbClkCfg
  | glbClkStat
  | glbClkDiff
  | glbThermW
  | glbThermB
  | glbThermRim
  | glbThermCfg
  | glbDdrW
  | glbDdrB
  | glbDdrEccW
  | glbDdrEccB
  | glbDdrUsable
  | glbId
  | glbReader
  | glbLock
  | glbHostPerm
  | glbAccErr
  | glbFwRun
  | glbFwSlot
  | glbFwInfo
  | glbFwSvnMin
  | glbFwKeys
  deriving DecidableEq, Repr

/-- One register or register array: its first address, its array dimensions (count and stride), the masks of its RW,
RWL and W1C fields, its RC fields (lowest bit and width), and the reset value of its RW and RWL fields. -/
structure RegRow where
  reg : Reg
  base : Nat
  dims : List (Nat × Nat)
  rw : W32 := 0
  rwl : W32 := 0
  w1c : W32 := 0
  rc : List (Nat × Nat) := []
  reset : W32 := 0
  deriving DecidableEq, Repr

/-- Registers of chapter 01. -/
def regsSide01 : List RegRow := [
  { reg := .sideGatedWr, base := 0x1C00080, dims := [], rc := [(16, 16), (0, 16)] },
  { reg := .sideIslandLock, base := 0x1C00084, dims := [] }]

/-- Registers of chapter 02. -/
def regsCmd02 : List RegRow := [
  { reg := .cmdAsqBaseLo, base := 0x100000, dims := [(4, 0x100)], rw := 0xFFFFF000#32 },
  { reg := .cmdAsqBaseHi, base := 0x100004, dims := [(4, 0x100)], rw := 0xFFFFFFFF#32 },
  { reg := .cmdAcqBaseLo, base := 0x100008, dims := [(4, 0x100)], rw := 0xFFFFF000#32 },
  { reg := .cmdAcqBaseHi, base := 0x10000C, dims := [(4, 0x100)], rw := 0xFFFFFFFF#32 },
  { reg := .cmdAqCfg, base := 0x100010, dims := [(4, 0x100)], rw := 0x803F0F0F#32, reset := 0x404#32 },
  { reg := .cmdPerm, base := 0x100014, dims := [(4, 0x100)], rwl := 0x3FF#32, reset := 0x3FF#32 },
  { reg := .cmdAqCnt, base := 0x100018, dims := [(4, 0x100)], rc := [(16, 16), (0, 16)] },
  { reg := .cmdAqLast, base := 0x10001C, dims := [(4, 0x100)] },
  { reg := .cmdReady, base := 0x100400, dims := [] },
  { reg := .cmdPriv, base := 0x100404, dims := [], rwl := 0x3#32 },
  { reg := .cmdGen, base := 0x100440, dims := [(10, 0x4)] }]

/-- Registers of chapter 03. -/
def regsTime03 : List RegRow := [
  { reg := .timeCfg, base := 0x200000, dims := [], rwl := 0xFFFFFF01#32, reset := 0x3E80A00#32 },
  { reg := .timeStatus, base := 0x200004, dims := [] },
  { reg := .timeNowLo, base := 0x200010, dims := [] },
  { reg := .timeNowHi, base := 0x200014, dims := [] },
  { reg := .timeNowEpoch, base := 0x200018, dims := [] },
  { reg := .timeAdj, base := 0x20001C, dims := [] },
  { reg := .timeOptimeLo, base := 0x200020, dims := [] },
  { reg := .timeOptimeHi, base := 0x200024, dims := [] },
  { reg := .timePwrCycles, base := 0x200028, dims := [] },
  { reg := .timeTmrCnt, base := 0x200030, dims := [], rc := [(0, 16)] },
  { reg := .timePpsInLo, base := 0x200040, dims := [] },
  { reg := .timePpsInHi, base := 0x200044, dims := [] },
  { reg := .timePpsInEpoch, base := 0x200048, dims := [], rc := [(31, 1)] },
  { reg := .timeDomCfg, base := 0x200060, dims := [(2, 0x10)], rw := 0xFFF000#32, reset := 0x30D000#32 },
  { reg := .timeDomStat, base := 0x200064, dims := [(2, 0x10)] },
  { reg := .timeDomOffset, base := 0x200068, dims := [(2, 0x10)] },
  { reg := .timeDomRate, base := 0x20006C, dims := [(2, 0x10)] },
  { reg := .timePtpPort, base := 0x200400, dims := [(32, 0x4)], rw := 0x303#32 },
  { reg := .timePortCorrEgr, base := 0x200800, dims := [(32, 0x8)], rw := 0xFFFF#32 },
  { reg := .timePortCorrIng, base := 0x200804, dims := [(32, 0x8)], rw := 0xFFFF#32 },
  { reg := .timeTxtsCfg, base := 0x201000, dims := [(32, 0x20)], rw := 0x7#32, reset := 0x4#32 },
  { reg := .timeTxtsStat, base := 0x201004, dims := [(32, 0x20)], w1c := 0x80000000#32 },
  { reg := .timeTxtsPop0, base := 0x201008, dims := [(32, 0x20)] },
  { reg := .timeTxtsPop1, base := 0x20100C, dims := [(32, 0x20)] },
  { reg := .timeTxtsPop2, base := 0x201010, dims := [(32, 0x20)] },
  { reg := .timeTxtsPop3, base := 0x201014, dims := [(32, 0x20)] },
  { reg := .timeTxtsLost, base := 0x201018, dims := [(32, 0x20)], rc := [(0, 32)] }]

/-- Registers of chapter 04. -/
def regsQue04 : List RegRow := [
  { reg := .queHostQuota, base := 0x400000, dims := [(4, 0x40)] },
  { reg := .queHostTags, base := 0x400004, dims := [(4, 0x40)] },
  { reg := .queHostPorts, base := 0x400008, dims := [(4, 0x40)], rwl := 0xFFFFFFFF#32, reset := 0xFFFFFFFF#32 },
  { reg := .queHostErr, base := 0x40000C, dims := [(4, 0x40)], rc := [(16, 16), (0, 16)] },
  { reg := .queHostCiErr, base := 0x400010, dims := [(4, 0x40)], rc := [(16, 16), (0, 16)] },
  { reg := .queTagsFree, base := 0x400100, dims := [] },
  { reg := .queSqCfg, base := 0x410000, dims := [(4, 0x4000), (1024, 0x10)] },
  { reg := .queSqStat, base := 0x410004, dims := [(4, 0x4000), (1024, 0x10)] },
  { reg := .queSqRxnobuf, base := 0x410008, dims := [(4, 0x4000), (1024, 0x10)], rc := [(0, 32)] },
  { reg := .queCqCfg, base := 0x420000, dims := [(4, 0x4000), (1024, 0x10)] },
  { reg := .queCqStat, base := 0x420004, dims := [(4, 0x4000), (1024, 0x10)] },
  { reg := .queCqResv, base := 0x420008, dims := [(4, 0x4000), (1024, 0x10)] }]

/-- Registers of chapter 05. -/
def regsDma05 : List RegRow := [
  { reg := .dmaPoolCfg, base := 0x800000, dims := [], rwl := 0xFFFF000F#32, reset := 0xAA00001#32 },
  { reg := .dmaPoolCtl, base := 0x800004, dims := [] },
  { reg := .dmaPoolStat, base := 0x800008, dims := [] },
  { reg := .dmaPoolStops, base := 0x80000C, dims := [], rc := [(0, 16)] },
  { reg := .dmaPoolErrLo, base := 0x800010, dims := [] },
  { reg := .dmaPoolErrHi, base := 0x800014, dims := [] },
  { reg := .dmaPoolErrInfo, base := 0x800018, dims := [] },
  { reg := .dmaPoolCand, base := 0x800020, dims := [(4, 0x4)] },
  { reg := .dmaXhostGrant, base := 0x800040, dims := [(4, 0x4)], rwl := 0xF#32 },
  { reg := .dmaPchErrLo, base := 0x800100, dims := [(8, 0x10)] },
  { reg := .dmaPchErrHi, base := 0x800104, dims := [(8, 0x10)] },
  { reg := .dmaPchErrInfo, base := 0x800108, dims := [(8, 0x10)], w1c := 0x80000000#32 },
  { reg := .dmaChStat, base := 0x801000, dims := [(128, 0x10)] },
  { reg := .dmaChPos, base := 0x801004, dims := [(128, 0x10)] },
  { reg := .dmaChOwner, base := 0x801008, dims := [(128, 0x10)] },
  { reg := .dmaChResid, base := 0x80100C, dims := [(128, 0x10)], rc := [(31, 1)] }]

/-- Registers of chapter 06. -/
def regsSch06 : List RegRow := [
  { reg := .schStatus, base := 0xA00000, dims := [] },
  { reg := .schPortCfg, base := 0xA00800, dims := [(32, 0x4)], rw := 0x7#32, reset := 0x7#32 },
  { reg := .schClassCfg, base := 0xA01000, dims := [(32, 0x100), (8, 0x20)], rw := 0x1F#32, reset := 0x10#32 },
  { reg := .schClassStat, base := 0xA01004, dims := [(32, 0x100), (8, 0x20)] },
  { reg := .schClassVtLo, base := 0xA01008, dims := [(32, 0x100), (8, 0x20)] },
  { reg := .schClassVtHi, base := 0xA0100C, dims := [(32, 0x100), (8, 0x20)] },
  { reg := .schFlowCfg, base := 0xA10000, dims := [(8192, 0x40)] },
  { reg := .schFlowRate, base := 0xA10004, dims := [(8192, 0x40)] },
  { reg := .schFlowBurst, base := 0xA10008, dims := [(8192, 0x40)] },
  { reg := .schFlowOvh, base := 0xA1000C, dims := [(8192, 0x40)] },
  { reg := .schFlowCreditLo, base := 0xA10010, dims := [(8192, 0x40)] },
  { reg := .schFlowCreditHi, base := 0xA10014, dims := [(8192, 0x40)] },
  { reg := .schFlowTagLo, base := 0xA10018, dims := [(8192, 0x40)] },
  { reg := .schFlowTagHi, base := 0xA1001C, dims := [(8192, 0x40)] },
  { reg := .schFlowDepth, base := 0xA10020, dims := [(8192, 0x40)] },
  { reg := .schFlowDepthKb, base := 0xA10024, dims := [(8192, 0x40)] },
  { reg := .schFlowMaxdepth, base := 0xA10028, dims := [(8192, 0x40)], rc := [(0, 18)] },
  { reg := .schFlowStaged, base := 0xA1002C, dims := [(8192, 0x40)], rc := [(0, 32)] },
  { reg := .schMonCfg, base := 0xA04000, dims := [(64, 0x100)], rw := 0xFFFFE000#32 },
  { reg := .schMonThresh, base := 0xA04004, dims := [(64, 0x100)], rw := 0xFFFFFFFF#32 },
  { reg := .schMonMaxdelay, base := 0xA04008, dims := [(64, 0x100)], rc := [(0, 32)] },
  { reg := .schMonOver, base := 0xA0400C, dims := [(64, 0x100)], rc := [(0, 32)] },
  { reg := .schMonFrames, base := 0xA04010, dims := [(64, 0x100)], rc := [(0, 32)] },
  { reg := .schMonDbin, base := 0xA04040, dims := [(64, 0x100), (16, 0x4)], rc := [(0, 32)] },
  { reg := .schMonQbin, base := 0xA04080, dims := [(64, 0x100), (16, 0x4)], rc := [(0, 32)] }]

/-- Registers of chapter 07. -/
def regsGate07 : List RegRow := [
  { reg := .gateStatus, base := 0xC00000, dims := [(32, 0x10000)] },
  { reg := .gateCycle, base := 0xC00004, dims := [(32, 0x10000)] },
  { reg := .gateEntries, base := 0xC00008, dims := [(32, 0x10000)] },
  { reg := .gateMidnightLo, base := 0xC00010, dims := [(32, 0x10000)] },
  { reg := .gateMidnightHi, base := 0xC00014, dims := [(32, 0x10000)] },
  { reg := .gateSwitchLo, base := 0xC00018, dims := [(32, 0x10000)] },
  { reg := .gateSwitchHi, base := 0xC0001C, dims := [(32, 0x10000)] },
  { reg := .gateClassCfg, base := 0xC00020, dims := [(32, 0x10000)] },
  { reg := .gateMaxHold, base := 0xC00040, dims := [(32, 0x10000), (8, 0x4)] },
  { reg := .gateDuskCfg, base := 0xC00060, dims := [(32, 0x10000)], rwl := 0xFFFF#32 },
  { reg := .gateMmCfg, base := 0xC00064, dims := [(32, 0x10000)], rwl := 0xFFFFF0F#32, reset := 0xA02#32 },
  { reg := .gateSegCfg, base := 0xC00068, dims := [(32, 0x10000)], rwl := 0x73FFF#32, reset := 0x40#32 },
  { reg := .gateMmStat, base := 0xC00070, dims := [(32, 0x10000)] },
  { reg := .gateCntFragTx, base := 0xC00080, dims := [(32, 0x10000)], rc := [(0, 32)] },
  { reg := .gateCntFragRx, base := 0xC00084, dims := [(32, 0x10000)], rc := [(0, 32)] },
  { reg := .gateCntAssyErr, base := 0xC00088, dims := [(32, 0x10000)], rc := [(0, 32)] },
  { reg := .gateCntSmdErr, base := 0xC0008C, dims := [(32, 0x10000)], rc := [(0, 32)] },
  { reg := .gateCntCloseCut, base := 0xC00090, dims := [(32, 0x10000)], rc := [(0, 32)] },
  { reg := .gateCntWaited, base := 0xC00094, dims := [(32, 0x10000)], rc := [(0, 32)] },
  { reg := .gateCntExpired, base := 0xC00098, dims := [(32, 0x10000)], rc := [(0, 32)] },
  { reg := .gateCntMark, base := 0xC0009C, dims := [(32, 0x10000)], rc := [(0, 32)] },
  { reg := .gateTapeRunW0, base := 0xC08000, dims := [(32, 0x10000), (1024, 0x8)] },
  { reg := .gateTapeRunW1, base := 0xC08004, dims := [(32, 0x10000), (1024, 0x8)] },
  { reg := .gateTapePendW0, base := 0xC0C000, dims := [(32, 0x10000), (1024, 0x8)] },
  { reg := .gateTapePendW1, base := 0xC0C004, dims := [(32, 0x10000), (1024, 0x8)] }]

/-- Registers of chapter 08. -/
def regsPort08 : List RegRow := [
  { reg := .portCfg, base := 0x1000000, dims := [(32, 0x10000)] },
  { reg := .portStatus, base := 0x1000004, dims := [(32, 0x10000)] },
  { reg := .portPcsCfg, base := 0x1000008, dims := [(32, 0x10000)], rwl := 0x383#32 },
  { reg := .portSerdesCfg, base := 0x100000C, dims := [(32, 0x10000)], rwl := 0xBF1F0F#32, reset := 0x300802#32 },
  { reg := .portRxCfg, base := 0x1000010, dims := [(32, 0x10000)], rwl := 0x107#32, reset := 0x3#32 },
  { reg := .portRxDefault, base := 0x1000014, dims := [(32, 0x10000)], rwl := 0xFFF0FFF#32 },
  { reg := .portBufCfg, base := 0x1000018, dims := [(32, 0x10000)], rwl := 0xFFFFFFFF#32, reset := 0x10000100#32 },
  { reg := .portBufStat, base := 0x100001C, dims := [(32, 0x10000)] },
  { reg := .portEeeCfg, base := 0x1000020, dims := [(32, 0x10000)], rwl := 0xFF00#32, reset := 0x1100#32 },
  { reg := .portEeeIdle, base := 0x1000024, dims := [(32, 0x10000)], rwl := 0xFFFF#32, reset := 0x3E8#32 },
  { reg := .portEeeStat, base := 0x1000028, dims := [(32, 0x10000)] },
  { reg := .portInbandStat, base := 0x1000030, dims := [(32, 0x10000)] },
  { reg := .portRecalStat, base := 0x1000034, dims := [(32, 0x10000)] },
  { reg := .portFilterW0, base := 0x1000100, dims := [(32, 0x10000), (16, 0x8)] },
  { reg := .portFilterW1, base := 0x1000104, dims := [(32, 0x10000), (16, 0x8)] },
  { reg := .portCntLo, base := 0x1001000, dims := [(32, 0x10000), (38, 0x8)], rc := [(0, 32)] },
  { reg := .portCntHi, base := 0x1001004, dims := [(32, 0x10000), (38, 0x8)] }]

/-- Registers of chapter 09. -/
def regsStrm09 : List RegRow := [
  { reg := .strmStatus, base := 0x1400000, dims := [] },
  { reg := .strmHStat, base := 0x1410000, dims := [(8192, 0x20)], w1c := 0xC0000000#32 },
  { reg := .strmHMatch, base := 0x1410004, dims := [(8192, 0x20)], rc := [(0, 32)] },
  { reg := .strmHPass, base := 0x1410008, dims := [(8192, 0x20)], rc := [(0, 32)] },
  { reg := .strmHSduDrop, base := 0x141000C, dims := [(8192, 0x20)], rc := [(0, 32)] },
  { reg := .strmHGateDrop, base := 0x1410010, dims := [(8192, 0x20)], rc := [(0, 32)] },
  { reg := .strmHRed, base := 0x1410014, dims := [(8192, 0x20)], rc := [(0, 32)] },
  { reg := .strmHYellow, base := 0x1410018, dims := [(8192, 0x20)], rc := [(0, 32)] },
  { reg := .strmHBlkDrop, base := 0x141001C, dims := [(8192, 0x20)], rc := [(0, 32)] },
  { reg := .strmMCfg, base := 0x1450000, dims := [(8192, 0x20)] },
  { reg := .strmMCir, base := 0x1450004, dims := [(8192, 0x20)] },
  { reg := .strmMEir, base := 0x1450008, dims := [(8192, 0x20)] },
  { reg := .strmMCbs, base := 0x145000C, dims := [(8192, 0x20)] },
  { reg := .strmMEbs, base := 0x1450010, dims := [(8192, 0x20)] },
  { reg := .strmMTc, base := 0x1450014, dims := [(8192, 0x20)] },
  { reg := .strmMTe, base := 0x1450018, dims := [(8192, 0x20)] },
  { reg := .strmGCfg, base := 0x1490000, dims := [(2048, 0x10)] },
  { reg := .strmGSeq, base := 0x1490004, dims := [(2048, 0x10)] },
  { reg := .strmGCount, base := 0x1490008, dims := [(2048, 0x10)], rc := [(0, 32)] },
  { reg := .strmGSkip, base := 0x149000C, dims := [(2048, 0x10)], rc := [(0, 32)] },
  { reg := .strmRCfg, base := 0x14A0000, dims := [(4096, 0x40)] },
  { reg := .strmRState, base := 0x14A0004, dims := [(4096, 0x40)] },
  { reg := .strmRPassed, base := 0x14A0008, dims := [(4096, 0x40)], rc := [(0, 32)] },
  { reg := .strmRDiscarded, base := 0x14A000C, dims := [(4096, 0x40)], rc := [(0, 32)] },
  { reg := .strmROutOfOrder, base := 0x14A0010, dims := [(4096, 0x40)], rc := [(0, 32)] },
  { reg := .strmRRogue, base := 0x14A0014, dims := [(4096, 0x40)], rc := [(0, 32)] },
  { reg := .strmRLost, base := 0x14A0018, dims := [(4096, 0x40)], rc := [(0, 32)] },
  { reg := .strmRTagless, base := 0x14A001C, dims := [(4096, 0x40)], rc := [(0, 32)] },
  { reg := .strmRResets, base := 0x14A0020, dims := [(4096, 0x40)], rc := [(0, 32)] },
  { reg := .strmIdEntry, base := 0x1500000, dims := [(16384, 0x40), (16, 0x4)] }]

/-- Registers of chapter 10. -/
def regsFld10 : List RegRow := [
  { reg := .fldPortCfg, base := 0x1800000, dims := [(480, 0x100)] },
  { reg := .fldPortSetw, base := 0x1800004, dims := [(480, 0x100), (7, 0x4)] },
  { reg := .fldPortStat, base := 0x1800020, dims := [(480, 0x100)] },
  { reg := .fldPortErr, base := 0x1800024, dims := [(480, 0x100)] },
  { reg := .fldTxqEnq, base := 0x1800028, dims := [(480, 0x100)] },
  { reg := .fldCnt, base := 0x1800040, dims := [(480, 0x100), (12, 0x4)], rc := [(0, 32)] },
  { reg := .fldBankStat, base := 0x1820000, dims := [(15, 0x4)] },
  { reg := .fldBufCfg, base := 0x1820100, dims := [], rwl := 0xFFFF#32, reset := 0x1000#32 },
  { reg := .fldBufStat, base := 0x1820104, dims := [] },
  { reg := .fldAggCfg, base := 0x1840000, dims := [(256, 0x20)] },
  { reg := .fldAggRuns, base := 0x1840004, dims := [(256, 0x20)], rc := [(0, 32)] },
  { reg := .fldAggOverrun, base := 0x1840008, dims := [(256, 0x20)], rc := [(0, 32)] },
  { reg := .fldAggFault, base := 0x184000C, dims := [(256, 0x20)], rc := [(0, 32)] },
  { reg := .fldAggShort, base := 0x1840010, dims := [(256, 0x20)], rc := [(0, 32)] },
  { reg := .fldAggQfull, base := 0x1840014, dims := [(256, 0x20)], rc := [(0, 32)] },
  { reg := .fldImg, base := 0x1900000, dims := [(480, 0x100), (64, 0x4)] }]

/-- Registers of chapter 11. -/
def regsSide11 : List RegRow := [
  { reg := .sideStatus, base := 0x1C00000, dims := [] },
  { reg := .sideAlive, base := 0x1C00004, dims := [] },
  { reg := .sideCfg, base := 0x1C00008, dims := [], rwl := 0x1#32, reset := 0x1#32 },
  { reg := .sideMoveW, base := 0x1C00010, dims := [] },
  { reg := .sideMoveB, base := 0x1C00014, dims := [] },
  { reg := .sideCastleCnt, base := 0x1C00020, dims := [], rc := [(16, 16), (0, 16)] },
  { reg := .sideFlagCnt, base := 0x1C00024, dims := [], rc := [(16, 16), (0, 16)] },
  { reg := .sideClaimCnt, base := 0x1C00028, dims := [], rc := [(0, 16)] },
  { reg := .sideLastIntr, base := 0x1C00030, dims := [] },
  { reg := .sideLastGrantLo, base := 0x1C00034, dims := [] },
  { reg := .sideLastGrantHi, base := 0x1C00038, dims := [] },
  { reg := .sideLsStat, base := 0x1C00040, dims := [], rc := [(16, 16)] },
  { reg := .sideStStat, base := 0x1C00050, dims := [] },
  { reg := .sideMlStat, base := 0x1C00054, dims := [], rc := [(16, 16)] }]

/-- Registers of chapter 12. -/
def regsSide12 : List RegRow := [
  { reg := .sideJrnCfg, base := 0x1C00100, dims := [], rwl := 0x3F#32, reset := 0x19#32 },
  { reg := .sideJrnDelta, base := 0x1C00104, dims := [], rc := [(0, 16)] },
  { reg := .sideJrnThrottle, base := 0x1C00108, dims := [], rc := [(0, 32)] },
  { reg := .sideJrnReplay, base := 0x1C0010C, dims := [], rc := [(16, 16), (0, 16)] },
  { reg := .sideJrnSs, base := 0x1C00110, dims := [] },
  { reg := .sideJrnWarm, base := 0x1C00114, dims := [] },
  { reg := .sideResyncStat, base := 0x1C00120, dims := [] },
  { reg := .sideResyncInuse, base := 0x1C00124, dims := [] },
  { reg := .sideResyncCopied, base := 0x1C00128, dims := [] },
  { reg := .sideResyncDirty, base := 0x1C0012C, dims := [] },
  { reg := .sideResyncDirtied, base := 0x1C00130, dims := [] },
  { reg := .sideResyncCnt, base := 0x1C00134, dims := [], rc := [(16, 16), (0, 16)] },
  { reg := .sideResyncLast, base := 0x1C00138, dims := [] }]

/-- Registers of chapter 13. -/
def regsFab13 : List RegRow := [
  { reg := .fabCfg, base := 0x1D00000, dims := [], rwl := 0xFFFF1E#32, reset := 0xA1418#32 },
  { reg := .fabPorts, base := 0x1D00004, dims := [], rwl := 0xFFFFFFFF#32 },
  { reg := .fabUidLo, base := 0x1D00008, dims := [] },
  { reg := .fabUidHi, base := 0x1D0000C, dims := [] },
  { reg := .fabStatus, base := 0x1D00010, dims := [] },
  { reg := .fabLocal, base := 0x1D00014, dims := [], rwl := 0xFFF#32 },
  { reg := .fabRelayCfg, base := 0x1D00018, dims := [], rwl := 0xFFFF0000#32, reset := 0x3E80000#32 },
  { reg := .fabBypCfg, base := 0x1D00020, dims := [], rwl := 0xFF00#32, reset := 0xFF00#32 },
  { reg := .fabBypStat, base := 0x1D00024, dims := [] },
  { reg := .fabBypFailCnt, base := 0x1D00028, dims := [], rc := [(0, 32)] },
  { reg := .fabPortCtl, base := 0x1D00100, dims := [(32, 0x20)], rwl := 0x1FFF#32 },
  { reg := .fabCntRelayed, base := 0x1D00104, dims := [(32, 0x20)], rc := [(0, 32)] },
  { reg := .fabCntCut, base := 0x1D00108, dims := [(32, 0x20)], rc := [(0, 32)] },
  { reg := .fabCntNoroute, base := 0x1D0010C, dims := [(32, 0x20)], rc := [(0, 32)] },
  { reg := .fabCntHops, base := 0x1D00110, dims := [(32, 0x20)], rc := [(0, 32)] },
  { reg := .fabCntStomp, base := 0x1D00114, dims := [(32, 0x20)], rc := [(0, 32)] },
  { reg := .fabCntDrop, base := 0x1D00118, dims := [(32, 0x20)], rc := [(0, 32)] },
  { reg := .fabCntSecFallback, base := 0x1D0011C, dims := [(32, 0x20)], rc := [(0, 32)] },
  { reg := .fabTopoStat, base := 0x1D08000, dims := [] },
  { reg := .fabAdj, base := 0x1D08100, dims := [(32, 0x4)] },
  { reg := .fabRouteW0, base := 0x1D10000, dims := [(4096, 0x8)] },
  { reg := .fabRouteW1, base := 0x1D10004, dims := [(4096, 0x8)] }]

/-- Registers of chapter 14. -/
def regsGlb14 : List RegRow := [
  { reg := .glbMode, base := 0x100, dims := [] },
  { reg := .glbStartCfg, base := 0x104, dims := [], rwl := 0xF0FFFFFF#32, reset := 0x300A1388#32 },
  { reg := .glbStartStat, base := 0x108, dims := [] },
  { reg := .glbStartTime, base := 0x10C, dims := [] },
  { reg := .glbResetCause, base := 0x110, dims := [], w1c := 0x3FF#32 },
  { reg := .glbSafeCause, base := 0x114, dims := [] },
  { reg := .glbAutoResetCnt, base := 0x118, dims := [] },
  { reg := .glbLastCommit, base := 0x11C, dims := [] },
  { reg := .glbPinStat, base := 0x120, dims := [] }]

/-- Registers of chapter 15. -/
def regsRec15 : List RegRow := [
  { reg := .recStatus, base := 0x1E00000, dims := [] },
  { reg := .recFill, base := 0x1E00004, dims := [] },
  { reg := .recCount, base := 0x1E00008, dims := [] },
  { reg := .recCritFill, base := 0x1E0000C, dims := [] },
  { reg := .recOldest, base := 0x1E00010, dims := [] },
  { reg := .recNext, base := 0x1E00014, dims := [] },
  { reg := .recRefused, base := 0x1E00018, dims := [], rc := [(16, 16), (0, 16)] },
  { reg := .recOverwritten, base := 0x1E0001C, dims := [], rc := [(0, 32)] },
  { reg := .recBankStat, base := 0x1E00020, dims := [], rc := [(16, 16)] },
  { reg := .recVolFill, base := 0x1E00024, dims := [] },
  { reg := .recCursor, base := 0x1E00080, dims := [], rw := 0xFFFFFFFF#32 },
  { reg := .recRdCfg, base := 0x1E00084, dims := [], rw := 0x13#32 },
  { reg := .recWinStat, base := 0x1E00088, dims := [] },
  { reg := .recWinNext, base := 0x1E0008C, dims := [] },
  { reg := .recWin, base := 0x1E01000, dims := [(1024, 0x4)] }]

/-- Registers of chapter 16. -/
def regsEvt16 : List RegRow := [
  { reg := .evtStat, base := 0x1F00000, dims := [(8, 0x4)], w1c := 0xFFFFFFFF#32 },
  { reg := .evtPinStat, base := 0x1F00040, dims := [(8, 0x4)], w1c := 0xFFFFFFFF#32 },
  { reg := .evtPinEn, base := 0x1F00060, dims := [(8, 0x4)], rw := 0xFFFFFFFF#32, reset := 0x1001A#32 },
  { reg := .evtPinCfg, base := 0x1F00080, dims := [], rw := 0x800000FF#32, reset := 0x1#32 },
  { reg := .evtTest, base := 0x1F00084, dims := [] },
  { reg := .evtHostLink, base := 0x1F00088, dims := [] },
  { reg := .evtBlocked, base := 0x1F0008C, dims := [], rc := [(24, 8), (16, 8), (8, 8), (0, 8)] },
  { reg := .evtRoute, base := 0x1F01000, dims := [(4, 0x400), (256, 0x4)], rw := 0x8000003F#32 },
  { reg := .evtCoal, base := 0x1F02000, dims := [(4, 0x100), (64, 0x4)], rw := 0x3FF00FF#32, reset := 0x1#32 }]

/-- Registers of chapter 17. -/
def regsGlb17 : List RegRow := [
  { reg := .glbPwrStat, base := 0x200, dims := [] },
  { reg := .glbPwrSel, base := 0x204, dims := [] },
  { reg := .glbPwrCnt, base := 0x208, dims := [], rc := [(16, 16), (0, 16)] },
  { reg := .glbClkCfg, base := 0x210, dims := [], rwl := 0x1#32 },
  { reg := .glbClkStat, base := 0x214, dims := [], rc := [(16, 16)] },
  { reg := .glbClkDiff, base := 0x218, dims := [] },
  { reg := .glbThermW, base := 0x220, dims := [], rc := [(16, 16)] },
  { reg := .glbThermB, base := 0x224, dims := [], rc := [(16, 16)] },
  { reg := .glbThermRim, base := 0x228, dims := [], rc := [(16, 16)] },
  { reg := .glbThermCfg, base := 0x22C, dims := [], rwl := 0xFFFF#32, reset := 0x573#32 },
  { reg := .glbDdrW, base := 0x230, dims := [] },
  { reg := .glbDdrB, base := 0x234, dims := [] },
  { reg := .glbDdrEccW, base := 0x238, dims := [], rc := [(16, 16), (0, 16)] },
  { reg := .glbDdrEccB, base := 0x23C, dims := [], rc := [(16, 16), (0, 16)] },
  { reg := .glbDdrUsable, base := 0x240, dims := [] }]

/-- Registers of chapter 18. -/
def regsGlb18 : List RegRow := [
  { reg := .glbId, base := 0x0, dims := [] },
  { reg := .glbReader, base := 0x4, dims := [] },
  { reg := .glbLock, base := 0x10, dims := [] },
  { reg := .glbHostPerm, base := 0x20, dims := [(4, 0x4)], rwl := 0x3FFF3FFF#32, reset := 0x3FFF3FFF#32 },
  { reg := .glbAccErr, base := 0x40, dims := [(4, 0x4)], rc := [(16, 16), (8, 8), (0, 8)] }]

/-- Registers of chapter 19. -/
def regsGlb19 : List RegRow := [
  { reg := .glbFwRun, base := 0x300, dims := [(2, 0x10)] },
  { reg := .glbFwSlot, base := 0x304, dims := [(2, 0x10)] },
  { reg := .glbFwInfo, base := 0x308, dims := [(2, 0x10)] },
  { reg := .glbFwSvnMin, base := 0x30C, dims := [(2, 0x10)] },
  { reg := .glbFwKeys, base := 0x340, dims := [] }]

/-- The whole map. -/
def regTable : List RegRow :=
  regsSide01 ++ regsCmd02 ++ regsTime03 ++ regsQue04 ++ regsDma05 ++
  regsSch06 ++ regsGate07 ++ regsPort08 ++ regsStrm09 ++
  regsFld10 ++ regsSide11 ++ regsSide12 ++ regsFab13 ++
  regsGlb14 ++ regsRec15 ++ regsEvt16 ++
  regsGlb17 ++
  regsGlb18 ++
  regsGlb19

/-- The array indices that lead from `base` to `addr` through `dims`, outermost stride first in `dims` order. -/
def findIdx : List (Nat × Nat) → Nat → Option (List Nat)
  | [], off => if off = 0 then some [] else none
  | (n, st) :: ds, off =>
    let i := off / st
    if i < n then (findIdx ds (off - i * st)).map (i :: ·) else none

/-- The row and the indices that an address names (R527: none for an address that no chapter maps). -/
def findRow : List RegRow → Nat → Option (RegRow × List Nat)
  | [], _ => none
  | r :: rs, addr =>
    if addr < r.base then findRow rs addr
    else match findIdx r.dims (addr - r.base) with
      | some is => some (r, is)
      | none => findRow rs addr

/-- The register that a BAR0 address names. -/
def findReg (addr : Nat) : Option (RegRow × List Nat) := findRow regTable addr

/-- The row of a register. -/
def rowOf (g : Reg) : RegRow := (regTable.find? (fun r => r.reg == g)).getD { reg := g, base := 0, dims := [] }

/-- The address of a register with array indices `is`. -/
def regAddr (g : Reg) (is : List Nat) : Nat :=
  let r := rowOf g
  r.base + ((r.dims.zip is).map (fun x => x.1.2 * x.2)).sum

/-- Reset value of the RW and RWL fields: the table's, but for the arrays whose members differ (CMD_PERM, QUE_HOST_PORTS
and GLB_HOST_PERM of H0, EVT_PIN_EN words 0 and 7). -/
def resetOf (r : RegRow) (is : List Nat) : W32 :=
  match r.reg, is with
  | .cmdPerm, n :: _ => if n = 0 then 0x3FF#32 else 0#32
  | .queHostPorts, n :: _ => if n = 0 then 0xFFFFFFFF#32 else 0#32
  | .glbHostPerm, n :: _ => if n = 0 then 0x3FFF3FFF#32 else 0x00003FFF#32
  | .evtPinEn, w :: _ => if w = 0 then 0x0001001A#32 else if w = 7 then 0x0C020210#32 else 0#32
  | _, _ => r.reset

end Sys2Proof.Machine
end

