-- ==== Sys2Proof/Machine/Ops.lean ====
section
/-!
DEFINITION. Machine/Ops.lean: the named operations over State that the meanings share: register store, counters, events,
numbered sets, time readings, the Chess Clock's predicates, mode changes, recorder offers.
-/

namespace Sys2Proof.Machine

/-- The answer of every meaning. -/
abbrev Out := Host.Outcome State Fault Refusal

/-! ### Registers and counters -/

/-- The stored RW and RWL fields of a register. -/
def regVal (s : State) (g : Reg) (is : List Nat) : Nat :=
  (tget (resetOf (rowOf g) is) s.regs (regAddr g is)).toNat

/-- One field of a stored register. -/
def regFld (s : State) (g : Reg) (is : List Nat) (lo w : Nat) : Nat := bitsN (regVal s g is) lo w

/-- Store the RW and RWL fields of a register. -/
def regStore (s : State) (g : Reg) (is : List Nat) (v : W32) : State :=
  { s with regs := tput (resetOf (rowOf g) is) s.regs (regAddr g is) v }

/-- Key of the RC field at bit `lo` of a register. -/
def ckey (g : Reg) (is : List Nat) (lo : Nat) : Nat := regAddr g is * 32 + lo

/-- Width of the RC field that a key names (40 bits for a port counter, R276). -/
def ckeyWidth (key : Nat) : Nat :=
  match findReg (key / 32) with
  | some (r, _) => if r.reg = .portCntLo then 40 else ((r.rc.find? (fun x => x.1 == key % 32)).map (·.2)).getD 32
  | none => 32

/-- Add `n` to a delta of width `w`, saturating (R276, R530). -/
def satAdd (w a n : Nat) : Nat := min (2 ^ w - 1) (a + n)

/-- An event adds to all five deltas of its counter (R276). -/
def Five.add (w n : Nat) (f : Five) : Five :=
  { h0 := satAdd w f.h0 n, h1 := satAdd w f.h1 n, h2 := satAdd w f.h2 n, h3 := satAdd w f.h3 n, fw := satAdd w f.fw n }

/-- Raise all five readings to at least `n`: a largest-value field. -/
def Five.atLeast (w n : Nat) (f : Five) : Five :=
  let m := min (2 ^ w - 1) n
  { h0 := max f.h0 m, h1 := max f.h1 m, h2 := max f.h2 m, h3 := max f.h3 m, fw := max f.fw m }

/-- The delta of one reader. -/
def Five.get (f : Five) : Reader → Nat
  | .host h => if h.val = 0 then f.h0 else if h.val = 1 then f.h1 else if h.val = 2 then f.h2 else f.h3
  | .firmware => f.fw

/-- Set the delta of one reader alone. -/
def Five.put (f : Five) (r : Reader) (n : Nat) : Five :=
  match r with
  | .host h => if h.val = 0 then { f with h0 := n } else if h.val = 1 then { f with h1 := n }
      else if h.val = 2 then { f with h2 := n } else { f with h3 := n }
  | .firmware => { f with fw := n }

/-- Count `n` at the counter `key` of width `w`. -/
def bumpW (key w n : Nat) (s : State) : State :=
  { s with ctrs := tput {} s.ctrs key (Five.add w n (tget {} s.ctrs key)) }

/-- Count `n` in the RC field at bit `lo` of a register. -/
def count (g : Reg) (is : List Nat) (lo n : Nat) (s : State) : State :=
  bumpW (ckey g is lo) (ckeyWidth (ckey g is lo)) n s

/-- A largest-value RC field takes `n`. -/
def countMax (g : Reg) (is : List Nat) (lo n : Nat) (s : State) : State :=
  let k := ckey g is lo
  { s with ctrs := tput {} s.ctrs k (Five.atLeast (ckeyWidth k) n (tget {} s.ctrs k)) }

/-- Count `n` in port counter `c` of port `p` (R276, R280). -/
def portCount (p c n : Nat) (s : State) : State := bumpW (ckey .portCntLo [p, c] 0) 40 n s

/-! ### Time -/

/-- The majority of the three copies of the time base (R86). -/
def voted (s : State) : BitVec 96 :=
  let t := s.time
  if t.copyA = t.copyB then t.copyA else if t.copyA = t.copyC then t.copyA else t.copyB

/-- Network time in ns (R85). -/
def netNs (s : State) : Nat := (voted s).toNat >>> 32

/-- Elapsed network time in ns: its advance under R85, steps left out. -/
def elapsed (s : State) : Nat := s.time.elapsed.toNat >>> 32

/-- TSF of a timestamp taken now: VALID, HOLDOVER (R86, R88, R95, R108). -/
def tsfNow (s : State) : Nat :=
  if s.time.tmrFail then 2
  else 1 + (if s.ptp.holdover || s.time.tick < s.time.refUnsure then 2 else 0)

/-- A timestamp captured `back` ns before now, with more TSF bits (R105, R108). NS and EPOCH are 0 when VALID is 0. -/
def tsNow (s : State) (more : Nat) : Ts :=
  let f := tsfNow s
  if bitN f 0 then
    { ns := BitVec.ofNat 64 (netNs s), epoch := s.time.epoch, tsf := BitVec.ofNat 16 (f + more) }
  else { ns := 0, epoch := 0, tsf := BitVec.ofNat 16 (f + more) }

/-! ### Sides -/

/-- The record of a side. -/
def sideOf (s : State) : SideId → SideRec
  | .white => s.sides.white
  | .black => s.sides.black

/-- The other side. -/
def other : SideId → SideId
  | .white => .black
  | .black => .white

/-- Store a side's record. -/
def putSide (s : State) (d : SideId) (r : SideRec) : State :=
  match d with
  | .white => { s with sides := { s.sides with white := r } }
  | .black => { s with sides := { s.sides with black := r } }

/-- 0 White, 1 Black. -/
def sideNum : SideId → Nat
  | .white => 0
  | .black => 1

/-- A side named by a SIDE field. -/
def sideFrom (n : Nat) : SideId := if n = 0 then .white else .black

/-- Index of a side's register in an array of two. -/
def sideIdx (d : SideId) : List Nat := [sideNum d]

/-- The state code of the side that does not hold the Clock. -/
def standbyState (s : State) : Nat :=
  match s.sides.holder with
  | some d => (sideOf s (other d)).state
  | none => 0

/-- A side holds the Clock, is healthy and works outside an interruption: started work goes on (R362, R385). -/
def dispatching (s : State) : Bool :=
  match s.sides.holder with
  | some d => s.sides.disp == .running && (sideOf s d).healthy && (s.sides.handover == .none || s.sides.handover == .armed)
  | none => false

/-- It consumes records too: its Move is not throttled (R385). DESIGN CHOICE, log entry 4. DEDUCED, log entry 6. -/
def consuming (s : State) : Bool := dispatching s && !s.jrn.throttled

/-- A side consumes records and starts new work: not in Safe-Hold (R288, R456). -/
def serving (s : State) : Bool := consuming s && s.glb.mode != 11

/-- The rim takes writes: a side holds the Clock, is healthy, no Lockstep hold stands, and a partner in Lockstep gives its copy
of each output (R23, R353, R371, R373). -/
def gateOpen (s : State) : Bool :=
  match s.sides.holder with
  | some d => (sideOf s d).healthy && !s.sides.lsHold && ((sideOf s (other d)).state != 7 || (sideOf s (other d)).healthy)
  | none => false

/-- Side `d` may write to the rim: it holds the Clock and its gate is open (R23). -/
def mayWrite (d : SideId) (s : State) : Bool := s.sides.holder == some d && gateOpen s

/-- A write of side `d` to the rim that does not enter it. One of a side that does not hold the Clock is discarded and counted
(R23, R45); the copy of a Lockstep partner is compared and not counted (R371); the holder's own waits while the side is stopped
or its outputs are held (R353, R373). DEDUCED, log entry 115. -/
def gatedWrite (d : SideId) (s : State) : State :=
  if s.sides.holder == some d || (sideOf s d).state == 7 then s else count .sideGatedWr [] (16 * sideNum d) 1 s

/-- A write of side `d` to the rim (R23). -/
def byGate (d : SideId) (f : State → State) (s : State) : State := if mayWrite d s then f s else gatedWrite d s

/-- The Move that runs has been committed up to `m`. -/
def committed (s : State) (m : Nat) : Bool :=
  match s.jrn.committed with
  | some c => decide (m ≤ c)
  | none => false

/-- Elapsed network time that the last record carries: the time of every decision of a side (R213, R383). -/
def eventEl (s : State) : Nat := s.jrn.last.el

/-- The times that a record placed now carries. -/
def stampNow (s : State) : Stamp := { el := elapsed s, ns := netNs s, epoch := s.time.epoch, op := s.time.optime }

/-- At elapsed network time `t` a side takes Move `m` as committed: 0.5 µs after its marker (R552). DEDUCED, log entry 126. -/
def commitAt (s : State) (t m : Nat) : Bool :=
  decide (m + 1 < s.jrn.move) || (m + 1 == s.jrn.move && decide (s.jrn.markEl + 500 ≤ t))

/-- A side takes Move `m` as committed at the last record (R552). -/
def sideCommit (s : State) (m : Nat) : Bool := commitAt s (eventEl s) m

/-- Nothing takes a frame: Safe-Hold with no side at the Clock (R456), or full Scoresheets (R391). -/
def nobodyHolds (s : State) : Bool := (s.glb.mode == 11 && s.sides.holder.isNone) || s.jrn.full

/-- Add a line to the runs of a delta: a run holds at most 64 lines of one region that follow one another (R384). -/
def addLine (l : List DeltaRun) (n : Nat × Nat) : List DeltaRun :=
  let one : DeltaRun := { region := n.1, first := n.2 }
  match l.getLast? with
  | some r => if r.region = n.1 && r.first + r.count = n.2 && decide (r.count < 64) then l.dropLast ++ [{ r with count := r.count + 1 }]
      else l ++ [one]
  | none => [one]

/-- One line comes before another in its region. -/
def lineLe (a b : Nat × Nat) : Bool := decide (a.1 < b.1) || (a.1 == b.1 && decide (a.2 ≤ b.2))

/-- The runs that carry some lines. -/
def runsOf (l : List (Nat × Nat)) : List DeltaRun := ((l.insertionSort (fun a b => lineLe a b)).dedup).foldl addLine []

/-- Flits of a delta: a header and a data flit for each line (R384). -/
def deltaFlits (l : List DeltaRun) : Nat := (l.map (fun x => 1 + x.count)).sum

/-- The same of one Move: the hardware's bounds keep it within 8,192 (R384, R385). -/
def flitsOf (l : List DeltaRun) : Nat := min 8192 (deltaFlits l)

/-- The lines that are dirty are sent. -/
def sendLines (j : Jrn) : Jrn := { j with dirty := [], delta := j.delta ++ runsOf j.dirty }

/-- LEN of a record: its payload in units of 16 bytes (R390). DEDUCED, log entry 121. -/
def ssLen : SsBody → Nat
  | .push _ _ _ b => divUp (8 + b.length) 16
  | .fetch _ _ _ b => divUp (8 + b.length) 16
  | .rx _ _ => 3
  | .fldRx _ _ => 2
  | _ => 1

/-- KIND of a record (R390). The assertion of PERSTn_N is a REG record (R517). -/
def ssKind : SsBody → Nat
  | .push _ _ _ _ => 1
  | .fetch _ _ _ _ => 2
  | .fetchFault _ _ _ _ => 2
  | .doorbell _ _ _ => 3
  | .cqCi _ _ _ => 4
  | .reg _ => 5
  | .rx _ _ => 6
  | .fldRx _ _ => 7
  | .time _ _ => 8

/-- SOURCE of a record (R390). -/
def ssSource : SsBody → Nat
  | .push h _ _ _ => h
  | .fetch h _ _ _ => h
  | .fetchFault h _ _ _ => h
  | .doorbell h _ _ => h
  | .cqCi h _ _ => h
  | .reg (.write h _ _ _) => h
  | .reg (.read h _) => h
  | .reg (.perst h) => h
  | .rx p _ => p
  | .fldRx _ _ => 0x40
  | .time _ _ => 0xFF

/-- Bytes of a record in the ring. -/
def ssBytes (x : SsRec) : Nat := 16 * (1 + ssLen x.body)

/-- The oldest records in the on-die ring move to the spill region while the ring is more than 6 MiB full and the region has room;
`skip` bytes of the oldest records are there already. The pair holds the bytes in the ring and in the region (R391). -/
def spillOld : List SsRec → Nat → Nat × Nat → Nat × Nat
  | [], _, r => r
  | x :: l, skip, (o, p) =>
    if 0 < skip then spillOld l (skip - ssBytes x) (o, p)
    else if 6291456 < o && p + ssBytes x ≤ 268435456 then spillOld l 0 (o - ssBytes x, p + ssBytes x)
    else (o, p)

/-- Ring and spill region have no room for another input: 64 KiB of the ring are kept for TIME records (R391). -/
def sheetFull (j : Jrn) : Bool := decide (8388608 - 65536 < j.ondie + 288) && decide (268435456 < j.spill + 288)

/-- A record enters both Scoresheets (R390, R391). -/
def putSheet (x : SsRec) (j : Jrn) : Jrn :=
  let l := j.sheet ++ [x]
  let r := spillOld l j.spill (j.ondie + ssBytes x, j.spill)
  { j with seq := j.seq + 1, sheet := l, ondie := r.1, spill := r.2 }

/-- The records below the sequence number `n` are freed (R387, R391). -/
def freeSheet (n : Nat) (j : Jrn) : Jrn :=
  let gone := ((j.sheet.filter (fun x => decide (x.seq < n))).map ssBytes).sum
  { j with sheet := j.sheet.filter (fun x => decide (n ≤ x.seq)), spill := j.spill - gone, ondie := j.ondie - (gone - j.spill) }

/-- Place an input in both Scoresheets: it takes the next sequence number, and carries its time (R383, R390). The lines dirtied
before it go out, and those that it changes are dirty, sent already or not (R384). -/
def record (b : SsBody) (s : State) : State :=
  let j := sendLines s.jrn
  let j := putSheet { seq := j.seq, tick := w32 s.time.tick, body := b } j
  { s with jrn := { j with last := stampNow s, consumed := if consuming s then s.jrn.seq + 1 else j.consumed,
                           dirty := if consuming s then Config.dirtyLines s.jrn.seq else [] } }

/-- The side has consumed every record; the lines that those it had left change are dirty (R384, R391). -/
def caughtUp (s : State) : State :=
  let j := s.jrn
  let late := (List.range (j.seq - j.consumed)).flatMap (fun k => Config.dirtyLines (j.consumed + k))
  { s with jrn := { j with consumed := j.seq, dirty := j.dirty ++ late } }

/-- An item of a side block takes its place in Scoresheet order (R390). -/
def keepReg (x : RegRec) (s : State) : State :=
  record (.reg x) { s with jrn := { s.jrn with regs := s.jrn.regs ++ [(x, stampNow s)] } }

/-- A TIME record that carries the network time `ns` (R390, R340). -/
def timeRecordAt (sub : TimeSub) (ns : Nat) (s : State) : State :=
  let s := record (.time sub ns) s
  { s with jrn := { s.jrn with lastTime := ns } }

/-- A TIME record of now. -/
def timeRecord (sub : TimeSub) (s : State) : State := timeRecordAt sub (netNs s) s

/-- After an input that was consumed as of its own time, which made `t` of `s`, the side goes on from the last record. -/
def resume (s t : State) : State :=
  { t with jrn := { t.jrn with last := if t.jrn.seq = s.jrn.seq then s.jrn.last else t.jrn.last } }

/-- The side consumes an input that has waited: it decides as of the time of its record, and goes on from the last one (R366,
R383). -/
def consumeAt (st : Stamp) (f : State → State) (s : State) : State := resume s (f { s with jrn := { s.jrn with last := st } })

/-! ### Numbered sets -/

/-- The active side decides one numbered set in the present Move (R65). -/
def pushSet (w : List RimWrite) (s : State) : State :=
  let n := s.jrn.setNo + 1
  { s with jrn := { s.jrn with setNo := n, sets := s.jrn.sets ++ [{ num := n, move := s.jrn.move, writes := w }] } }

/-- The rim writes that are decided and not applied. -/
def waitingWrites (s : State) : List RimWrite := s.jrn.sets.flatMap (·.writes)

/-- Number that the next set will have. -/
def nextSet (s : State) : Nat := s.jrn.setNo + 1

/-- An event of origin S: raised with the set that follows the commit (R483, R551). -/
def raiseS (src : Nat) (s : State) : State := pushSet [.raise src] s

/-- A rim counter that reports what the side decides (R551). -/
def countS (g : Reg) (is : List Nat) (lo n : Nat) (s : State) : State := pushSet [.bump (ckey g is lo) n] s

/-- A port counter that reports what the side decides (R551). -/
def portCountS (p c n : Nat) (s : State) : State := pushSet [.bump (ckey .portCntLo [p, c] 0) n] s

/-! ### Events and interrupts -/

/-- Status copy of host `n`. -/
def evtCopy (e : Evt) (n : Nat) : BitVec 256 :=
  if n = 0 then e.h0 else if n = 1 then e.h1 else if n = 2 then e.h2 else e.h3

/-- Store the status copy of host `n`. -/
def evtPut (e : Evt) (n : Nat) (v : BitVec 256) : Evt :=
  if n = 0 then { e with h0 := v } else if n = 1 then { e with h1 := v }
  else if n = 2 then { e with h2 := v } else { e with h3 := v }

/-- Bit `src` alone. -/
def evtBit (src : Nat) : BitVec 256 := BitVec.ofNat 256 (2 ^ src)

/-- The link of a host. -/
def linkOf (s : State) (h : Nat) : Link := tget {} s.pcie h

/-- The vector record of a host's vector. -/
def vecOf (s : State) (h v : Nat) : Vec := tget {} s.evt.vecs (h * 64 + v)

/-- Store a vector record. -/
def putVec (s : State) (h v : Nat) (x : Vec) : State :=
  { s with evt := { s.evt with vecs := tput {} s.evt.vecs (h * 64 + v) x } }

/-- The host's link takes requests: it is up with Bus Master Enable set (R518). -/
def hostOk (s : State) (h : Nat) : Bool := (linkOf s h).up && (linkOf s h).cfg.bme

/-- A message of the host cannot be sent: MSI-X Enable 0, Bus Master Enable 0 or link down (R488). -/
def msixBlocked (s : State) (h : Nat) : Bool := !((linkOf s h).cfg.msix && hostOk s h)

/-- The MSI-X message of a vector: Relaxed Ordering and ID-Based Ordering clear (R150). -/
def msixTlp (h v : Nat) (x : Vec) : Tlp := .msix h v x.addr x.data {}

/-- A message falls due for a vector (R488), `plain` for a trigger that PENDING does not hold. The Bool says that it was blocked and raises
EVT_MSIX_BLOCKED: not where all its triggers are that event's own. Every trigger that waited for the message counts as blocked
(DEDUCED, log 75). -/
def msgDue (h v : Nat) (plain : Bool) (s : State) : State × Bool :=
  let x := vecOf s h v
  let y := { x with pending := 0, plain := false }
  if msixBlocked s h then (count .evtBlocked [] (8 * h) (max 1 x.pending) (putVec s h v y), plain || x.plain)
  else if x.masked then (putVec s h v { y with pba := true, pbaPlain := x.pbaPlain || plain || x.plain }, false)
  else ({ putVec s h v y with bus := s.bus ++ [msixTlp h v x] }, false)

/-- Coalescing is off for a vector (R487). -/
def coalOff (s : State) (h v : Nat) : Bool :=
  regFld s .evtCoal [h, v] 0 8 == 1 || regFld s .evtCoal [h, v] 16 10 == 0

/-- One trigger of a vector (R487), `plain` unless it is of EVT_MSIX_BLOCKED. The Bool says that a blocked message raises that event. -/
def trigRaw (h v : Nat) (plain : Bool) (s : State) : State × Bool :=
  if coalOff s h v then msgDue h v plain s
  else
    let x := vecOf s h v
    let n := min 255 (x.pending + 1)
    let s := putVec s h v { x with pending := n, plain := x.plain || plain }
    if regFld s .evtCoal [h, v] 0 8 ≤ n then msgDue h v false s else (s, false)

/-- Set the status bits of a source in all six copies and start EVENT_N's pulse where one is due (R485, R491). The list
holds the hosts whose bit went from 0 to 1. -/
def setBits (src : Nat) (s : State) : State × List Nat :=
  let b := evtBit src
  let e := s.evt
  let fresh := [0, 1, 2, 3].filter (fun n => (evtCopy e n) &&& b == 0)
  let pinNew := e.pin &&& b == 0 && regFld s .evtPinEn [src / 32] (src % 32) 1 == 1
      && regFld s .evtPinCfg [] 31 1 == 1
  ({ s with evt := { e with h0 := e.h0 ||| b, h1 := e.h1 ||| b, h2 := e.h2 ||| b, h3 := e.h3 ||| b, fw := e.fw ||| b,
                            pin := e.pin ||| b, pulse := e.pulse || pinNew } }, fresh)

/-- Triggers of a source for the hosts in the list (R486). The Bool says that some message was blocked and raises EVT_MSIX_BLOCKED. -/
def trigHosts (src : Nat) : List Nat → State → State × Bool
  | [], s => (s, false)
  | n :: ns, s =>
    let (s1, b) := if regFld s .evtRoute [n, src] 31 1 = 1 then trigRaw n (regFld s .evtRoute [n, src] 0 6) (src != 254) s
      else (s, false)
    let (s2, b') := trigHosts src ns s1
    (s2, b || b')

/-- Raise EVT_MSIX_BLOCKED: its own blocked triggers are counted and raise nothing further (R488). -/
def raiseBlocked (s : State) : State :=
  let (s, fresh) := setBits 254 s
  (trigHosts 254 fresh s).1

/-- Raise an event source: status bits, then triggers (R485, R486, R489). -/
def raise (src : Nat) (s : State) : State :=
  if src = 254 then raiseBlocked s
  else
    let (s, fresh) := setBits src s
    let (s, b) := trigHosts src fresh s
    if b then raiseBlocked s else s

/-- One trigger of a CQ vector (R152, R486). -/
def trigger (h v : Nat) (s : State) : State :=
  let (s, b) := trigRaw h v true s
  if b then raiseBlocked s else s

/-- The rim has a feed: without one its outputs are released or not driven (R516). -/
def rimPowered (s : State) : Bool := s.glb.feedA || s.glb.feedB

/-- ALARM_N is low (R508, R516). -/
def alarmNLow (s : State) : Bool := rimPowered s && s.glb.alarm != 0

/-- THERM_N is low (R516, R524). -/
def thermNLow (s : State) : Bool := rimPowered s && !s.glb.therm

/-- EVENT_N is low (R491, R516). -/
def eventNLow (s : State) : Bool :=
  if !rimPowered s then false
  else if regFld s .evtPinCfg [] 31 1 = 1 then s.evt.pulse
  else [0, 1, 2, 3, 4, 5, 6, 7].any (fun w => (bitsN s.evt.pin.toNat (32 * w) 32) &&& regVal s .evtPinEn [w] != 0)

/-! ### Recorder offers, modes, alarms -/

/-- Offer a record to the recorder's write queue (R464, R465). -/
def offer (r : RecIn) (s : State) : State :=
  { s with recd := { s.recd with offered := s.recd.offered ++ [r] } }

/-- ALARM_N cause `i` is present (R491). -/
def setAlarm (i : Nat) (s : State) : State :=
  { s with glb := { s.glb with alarm := s.glb.alarm ||| BitVec.ofNat 6 (2 ^ i) } }

/-- ALARM_N cause `i` is gone. -/
def clearAlarm (i : Nat) (s : State) : State :=
  { s with glb := { s.glb with alarm := s.glb.alarm &&& ~~~(BitVec.ofNat 6 (2 ^ i)) } }

/-- The mode that R351 gives for two side states, one of them ACTIVE. -/
def serviceOf (w b : Nat) : Nat :=
  let o := if w = 5 then b else w
  if o = 4 then 5 else if o = 7 then 6 else if o = 3 then 9 else if o = 6 then 10 else 8

/-- The service mode of the present side states (R351). -/
def serviceMode (s : State) : Nat := serviceOf s.sides.white.state s.sides.black.state

/-- Modes 5, 6, 8, 9 and 10. -/
def isService (m : Nat) : Bool := m == 5 || m == 6 || m == 8 || m == 9 || m == 10

/-- The transitions that the table of R436 lists. -/
def transOk (a b : Nat) : Bool :=
  (a == 0 && b == 1) || (a == 1 && (b == 4 || b == 3 || b == 11 || b == 0))
  || (a == 2 && (b == 4 || isService b || b == 11 || b == 1)) || (a == 3 && b == 4) || (a == 4 && isService b)
  || ((a == 4 || a == 5 || a == 6 || a == 8) && b == 3)
  || ((a == 5 || a == 6 || a == 3 || a == 4) && b == 7) || (a == 7 && (isService b || b == 3 || b == 4))
  || (a == 5 && b == 6) || (a == 6 && b == 5) || ((a == 5 || a == 6 || a == 9 || a == 10) && b == 8)
  || (a == 8 && b == 9) || (a == 9 && b == 5) || ((a == 5 || a == 6) && b == 10)
  || (a == 10 && (b == 9 || b == 8)) || (3 ≤ a && a ≤ 10 && b == 11) || (a == 11 && (b == 4 || b == 2))
  || (3 ≤ a && a ≤ 11 && b == 2) || (2 ≤ a && a ≤ 11 && b == 1)

/-- GLB_START_STAT as it reads (R459). -/
def startStat (s : State) : Nat :=
  fieldAt s.sides.white.step 28 4 + fieldAt s.sides.white.failCause 24 4 + fieldAt s.sides.black.step 20 4
    + fieldAt s.sides.black.failCause 16 4 + s.glb.cfgIndex % 65536

/-- The bypass output of pair `k` must be low whatever R430 says (R429). -/
def bypLow (s : State) (k : Nat) : Bool :=
  !s.glb.porst || s.glb.mode == 0 || s.glb.mode == 1 || s.fab.force.getLsbD k || !s.fab.en
  || (s.glb.mode == 11 && bitN (regVal s .fabBypCfg []) (8 + k))

/-- R430 drives pair `k` high: both ports fabric ports, enabled, no hold-off. -/
def bypWant (s : State) (k : Nat) : Bool :=
  let pe := regVal s .fabPorts []
  bitN pe (2 * k) && bitN pe (2 * k + 1) && (tget {} s.port (2 * k)).en && (tget {} s.port (2 * k + 1)).en
    && !s.fab.holdoff.getLsbD k

/-- Level of BYP_Nk by the first row of R429 that applies. -/
def bypLevel (s : State) (k : Nat) : Bool :=
  if bypLow s k then false
  else if s.glb.mode = 2 || s.glb.mode = 7 || s.glb.mode = 11 then s.fab.open_.getLsbD k
  else bypWant s k

/-- Drive every BYP_N (R429). -/
def bypDrive (s : State) : State :=
  let v := ([0, 1, 2, 3, 4, 5, 6, 7].map (fun k => if bypLevel s k then 2 ^ k else 0)).sum
  { s with fab := { s.fab with open_ := BitVec.ofNat 8 v } }

/-- A cause of Safe-Hold that is a fault stands (R455). -/
def faultCause (s : State) : Bool := s.glb.safeCause &&& 0x1C#5 != 0

/-- A mode transition (R437): GLB_MODE, MODE_CHANGE, a record; none that R436 does not list. `faulty` gives the record
severity Fault. -/
def toMode (m : Nat) (faulty : Bool) (s : State) : State :=
  if m = s.glb.mode || !transOk s.glb.mode m then s
  else
    let extra := if m = 11 then s.glb.safeCause.toNat else if m = 0 then startStat s else 0
    let r : RecIn := { sev := if faulty then 2 else 0, kind := 2
                       payload := leBytes s.glb.mode 1 ++ leBytes m 1 ++ [0, 0] ++ leBytes extra 4 }
    bypDrive (offer r (raise 0 { s with glb := { s.glb with
      prev := s.glb.mode, mode := m, castleMode := none
      acqFrom := if m = 4 && s.glb.mode != 7 then s.time.optime else s.glb.acqFrom } }))

/-- The mode follows the side states while the part is in service (R351, R435). -/
def followSides (s : State) : State :=
  if isService s.glb.mode && s.sides.holder.isSome then toMode (serviceMode s) false s else s

/-! ### Ports -/

/-- The gate state of a port. -/
def gateOf (s : State) (p : Nat) : GateP := tget {} s.gate p
/-- Store it. -/
def putGate (s : State) (p : Nat) (g : GateP) : State := { s with gate := tput {} s.gate p g }
/-- A high-speed port. -/
def portOf (s : State) (p : Nat) : PortSt := tget {} s.port p
/-- Store it. -/
def putPort (s : State) (p : Nat) (x : PortSt) : State := { s with port := tput {} s.port p x }

/-- An adjacency goes down (R413): the topology message that tells it is due (R417). -/
def adjLost (p : Nat) (s : State) : State :=
  let a := tget {} s.fab.adjs p
  if a.up then
    raiseS evAdjChange { s with fab := { s.fab with adjs := tput {} s.fab.adjs p { a with up := false }, topoDue := true } }
  else s

/-- The whole microseconds of low-power idle up to now count (R280). -/
def accrueLpi (p : Nat) (s : State) : State :=
  let x := portOf s p
  let n := (elapsed s - x.lpiSince) / 1000
  if x.txLpi then portCount p 32 n (putPort s p { x with lpiSince := x.lpiSince + 1000 * n }) else s

/-- The same of the partner's low-power idle (R280). -/
def accrueRxLpi (p : Nat) (s : State) : State :=
  let x := portOf s p
  let n := (elapsed s - x.rxLpiSince) / 1000
  if x.rxLpi then portCount p 34 n (putPort s p { x with rxLpiSince := x.rxLpiSince + 1000 * n }) else s

/-- The times in low-power idle of every port, up to now. -/
def accrueAll (s : State) : State := s.port.foldl (fun s x => accrueRxLpi x.1 (accrueLpi x.1 s)) s

/-- A port leaves transmit low-power idle (R283). -/
def leaveLpi (p : Nat) (s : State) : State :=
  if (portOf s p).txLpi then
    let s := accrueLpi p s
    putPort s p { portOf s p with txLpi := false }
  else s

/-- The port leaves low-power idle and wakes (R283). -/
def wake (p : Nat) (s : State) : State :=
  if (portOf s p).txLpi then
    let s := leaveLpi p s
    putPort s p { portOf s p with waking := true, wakeAt := elapsed s }
  else s

/-- The relayed frames that wait for a port whose link goes down are dropped (R425). -/
def dropLanes (p : Nat) (s : State) : State :=
  let l := (gateOf s p).relay.flatMap (fun x => x.2)
  l.foldl (fun s x => count .fabCntDrop [x.flow] 0 1 s) (putGate s p { gateOf s p with relay := [] })

/-- A link goes down: what its going down ends (R244, R264, R282, R413, R425). `lock` says that the receiver still holds
lock. -/
def dropLink (p : Nat) (lock : Bool) (s : State) : State :=
  let s := accrueRxLpi p (leaveLpi p s)
  let x := portOf s p
  let s := dropLanes p (putPort s p { x with link := false, waking := false, rxLpi := false, blockLock := x.blockLock && lock })
  adjLost p (putGate s p { gateOf s p with verify := 0, attempts := 0 })

/-- A port that is disabled, or off in Safe-Hold, turns its transmitter off once its last frame has gone, and its link goes
down (R285, R288). DEDUCED, log entry 94. -/
def settleOff (p : Nat) (s : State) : State :=
  let x := portOf s p
  if (!x.en || x.txOff) && x.link && (gateOf s p).wire.isNone && (gateOf s p).cut.isNone then dropLink p x.en s
  else if !x.en && !x.link then putPort s p { x with blockLock := false, hiBer := false }
  else s

/-- Ports take their Safe-Hold states: SAFE_OFF turns a transmitter off at the next frame boundary (R288). -/
def safePorts (s : State) (on : Bool) : State :=
  (List.range 32).foldl (fun s p =>
    if regFld s .portRxCfg [p] 8 1 = 1 then settleOff p (putPort s p { portOf s p with txOff := on }) else s) s

/-- Field ports with SAFE_SILENT stop or resume transmitting (R346, R457). -/
def safeFields (s : State) (on : Bool) : State :=
  { s with fld := { s.fld with ports := s.fld.ports.map (fun x =>
      if bitN x.2.cfg.settings.toNat (16 + 2) && x.2.cfg.role != 0 then (x.1, { x.2 with silent := on }) else x) } }

/-- Change a side's record. -/
def updSide (d : SideId) (f : SideRec → SideRec) (s : State) : State := putSide s d (f (sideOf s d))

/-- Give a running command its work again. -/
def putWork (g : Nat) (op : LongOp) (s : State) : State :=
  match tfind s.cmd.running g with
  | some r => { s with cmd := { s.cmd with running := tset s.cmd.running g { r with op := op } } }
  | none => s

/-- The work of the running command of a group. -/
def workOf (s : State) (g : Nat) : Option LongOp := (tfind s.cmd.running g).map (·.op)

/-- The outcome of a SIDE_SELFTEST that runs. -/
def testOutcome (status : Nat) (s : State) : State :=
  match workOf s 5 with
  | some (.selftest d t b none) => putWork 5 (.selftest d t b (some status)) s
  | _ => s

/-- The outcome of a FW_ACTIVATE of side `d` (R547). -/
def activateOutcome (d : SideId) (status : Nat) (s : State) : State :=
  match workOf s 8 with
  | some (.fwActivate x sl n none) => if x = d then putWork 8 (.fwActivate x sl n (some status)) s else s
  | _ => s

/-- A side becomes OUT: it has no pulse (R349, R352). -/
def goOut (d : SideId) (s : State) : State :=
  activateOutcome d stState (updSide d (fun r => { r with state := 2, alive := false, press := false, ready := false, mustLoop := false }) s)

/-- No self-test runs in Safe-Hold: the tested side becomes OUT, and its SIDE_SELFTEST ends as one whose part lost its active side (R378,
R458). DESIGN CHOICE, log entry 143. -/
def stopTest (s : State) : State :=
  let end_ := fun (d : SideId) (s : State) =>
    if (sideOf s d).state = 6 then goOut d (testOutcome stResetAbort { s with sides := { s.sides with stRunning := false } }) else s
  end_ .black (end_ .white s)

/-- The part enters Safe-Hold (R455, R456). -/
def goSafe (fault : Bool) (s : State) : State :=
  let hold := if s.glb.holdN then s.glb.safeCause else s.glb.safeCause ||| 1
  let s := stopTest { s with glb := { s.glb with safeCause := hold, holdReq := false } }
  safeFields (safePorts (toMode 11 fault (raise 3 s)) true) true

/-- A cause of Safe-Hold is met (R455, R456). -/
def enterSafe (cause : Nat) (fault : Bool) (s : State) : State :=
  let s := { s with glb := { s.glb with safeCause := s.glb.safeCause ||| BitVec.ofNat 5 (2 ^ cause) } }
  let s := if fault then setAlarm 3 s else s
  if 3 ≤ s.glb.mode then goSafe fault s else s

/-- Draw a free value: the counter that indexes the opaque constants of Config. DESIGN CHOICE, log entry 55. -/
def draw (s : State) : Nat × State := (s.free, { s with free := s.free + 1 })

end Sys2Proof.Machine
end

