-- ==== Sys2Proof/Machine/Cmd.lean ====
section
/-!
DEFINITION. Machine/Cmd.lean: the command processor. The format of every command (R53 to R57, R78), the faults in the
order of R62, execution, refusal, generations (R55), the counts of R82 and the status packet (R59).
-/

namespace Sys2Proof.Machine

/-! ### The opcode tables (R78) -/

/-- Modes 3 to 6 and 8 to 11. -/
def modesA : List Nat := [3, 4, 5, 6, 8, 9, 10, 11]
/-- Modes of A without 11. -/
def modesR : List Nat := [3, 4, 5, 6, 8, 9, 10]
/-- The start monitor's modes and A. -/
def modesM : List Nat := [0, 1, 2] ++ modesA

/-- One row of the opcode tables. Fields are named by packet offset and size. -/
structure CmdSpec where
  opcode : Nat
  plen : Nat
  long : Bool := false
  modes : List Nat := modesR
  priv : Bool := false
  query : Bool := false
  /-- reserved bytes -/
  rsv : List (Nat × Nat) := []
  /-- enumerations: offset, size, number of defined values from 0 -/
  enums : List (Nat × Nat × Nat) := []
  /-- flag fields: offset, size, width of the defined low bits -/
  flags : List (Nat × Nat × Nat) := []
  /-- numeric fields: offset, size, least, greatest -/
  ranges : List (Nat × Nat × Nat × Nat) := []
  /-- aligned addresses: offset, alignment -/
  aligns : List (Nat × Nat) := []
  /-- offset of an indirect-buffer reference -/
  ibuf : Option Nat := none
  deriving DecidableEq, Repr

def csCreateCq : CmdSpec := { opcode := 0x0101, plen := 16, ranges := [(0x10, 2, 1, 1023), (0x12, 1, 4, 15), (0x13, 1, 0, 63)], flags := [(0x14, 4, 1)], aligns := [(0x18, 4096)] }
def csCreateSq : CmdSpec := { opcode := 0x0102, plen := 16, ranges := [(0x10, 2, 1, 1023), (0x12, 1, 4, 15), (0x13, 1, 1, 255), (0x14, 2, 1, 1023), (0x16, 1, 1, 64)], rsv := [(0x17, 1)], aligns := [(0x18, 4096)] }
def csDeleteSq : CmdSpec := { opcode := 0x0103, plen := 8, ranges := [(0x10, 2, 1, 1023)], rsv := [(0x12, 6)] }
def csDeleteCq : CmdSpec := { opcode := 0x0104, plen := 8, ranges := [(0x10, 2, 1, 1023)], rsv := [(0x12, 6)] }
def csSetWrr : CmdSpec := { opcode := 0x0105, plen := 8, ranges := [(0x10, 2, 1, 1023), (0x12, 1, 1, 255), (0x13, 1, 1, 64)], rsv := [(0x14, 4)] }
def csSetQuota : CmdSpec := { opcode := 0x0106, plen := 16, priv := true, ranges := [(0x10, 4, 1024, 131072), (0x14, 4, 1024, 131072), (0x18, 4, 1024, 131072), (0x1C, 4, 1024, 131072)] }
def csQueQuery : CmdSpec := { opcode := 0x0107, plen := 8, modes := modesA, query := true, ranges := [(0x10, 2, 1, 1023)], rsv := [(0x12, 6)] }
def csPortSet : CmdSpec := { opcode := 0x0201, plen := 8, long := true, ranges := [(0x10, 1, 0, 31), (0x14, 2, 1518, 9216)], enums := [(0x11, 1, 5), (0x12, 1, 4)], rsv := [(0x13, 1)], flags := [(0x16, 2, 2)] }
def csPortEnable : CmdSpec := { opcode := 0x0202, plen := 8, ranges := [(0x10, 1, 0, 31)], enums := [(0x11, 1, 2)], rsv := [(0x12, 6)] }
def csPortFilterSet : CmdSpec := { opcode := 0x0203, plen := 16, ranges := [(0x10, 1, 0, 31), (0x11, 1, 0, 15)], enums := [(0x12, 1, 2)], rsv := [(0x13, 1), (0x1A, 6)] }
def csPortEeeSet : CmdSpec := { opcode := 0x0204, plen := 8, ranges := [(0x10, 1, 0, 31)], rsv := [(0x11, 1), (0x14, 4)] }
def csPortRecal : CmdSpec := { opcode := 0x0205, plen := 8, long := true, ranges := [(0x10, 1, 0, 31)], flags := [(0x11, 1, 1)], rsv := [(0x12, 6)] }
def csPortQuery : CmdSpec := { opcode := 0x0206, plen := 8, modes := modesA, query := true, ranges := [(0x10, 1, 0, 31)], rsv := [(0x11, 7)] }
def csFldPortSet : CmdSpec := { opcode := 0x0210, plen := 32, ranges := [(0x10, 2, 0, 479)], enums := [(0x12, 1, 3)], rsv := [(0x13, 1)] }
def csFldAggLoad : CmdSpec := { opcode := 0x0211, plen := 24, long := true, ranges := [(0x10, 2, 0, 255)], rsv := [(0x12, 6)], ibuf := some 0x18 }
def csFldQuery : CmdSpec := { opcode := 0x0212, plen := 8, modes := modesA, query := true, ranges := [(0x10, 2, 0, 479)], rsv := [(0x12, 6)] }
def csTapeLoad : CmdSpec := { opcode := 0x0301, plen := 32, long := true, ranges := [(0x10, 1, 0, 31), (0x14, 2, 1, 1024)], rsv := [(0x11, 3), (0x16, 2)], ibuf := some 0x20 }
def csClassSet : CmdSpec := { opcode := 0x0302, plen := 8, ranges := [(0x10, 1, 0, 31), (0x11, 1, 0, 7), (0x14, 4, 100, 10000000)], enums := [(0x12, 1, 2)], rsv := [(0x13, 1)] }
def csCloseMode : CmdSpec := { opcode := 0x0303, plen := 8, ranges := [(0x10, 1, 0, 31)], enums := [(0x11, 1, 2)], rsv := [(0x12, 6)] }
def csFlowSet : CmdSpec := { opcode := 0x0304, plen := 16, ranges := [(0x10, 2, 0, 8191), (0x12, 1, 0, 31), (0x13, 1, 0, 7), (0x14, 2, 1, 65535), (0x18, 4, 1, 3125000), (0x1C, 4, 1, 16777216)], rsv := [(0x17, 1)] }
def csFlowDisable : CmdSpec := { opcode := 0x0305, plen := 8, ranges := [(0x10, 2, 0, 8191)], rsv := [(0x12, 6)] }
def csGateQuery : CmdSpec := { opcode := 0x0306, plen := 8, modes := modesA, query := true, ranges := [(0x10, 1, 0, 31)], rsv := [(0x11, 7)] }
def csSchQuery : CmdSpec := { opcode := 0x0307, plen := 8, modes := modesA, query := true, ranges := [(0x10, 2, 0, 8191)], rsv := [(0x12, 6)] }
def csTapeCancel : CmdSpec := { opcode := 0x0308, plen := 8, ranges := [(0x10, 1, 0, 31)], rsv := [(0x11, 7)] }
def csIdLoad : CmdSpec := { opcode := 0x0401, plen := 24, long := true, ranges := [(0x10, 2, 1, 16384)], rsv := [(0x12, 6)], ibuf := some 0x18 }
def csMeterSet : CmdSpec := { opcode := 0x0402, plen := 24, ranges := [(0x10, 2, 0, 8191), (0x14, 4, 0, 3125000), (0x18, 4, 0, 3125000), (0x1C, 4, 0, 16777216), (0x20, 4, 0, 16777216)], flags := [(0x12, 1, 2)], rsv := [(0x13, 1), (0x24, 4)] }
def csSeqgenSet : CmdSpec := { opcode := 0x0403, plen := 8, ranges := [(0x10, 2, 0, 2047), (0x12, 2, 0, 8191)], flags := [(0x14, 1, 2)], rsv := [(0x15, 3)] }
def csSeqrecSet : CmdSpec := { opcode := 0x0404, plen := 8, ranges := [(0x10, 2, 0, 4095)], enums := [(0x12, 1, 2)], flags := [(0x16, 1, 1)], rsv := [(0x17, 1)] }
def csStrmQuery : CmdSpec := { opcode := 0x0405, plen := 8, modes := modesA, query := true, enums := [(0x10, 1, 4)], rsv := [(0x11, 1), (0x14, 4)] }
def csDomainSet : CmdSpec := { opcode := 0x0501, plen := 8, ranges := [(0x10, 1, 0, 1), (0x11, 1, 0, 127)], enums := [(0x12, 1, 3)], rsv := [(0x13, 5)] }
def csTimeStep : CmdSpec := { opcode := 0x0502, plen := 8 }
def csRateSet : CmdSpec := { opcode := 0x0503, plen := 8, rsv := [(0x14, 4)] }
def csPpsSet : CmdSpec := { opcode := 0x0504, plen := 8, flags := [(0x10, 1, 2)], rsv := [(0x11, 1), (0x14, 4)], ranges := [(0x12, 2, 1, 65535)] }
def csTimeQuery : CmdSpec := { opcode := 0x0505, plen := 0, modes := modesA, query := true }
def csCastle : CmdSpec := { opcode := 0x0601, plen := 0, long := true, modes := [5, 6], priv := true }
def csSelftest : CmdSpec := { opcode := 0x0602, plen := 8, long := true, modes := [5, 6, 10], priv := true, enums := [(0x10, 1, 2)], rsv := [(0x11, 3)] }
def csResetStandby : CmdSpec := { opcode := 0x0603, plen := 0, modes := [5, 6, 9, 10], priv := true }
def csSideQuery : CmdSpec := { opcode := 0x0604, plen := 0, modes := modesA, query := true }
def csFabSet : CmdSpec := { opcode := 0x0701, plen := 8, enums := [(0x10, 1, 2), (0x11, 1, 2)], ranges := [(0x12, 2, 0, 4095)], rsv := [(0x14, 4)] }
def csRouteLoad : CmdSpec := { opcode := 0x0702, plen := 24, long := true, ranges := [(0x10, 2, 1, 4096)], rsv := [(0x12, 6)], ibuf := some 0x18 }
def csBypassSet : CmdSpec := { opcode := 0x0703, plen := 8, modes := modesA, ranges := [(0x10, 1, 0, 7)], enums := [(0x11, 1, 2)], rsv := [(0x12, 6)] }
def csFabQuery : CmdSpec := { opcode := 0x0704, plen := 0, modes := modesA, query := true }
def csNote : CmdSpec := { opcode := 0x0801, plen := 48, modes := modesA, enums := [(0x10, 1, 2)], ranges := [(0x11, 1, 0, 40)], rsv := [(0x12, 6)] }
def csChallenge : CmdSpec := { opcode := 0x0802, plen := 0, modes := modesA, priv := true }
def csRecClear : CmdSpec := { opcode := 0x0803, plen := 32, long := true, modes := modesA, priv := true, rsv := [(0x18, 8)], ibuf := some 0x20 }
def csRecQuery : CmdSpec := { opcode := 0x0804, plen := 0, modes := modesA, query := true }
def csFwQuery : CmdSpec := { opcode := 0x0901, plen := 0, modes := modesM, query := true }
def csFwWrite : CmdSpec := { opcode := 0x0902, plen := 24, long := true, modes := modesA, priv := true, enums := [(0x10, 1, 2)], ranges := [(0x11, 1, 0, 1)], rsv := [(0x12, 2)], ibuf := some 0x18 }
def csFwVerify : CmdSpec := { opcode := 0x0903, plen := 8, long := true, modes := modesA, priv := true, enums := [(0x10, 1, 2)], ranges := [(0x11, 1, 0, 1)], rsv := [(0x12, 6)] }
def csFwActivate : CmdSpec := { opcode := 0x0904, plen := 8, long := true, modes := [5, 6, 8, 9, 10, 11], priv := true, enums := [(0x10, 1, 2)], ranges := [(0x11, 1, 0, 1)], rsv := [(0x12, 6)] }
def csModeQuery : CmdSpec := { opcode := 0x0A01, plen := 0, modes := modesM, query := true }
def csModeStart : CmdSpec := { opcode := 0x0A02, plen := 8, long := true, modes := modesM, priv := true, enums := [(0x10, 1, 2)], rsv := [(0x11, 7)] }
def csConfigEnter : CmdSpec := { opcode := 0x0A03, plen := 0, long := true, modes := [4, 5, 6, 8], priv := true }
def csConfigExit : CmdSpec := { opcode := 0x0A04, plen := 0, long := true, modes := [3], priv := true }
def csSafeHold : CmdSpec := { opcode := 0x0A05, plen := 0, modes := modesA, priv := true }
def csResume : CmdSpec := { opcode := 0x0A06, plen := 0, long := true, modes := [11], priv := true }

/-- Every defined opcode. -/
def definedOpcodes : List Nat := [
  0x0101, 0x0102, 0x0103, 0x0104, 0x0105, 0x0106, 0x0107,
  0x0201, 0x0202, 0x0203, 0x0204, 0x0205, 0x0206, 0x0210, 0x0211, 0x0212,
  0x0301, 0x0302, 0x0303, 0x0304, 0x0305, 0x0306, 0x0307, 0x0308,
  0x0401, 0x0402, 0x0403, 0x0404, 0x0405, 0x0501, 0x0502, 0x0503, 0x0504, 0x0505,
  0x0601, 0x0602, 0x0603, 0x0604, 0x0701, 0x0702, 0x0703, 0x0704,
  0x0801, 0x0802, 0x0803, 0x0804, 0x0901, 0x0902, 0x0903, 0x0904,
  0x0A01, 0x0A02, 0x0A03, 0x0A04, 0x0A05, 0x0A06]

/-! ### Format (R53, R54, R56, R78) -/

/-- GEN_CHECK, DRY_RUN, NO_IRQ. -/
def genCheck (p : Packet) : Bool := p.flags.getLsbD 0
def dryRun (p : Packet) : Bool := p.flags.getLsbD 1
def noIrq (p : Packet) : Bool := p.flags.getLsbD 2

/-- The index of the group of an opcode: 0 for 0x01xx. -/
def groupOf (p : Packet) : Nat := p.opcode.toNat / 256 - 1

/-- Some PARAM byte from packet offset `off` up to `off + n` is nonzero. -/
def anyByte (p : Packet) (off n : Nat) : Bool := par p off n != 0

/-- Faults of the packet's own form. -/
def formFindings (c : CmdSpec) (p : Packet) : List Finding :=
  when (3 ≤ (p.flags.toNat.log2) && p.flags != 0) (fParam 0x02)
  ++ when (p.plen.toNat != c.plen) (fParam 0x08)
  ++ when (p.rsv != 0) (fParam 0x0A)
  ++ when (!genCheck p && p.expGen != 0) (fParam 0x0C)
  ++ when (anyByte p (0x10 + c.plen) (48 - c.plen)) (fParam (0x10 + c.plen))
  ++ c.rsv.flatMap (fun x => when (anyByte p x.1 x.2) (fParam x.1))
  ++ c.flags.flatMap (fun x => when (par p x.1 x.2.1 / 2 ^ x.2.2 != 0) (fParam x.1))
  ++ c.enums.flatMap (fun x => when (decide (x.2.2 ≤ par p x.1 x.2.1)) (fParam x.1))
  ++ c.aligns.flatMap (fun x => when (par p x.1 8 % x.2 != 0) (fParam x.1))
  ++ c.ranges.flatMap (fun x =>
      when (decide (par p x.1 x.2.1 < x.2.2.1) || decide (x.2.2.2 < par p x.1 x.2.1)) (fRange x.1))

/-- LEN of an indirect-buffer reference at `o`. -/
def ibLen (p : Packet) (o : Nat) : Nat := par p (o + 8) 4

/-- Faults of an indirect-buffer reference (R56). -/
def ibufFindings (p : Packet) (o : Nat) : List Finding :=
  when (par p o 8 % 8 != 0) (fParam o)
  ++ when (decide (ibLen p o < 8) || decide (16777216 < ibLen p o) || ibLen p o % 8 != 0) (fParam (o + 8))

/-- What reading an indirect buffer yields: its LEN bytes when it can be read and its CRC holds (R57). -/
def ibBytes (p : Packet) (o : Nat) (r : ReadEnd) : Option (List Byte) :=
  match r with
  | .data b => if crc32c (b.take (ibLen p o)) = par p (o + 12) 4 then some (b.take (ibLen p o)) else none
  | .fault _ => none

/-- The fault of the read itself (R57). -/
def ibReadFindings (p : Packet) (o : Nat) (r : ReadEnd) : List Finding :=
  match r with
  | .data b => when (crc32c (b.take (ibLen p o)) != par p (o + 12) 4) fIntegrity
  | .fault .dataErr => [fIntegrity]
  | .fault _ => [fBusError]

/-! ### Execution -/

/-- Who issues a command: a host through its admin queue, or the configuration load (R442). -/
structure Issuer where
  host : Nat
  cfg : Bool := false
  /-- the start monitor executes it (R52) -/
  mon : Bool := false
  deriving DecidableEq, Repr

/-- What executing a command makes: done with RESULT and whether it changed state, or started as a class L command. -/
inductive Act where
  | done (s : State) (result : Nat) (changed : Bool)
  | start (s : State) (op : LongOp) (changed : Bool := true)
  deriving DecidableEq, Repr

/-- What a row adds to the common rules: faults of the objects it names, and its effect. `List Byte` is the indirect
buffer's contents. -/
structure Body where
  check : Issuer → Packet → List Byte → State → List Finding := fun _ _ _ _ => []
  act : Issuer → Packet → List Byte → State → Act

/-- Generation of the command's group. -/
def genOf (s : State) (p : Packet) : W32 :=
  if groupOf p < 10 && p.opcode.toNat / 256 != 0 then tget 0 s.cmd.gens (groupOf p)
  else Config.undefinedGroupGen p.opcode

/-- The group's generation counts one (R55). -/
def bumpGen (p : Packet) (s : State) : State :=
  { s with cmd := { s.cmd with gens := tput 0 s.cmd.gens (groupOf p) (tget 0 s.cmd.gens (groupOf p) + 1) } }

/-- The admin queue state of a host. -/
def aqOf (s : State) (h : Nat) : AdminHost := tget {} s.cmd.hosts h

/-- Store it. -/
def putAq (s : State) (h : Nat) (a : AdminHost) : State :=
  { s with cmd := { s.cmd with hosts := tput {} s.cmd.hosts h a } }

/-- The start monitor alone serves commands (R52). -/
def monitor (s : State) : Bool := decide (s.glb.mode ≤ 2)

/-- Network time and time epoch as a command sees them: those that its own record carries, and the rim's own under the start monitor,
which keeps no record (R60, R383). DEDUCED, log entry 122. -/
def cmdNs (s : State) : Nat := if monitor s then netNs s else s.jrn.last.ns
def cmdEpoch (s : State) : BitVec 16 := if monitor s then s.time.epoch else s.jrn.last.epoch

/-- Operating time as a command sees it (R79). -/
def cmdOp (s : State) : Nat := if monitor s then s.time.optime else s.jrn.last.op

/-- CMD_READY.READY (R52, R456). -/
def cmdReady (s : State) : Bool := !(s.glb.mode == 11 && s.sides.holder.isNone)

/-- The mode at this place of Scoresheet order: the rim's, with the mode changes of the sets that wait (R71). -/
def modeSeen (s : State) : Nat :=
  (waitingWrites s).foldl (fun m w => match w with
    | .mode n => if n = 3 || n = 4 then n else if m = 4 then serviceMode s else m
    | .safeHold => if 3 ≤ m then 11 else m
    | .resume _ => if m = 11 then 4 else m
    | .startCold => 1
    | .startWarm => 2
    | _ => m) s.glb.mode

/-- The issuer lacks the permission for a command (R76, R77). -/
def lacksPerm (c : CmdSpec) (who : Issuer) (p : Packet) (s : State) : Bool :=
  !who.cfg && ((!c.query && regFld s .cmdPerm [who.host] (groupOf p) 1 == 0) || (c.priv && s.cmd.priv != who.host))

/-- Every fault that applies to a command (R62, R70, R71, R76, R77). -/
def findings (c : CmdSpec) (b : Body) (who : Issuer) (p : Packet) (ib : ReadEnd) (s : State) : List Finding :=
  if p.opcode.toNat ≠ c.opcode then [fOpcode]
  else
    if lacksPerm c who p s then [fDenied]
    else
      let mode := if who.cfg then 3 else modeSeen s
      let content := match c.ibuf with
        | none => b.check who p [] s
        | some o => ibufFindings p o ++ ibReadFindings p o ib
          ++ (match ibBytes p o ib with
              | some l => b.check who p l s
              | none => b.check who p [] s)
      formFindings c p ++ when (!c.modes.contains mode) fState
        ++ when (!c.query && (tfind s.cmd.running (groupOf p)).isSome && !(c.opcode == 0x0A02)) fBusy
        ++ when (genCheck p && p.expGen != genOf s p) fStale ++ content

/-- Count a command's status (R82, R53) and raise CMD_REFUSED and CMD_DENIED. -/
def countStatus (who : Issuer) (p : Packet) (f : Option Finding) (s : State) : State :=
  match f with
  | none => count .cmdAqCnt [who.host] 0 1 s
  | some f =>
    let s := count .cmdAqCnt [who.host] 16 1 s
    let s := putAq s who.host { aqOf s who.host with lastStatus := f.status, lastOpcode := p.opcode }
    let ev := fun n s => if who.mon then raise n s else raiseS n s
    let s := ev (evCmdRefused who.host) s
    if f.rank = 2 then ev (evCmdDenied who.host) s else s

/-- The status packet falls due (R59, R66). -/
def dueStatus (who : Issuer) (p : Packet) (status off result : Nat) (gen : W32) (epoch head : BitVec 16) (s : State) : State :=
  let pkt : StatusPkt := { tag := p.tag, opcode := p.opcode, status := status, asqHead := head, epoch := epoch
                           detail := w32 off, result := BitVec.ofNat 96 result, gen := gen, noIrq := noIrq p }
  { s with cmd := { s.cmd with
      dueStatus := s.cmd.dueStatus ++ [{ move := s.jrn.move, host := who.host, mon := who.mon, pkt := pkt }] } }

/-- The end of a command that is decided at its execution. -/
def reply (who : Issuer) (p : Packet) (f : Option Finding) (result : Nat) (s : State) : State :=
  if who.cfg then s
  else
    let s := if dryRun p then s else countStatus who p f s
    dueStatus who p ((f.map (·.status)).getD stOk) ((f.map (·.off)).getD 0xFFFF) result (genOf s p) (cmdEpoch s)
      (aqOf s who.host).head s

/-! ### Privileged channels (R161, R171, R181) -/

/-- A channel. -/
def chanOf (s : State) (c : Nat) : ChanSt := tget {} s.dma.chans c
/-- Store it. -/
def putChan (s : State) (c : Nat) (x : ChanSt) : State := { s with dma := { s.dma with chans := tput {} s.dma.chans c x } }

/-- The status of an end code (R171). -/
def endStatusOf (code : Nat) : Nat :=
  if code = 0 || code = 0x0B then stOk
  else if code = 4 then stDenied
  else if code = 9 then stIntegrity
  else if code = 0x0C then stResetAbort
  else if code = 1 || code = 2 || code = 3 || code = 5 then stBadParam
  else stBusError

/-- The end code of a bus error. -/
def busCode : BusErr → Nat
  | .readErr => 6
  | .writeErr => 7
  | .cplTimeout => 8
  | .dataErr => 9

/-- The chain ends with a code at descriptor `i`. -/
def chanEnd (x : ChanSt) (code i : Nat) : ChanSt :=
  { x with phase := .ended, endCode := code, endStatus := endStatusOf code, endIdx := i, buf := [], offs := [] }

/-- A bus error on a privileged channel ends its operation, latches the fault and halts it (R181). -/
def pchError (c code : Nat) (dir : Bool) (addr : BitVec 64) (space h : Nat) (s : State) : State :=
  let x := chanOf s c
  let l := tget {} s.dma.pch c
  let l := if l.err then { l with later := min 255 (l.later + 1) }
    else { addr := addr, dir := dir, host := h, space := space, code := code, err := true }
  let s := putChan s c { chanEnd x code x.cur with halted := true, haltMove := s.jrn.move, kind := .idle }
  raiseS evPchHalt { s with dma := { s.dma with pch := tput {} s.dma.pch c l } }

/-- Count of a chain that firmware builds (R168). -/
abbrev fwCount : Nat := 256

/-- A firmware chain on a privileged channel has ended with a code, `n` bytes moved: DONE at the index COUNT - 1 (R168, R171). -/
def pchOver (c code n : Nat) (s : State) : State :=
  let x := chanOf s c
  let i := if code = 0 then fwCount - 1 else x.cur
  putChan s c { chanEnd x code i with kind := .idle, cur := i, pos := n }

/-- It has ended well. -/
def pchDone (c n : Nat) (s : State) : State := pchOver c 0 n s

/-- Channel 0 has read the indirect buffer of a command, where one was read at all (R57, R181). -/
def ibChannel (c : CmdSpec) (who : Issuer) (p : Packet) (ib : ReadEnd) (s : State) : State :=
  match c.ibuf with
  | some o =>
    if who.cfg || p.opcode.toNat != c.opcode || lacksPerm c who p s then s
    else match ib with
      | .data b => pchDone 0 b.length s
      | .fault e => pchError 0 (busCode e) false (BitVec.ofNat 64 (par p o 8)) 0 who.host s
  | none => s

/-- The outcome that a configuration item had at once: refused, done, or running (R442). -/
inductive ItemEnd where
  | refused
  | done
  | running
  deriving DecidableEq, Repr

/-- A side's flash. -/
def flashOf (s : State) (d : SideId) : Flash :=
  match d with
  | .white => s.flashW
  | .black => s.flashB

/-- Store it. -/
def putFlash (s : State) (d : SideId) (f : Flash) : State :=
  match d with
  | .white => { s with flashW := f }
  | .black => { s with flashB := f }

/-- The flash that a command's work writes. -/
def flashBefore (op : LongOp) (s : State) : Option Flash :=
  match op with
  | .fwWrite d _ _ _ => some (flashOf s d)
  | _ => none

/-- A command that has begun from the state `old`, and whose indirect buffer a replay would read again, is noted until its Move
commits (R58). -/
def noteIb (c : CmdSpec) (who : Issuer) (p : Packet) (r : Running) (old s : State) : State :=
  if c.ibuf.isSome && !who.cfg && !who.mon then
    { s with cmd := { s.cmd with ibCmds := s.cmd.ibCmds ++ [
        { move := r.move, host := r.host, pkt := p, asqHead := r.asqHead, epoch := r.epoch, nonce := old.cmd.nonce
          flash := flashBefore r.op old
          onCrc := (stIntegrity, fIntegrity.off), onBus := (stBusError, fBusError.off) }] } }
  else s

/-- The same of one that was refused, or ran dry: with its other faults, what it has where the buffer does not serve (R58, R64). -/
def noteOther (c : CmdSpec) (b : Body) (who : Issuer) (p : Packet) (ib : ReadEnd) (kind : IbKind) (s : State) : State :=
  if c.ibuf.isSome && !who.cfg && !who.mon && p.opcode.toNat == c.opcode && !lacksPerm c who p s then
    match worst (findings c b who p (.fault .dataErr) s), worst (findings c b who p (.fault .readErr) s) with
    | some f, some g =>
      { s with cmd := { s.cmd with ibCmds := s.cmd.ibCmds ++ [
          { move := s.jrn.move, host := who.host, pkt := p, asqHead := (aqOf s who.host).head, epoch := cmdEpoch s, kind := kind
            byRead := (ibReadFindings p (c.ibuf.getD 0) ib).any (fun x => worst (findings c b who p ib s) == some x)
            onCrc := (f.status, f.off), onBus := (g.status, g.off) }] } }
    | _, _ => s
  else s

/-- Execute one command: check it, then refuse it, do it, or start it (R62 to R72). -/
def perform (c : CmdSpec) (b : Body) (who : Issuer) (p : Packet) (ib : ReadEnd) (s : State) : State × ItemEnd :=
  let f := worst (findings c b who p ib s)
  let dry := dryRun p && !c.query
  let s := if dry then s else ibChannel c who p ib s
  match f with
  | some f => (reply who p (some f) 0 (noteOther c b who p ib (if dry then .dry else .refused) s), .refused)
  | none =>
    let l := (c.ibuf.bind (fun o => ibBytes p o ib)).getD []
    if dry then (reply who p none 0 (noteOther c b who p ib .dry s), .done)
    else match b.act who p l s with
      | .done s' result changed =>
        (reply who p none result (if changed && !c.query then bumpGen p s' else s'), .done)
      | .start s' op changed =>
        let r : Running := { host := who.host, pkt := p, asqHead := (aqOf s who.host).head, epoch := cmdEpoch s,
                             gen := genOf s p, op := op, changes := changed, move := s.jrn.move, cfg := who.cfg, mon := who.mon }
        (noteIb c who p r s { s' with cmd := { s'.cmd with running := tset s'.cmd.running (groupOf p) r } }, .running)

/-- A command changes a side object that no entry sees before its Move has committed (R63, R552). -/
def touch (o : Obj) (s : State) : State :=
  { s with cmd := { s.cmd with fresh := s.cmd.fresh.filter (fun x => !sideCommit s x.1) ++ [(s.jrn.move, o)] } }

/-- A side takes the last change of an object as committed (R63, R552). -/
def settled (s : State) (o : Obj) : Bool := s.cmd.fresh.all (fun x => x.2 != o || sideCommit s x.1)

/-- An event that a side decides, or the start monitor where it executes (R52, R551). -/
def raiseAct (src : Nat) (s : State) : State := if monitor s then raise src s else raiseS src s

/-! ### Tags and places (R119, R144, R146) -/

/-- Key of a queue of a host. -/
def qkey (h q : Nat) : Nat := h * 1024 + q

/-- An SQ that exists, as the active side holds it. -/
def sqOf (s : State) (h q : Nat) : Option Sq := (tfind s.que.sqs (qkey h q)).filter (fun x => !x.gone)

/-- A CQ that exists, as the active side holds it. -/
def cqOf (s : State) (h c : Nat) : Option Cq := (tfind s.que.cqs (qkey h c)).filter (fun x => !x.gone)

/-- An SQ whose doorbell page the rim holds (R65, R124). -/
def pageOf (s : State) (h q : Nat) : Option Sq :=
  match tfind s.que.oldSqs (qkey h q) with
  | some x => some x
  | none => (tfind s.que.sqs (qkey h q)).filter (fun x => x.page)

/-- A CQ that the rim holds (R65). -/
def cqPageOf (s : State) (h c : Nat) : Option Cq :=
  match tfind s.que.oldCqs (qkey h c) with
  | some x => some x
  | none => (tfind s.que.cqs (qkey h c)).filter (fun x => x.page)

/-- Store an SQ. -/
def putSq (s : State) (h q : Nat) (x : Sq) : State :=
  { s with que := { s.que with sqs := tset s.que.sqs (qkey h q) x } }

/-- Store a CQ. -/
def putCq (s : State) (h c : Nat) (x : Cq) : State :=
  { s with que := { s.que with cqs := tset s.que.cqs (qkey h c) x } }

/-- Store an SQ as the rim holds it. -/
def putPage (s : State) (h q : Nat) (x : Sq) : State :=
  if (tfind s.que.oldSqs (qkey h q)).isSome then { s with que := { s.que with oldSqs := tset s.que.oldSqs (qkey h q) x } }
  else putSq s h q x

/-- Store a CQ as the rim holds it. -/
def putCqPage (s : State) (h c : Nat) (x : Cq) : State :=
  if (tfind s.que.oldCqs (qkey h c)).isSome then { s with que := { s.que with oldCqs := tset s.que.oldCqs (qkey h c) x } }
  else putCq s h c x

/-- An SQ is made over one that the rim has still to forget: the rim keeps that one until its set (R63, R65). -/
def keepPage (h q : Nat) (s : State) : State :=
  match (tfind s.que.sqs (qkey h q)).filter (fun x => x.page && x.gone) with
  | some x => { s with que := { s.que with oldSqs := tset s.que.oldSqs (qkey h q) x } }
  | none => s

/-- The same of a CQ. -/
def keepCqPage (h c : Nat) (s : State) : State :=
  match (tfind s.que.cqs (qkey h c)).filter (fun x => x.page && x.gone) with
  | some x => { s with que := { s.que with oldCqs := tset s.que.oldCqs (qkey h c) x } }
  | none => s

/-- Slots of a ring (R119). -/
def ringSize (log2 : Nat) : Nat := 2 ^ log2

/-- Places of a CQ (R146). -/
def cqPlaces (c : Cq) : Nat := ringSize c.sizeLog2 + 65536

/-- Status packets of a host's admin CQ that its release has not freed, and commands that will give one. -/
def adminOut (s : State) (h : Nat) : Nat :=
  (s.cmd.dueStatus.filter (fun d => d.host == h)).length
  + (s.cmd.running.filter (fun r => r.2.host == h && !r.2.cfg && !r.2.dead)).length
  + (match cqOf s h 0 with
     | some c => c.slots.length + c.ovf.length
     | none => 0)

/-- Places of a CQ that are reserved: for the admin CQ, one for each status packet. -/
def resvOf (s : State) (h c : Nat) (x : Cq) : Nat := if c = 0 then adminOut s h else x.resv

/-- Every place of a CQ is reserved. -/
def cqFull (s : State) (h c : Nat) (x : Cq) : Bool := decide (cqPlaces x ≤ resvOf s h c x)

/-- Operation tags that a host holds (R144). -/
def tagsHeld (s : State) (h : Nat) : Nat :=
  (s.que.ops.filter (fun o => o.2.host == h)).length + adminOut s h

/-- The tag quota of a host. -/
def quotaOf (s : State) (h : Nat) : Nat := s.que.quota.getD h 32768

/-- A tag and a place of the admin CQ are there for a host's next command (R50, R144, R146). -/
def adminRoom (s : State) (h : Nat) : Bool :=
  decide (tagsHeld s h < quotaOf s h - 16)
    && (match cqOf s h 0 with
        | some c => !cqFull s h 0 c
        | none => true)

/-! ### Consuming a command -/

/-- This is the first command in Scoresheet order, it has its tag and place, and something executes it now: the start
monitor, or the active side with room in the Move (R52, R68, R69, R144). DEDUCED, log entries 8 and 72. -/
def adminDue (h : Host) (p : Packet) (s : State) : Bool :=
  (s.cmd.waiting.head?.map (fun w => (w.1, w.2.1))) == some (h.val, p) && adminRoom s h.val && cmdReady s
    && (monitor s || (consuming s && decide (s.cmd.shortInMove < 64)))

/-- The command's indirect buffer can be read now, or it reads none: a halted channel, or a link or Bus Master Enable that does
not allow the read, holds the command back (R57, R181, R518). -/
def ibReady (c : CmdSpec) (who : Issuer) (p : Packet) (s : State) : Bool :=
  c.ibuf.isNone || p.opcode.toNat != c.opcode || lacksPerm c who p s || (hostOk s who.host && !(chanOf s 0).halted)

/-- A row acts on a packet that carries its opcode, or on one whose opcode nothing defines. DESIGN CHOICE, log entry 62. -/
def rowTakes (c : CmdSpec) (p : Packet) : Bool :=
  p.opcode.toNat == c.opcode || !definedOpcodes.contains p.opcode.toNat

/-- The last place of a host's admin CQ is taken for a status packet: QUE_CQ_FULL (R50, R146). -/
def adminPlace (h : Nat) (s : State) : State :=
  match cqOf s h 0 with
  | some c =>
    if decide (cqPlaces c ≤ adminOut s h + 1) && !c.fullSeen then
      raiseAct (evCqFull h) (putCq s h 0 { c with fullSeen := true })
    else s
  | none => s

/-- The time of the record of a host's first waiting command. -/
def cmdStamp (h : Nat) (s : State) : Stamp := ((s.cmd.waiting.find? (fun w => w.1 == h)).map (·.2.2)).getD s.jrn.last

/-- The admin SQ advances past the command (R59, R64), which is decided as of the time of its record (R60, R383). -/
def consumeAdmin (h : Host) (s : State) : State :=
  let s := { adminPlace h.val s with jrn := { (adminPlace h.val s).jrn with last := cmdStamp h.val s } }
  let s := { s with cmd := { s.cmd with
    waiting := s.cmd.waiting.eraseP (fun w => w.1 == h.val), shortInMove := s.cmd.shortInMove + 1 } }
  putAq s h.val { aqOf s h.val with head := (aqOf s h.val).head + 1 }

/-- Take the command at the head of Scoresheet order and execute it. -/
def runAdmin (c : CmdSpec) (b : Body) (h : Host) (p : Packet) (ib : ReadEnd) (s : State) : State :=
  let who : Issuer := { host := h.val, mon := monitor s }
  if adminDue h p s && rowTakes c p && ibReady c who p s then resume s (perform c b who p ib (consumeAdmin h s)).1 else s

/-- A class L command ends: its status, its generation, its counts (R55, R66, R69). DEDUCED, log entry 10. -/
def endLong (g : Nat) (status result : Nat) (s : State) : State :=
  match tfind s.cmd.running g with
  | none => s
  | some r =>
    let s := { s with cmd := { s.cmd with
      running := tdel s.cmd.running g
      ibCmds := s.cmd.ibCmds.map (fun x =>
        if x.host = r.host && x.asqHead = r.asqHead && x.kind = .began then
          { x with ended := true, setNo := s.jrn.setNo, bumped := status = stOk && r.changes, done := status = stOk }
        else x) } }
    let s := if status = stOk && r.changes then bumpGen r.pkt s else s
    if r.cfg || r.dead then s
    else
      let who : Issuer := { host := r.host, mon := r.mon }
      let f : Option Finding := if status = stOk then none else some { rank := 10, status := status }
      let s := countStatus who r.pkt f s
      dueStatus who r.pkt status 0xFFFF result (if g = 5 && status != stOk then r.gen else genOf s r.pkt) r.epoch r.asqHead s

end Sys2Proof.Machine
end

