-- ==== Sys2Proof/Machine/Streams.lean ====
section
/-!
DEFINITION. Machine/Streams.lean: stream identification, policing and sequence functions (R292 to R318) and the commands
of group 0x04.
-/

namespace Sys2Proof.Machine

/-! ### Frames -/

/-- VLAN tags counted in a frame (R265): 0 to 2. -/
def tagCount (f : List Byte) : Nat :=
  let isTag := fun o => beAt f o 2 == 0x8100 || beAt f o 2 == 0x88A8
  if isTag 12 then (if isTag 16 then 2 else 1) else 0

/-- Offset of the EtherType field that follows the counted tags. -/
def typeOff (f : List Byte) : Nat := 12 + 4 * tagCount f

/-- The R-TAG's sequence number, where the frame has one (R308). -/
def rtagOf (f : List Byte) : Option (BitVec 16) :=
  if beAt f (typeOff f) 2 = 0xF1C1 then some (BitVec.ofNat 16 (beAt f (typeOff f + 4) 2)) else none

/-- A destination with the group bit. -/
def isGroup (f : List Byte) : Bool := byteAt f 0 % 2 == 1

/-- The broadcast destination. -/
def isBroadcast (f : List Byte) : Bool := beAt f 0 6 == 0xFFFFFFFFFFFF

/-- VID of the outer counted tag; 0 for an untagged frame. -/
def outerVid (f : List Byte) : Nat := if tagCount f = 0 then 0 else beAt f 14 2 % 4096

/-- DEI of the outer counted tag. -/
def outerDei (f : List Byte) : Bool := tagCount f != 0 && bitN (beAt f 14 2) 12

/-- Offset of the EtherType that names the payload, past the counted tags and any R-TAG. -/
def l3Type (f : List Byte) : Nat := if (rtagOf f).isSome then typeOff f + 6 else typeOff f

/-! ### The identification table (R293 to R296) -/

/-- A field of an entry: `n` bytes at `off`, little-endian. -/
def ent (e : BitVec 512) (off n : Nat) : Nat := bitsN e.toNat (8 * off) (8 * n)

def entMethod (e : BitVec 512) : Nat := ent e 0 1
/-- Bit `b` of FLAGS. -/
def entFlag (e : BitVec 512) (b : Nat) : Bool := bitN (ent e 1 1) b
def entHandle (e : BitVec 512) : Nat := ent e 2 2
def entTx (e : BitVec 512) : Bool := entFlag e 0
def isRx (e : BitVec 512) : Bool := entMethod e != 0 && !entTx e
def isTx (e : BitVec 512) : Bool := entMethod e == 5 && entTx e
/-- FLOW of a transmit entry. -/
def entFlow (e : BitVec 512) : Nat := bitsN (ent e 4 4) 0 13
/-- The replica flow queues of a transmit entry. -/
def entRepl (e : BitVec 512) : List Nat := [ent e 0x38 2, ent e 0x3A 2, ent e 0x3C 2].filter (· != 0xFFFF)

/-- The entries that a buffer holds. -/
def entries512 : Nat → List Byte → List (BitVec 512)
  | 0, _ => []
  | n + 1, l => BitVec.ofNat 512 (leVal (l.take 64)) :: entries512 n (l.drop 64)

/-- A layer 3 field matches unless its WILD bit is set. -/
def wildOr (e : BitVec 512) (b : Nat) (c : Bool) : Bool := bitN (ent e 0x36 1) b || c

/-- Next-header values that name an IPv6 extension header. -/
def isExtHdr (n : Nat) : Bool := [0, 43, 44, 50, 51, 60, 135, 139, 140].contains n

/-- The key of METHOD 3: an IPv4 header after the tags, in the frame without its FCS (R294). -/
def matchV4 (e : BitVec 512) (b : List Byte) : Bool :=
  let f := b.take (b.length - 4)
  let o := l3Type f + 2
  let ihl := byteAt f o % 16 * 4
  let proto := byteAt f (o + 9)
  let frag := beAt f (o + 6) 2 % 8192 != 0
  let hasPorts := !frag && (proto == 6 || proto == 17 || proto == 132)
  beAt f (l3Type f) 2 == 0x0800 && decide (o + 20 ≤ f.length) && byteAt f o / 16 == 4
    && wildOr e 0 (leAt f (o + 12) 4 == ent e 0x10 16) && wildOr e 1 (leAt f (o + 16) 4 == ent e 0x20 16)
    && wildOr e 2 (byteAt f (o + 1) / 4 == ent e 0x30 1) && wildOr e 3 (proto == ent e 0x31 1)
    && wildOr e 4 (hasPorts && beAt f (o + ihl) 2 == ent e 0x32 2)
    && wildOr e 5 (hasPorts && beAt f (o + ihl + 2) 2 == ent e 0x34 2)

/-- The key of METHOD 4: an IPv6 header after the tags, in the frame without its FCS (R294). -/
def matchV6 (e : BitVec 512) (b : List Byte) : Bool :=
  let f := b.take (b.length - 4)
  let o := l3Type f + 2
  let proto := byteAt f (o + 6)
  let hasPorts := !isExtHdr proto && (proto == 6 || proto == 17 || proto == 132)
  beAt f (l3Type f) 2 == 0x86DD && decide (o + 40 ≤ f.length) && byteAt f o / 16 == 6
    && wildOr e 0 (leAt f (o + 8) 16 == ent e 0x10 16) && wildOr e 1 (leAt f (o + 24) 16 == ent e 0x20 16)
    && wildOr e 2 (bitsN (beAt f o 2) 6 6 == ent e 0x30 1) && wildOr e 3 (proto == ent e 0x31 1)
    && wildOr e 4 (hasPorts && beAt f (o + 40) 2 == ent e 0x32 2)
    && wildOr e 5 (hasPorts && beAt f (o + 42) 2 == ent e 0x34 2)

/-- A receive entry matches a frame of port `p` (R294). -/
def entMatches (e : BitVec 512) (p : Nat) (f : List Byte) : Bool :=
  isRx e && bitN (ent e 4 4) p && (entFlag e 1 || outerVid f == ent e 8 2)
    && (if entMethod e = 1 then leAt f 0 6 == ent e 0x0A 6
        else if entMethod e = 2 then leAt f 6 6 == ent e 0x0A 6
        else if entMethod e = 3 then matchV4 e f else matchV6 e f)

/-- The entry that identifies a received frame: the lowest index (R294). -/
def identify (t : List (BitVec 512)) (p : Nat) (f : List Byte) : Option (BitVec 512) := t.find? (fun e => entMatches e p f)

/-- The table in force: a load applies after its commit-point Move (R297). -/
def tableNow (s : State) : List (BitVec 512) :=
  (((s.strm.loads.filter (fun x => decide (x.1 < s.jrn.move))).getLast?).map (·.2)).getD s.strm.table

/-- The table as submission entries find it: a load shows once its Move has committed (R63, R552). -/
def tableSettled (s : State) : List (BitVec 512) :=
  (((s.strm.loads.filter (fun x => sideCommit s x.1)).getLast?).map (·.2)).getD s.strm.table

/-- The transmit entry of a flow queue (R295). -/
def txEntry (s : State) (flow : Nat) : Option (BitVec 512) := (tableSettled s).find? (fun e => isTx e && entFlow e == flow)

/-- One STRM_SEQGEN_SET: the number is kept unless it is reset (R303). -/
def setGen (t : Tab SeqGen) (x : Nat × Nat × Bool × Nat × Bool) : Tab SeqGen :=
  let g := tget {} t x.2.1
  tput {} t x.2.1 { g with en := x.2.2.1, handle := x.2.2.2.1, next := if x.2.2.2.2 then 0 else g.next }

/-- The generation functions as frames find them: a change shows once its Move has committed (R63, R552). -/
def gensNow (s : State) : Tab SeqGen := (s.strm.newGens.filter (fun x => sideCommit s x.1)).foldl setGen s.strm.gens

/-- The same with every change executed, as commands and registers show them (R68). -/
def gensSet (s : State) : Tab SeqGen := s.strm.newGens.foldl setGen s.strm.gens

/-- The committed changes are taken over. -/
def settleGens (s : State) : State :=
  { s with strm := { s.strm with gens := gensNow s, newGens := s.strm.newGens.filter (fun x => !sideCommit s x.1) } }

/-- The enabled generation function bound to a handle (R303). -/
def genFor (s : State) (handle : Nat) : Option (Nat × SeqGen) := (gensNow s).find? (fun g => g.2.en && g.2.handle == handle)

/-- The enabled generation function of a flow's frames. -/
def genOfFlow (s : State) (flow : Nat) : Option (Nat × SeqGen) := (txEntry s flow).bind (fun e => genFor s (entHandle e))

/-- Bytes that the R-TAG of a flow's frames adds (R307). -/
def rtagLen (s : State) (flow : Nat) : Nat := if (genOfFlow s flow).isSome then 6 else 0

/-- Faults of one table entry (R293, R296). -/
def entFindings (e : BitVec 512) : List Finding :=
  let m := entMethod e
  if m = 0 then when (e != 0) (fParam 0x18)
  else if entTx e then
    when (m != 5) (fParam 0x18)
    ++ when (ent e 1 1 / 2 != 0 || ent e 4 4 / 8192 != 0 || ent e 8 2 / 4096 != 0 || ent e 0x0A 6 != 0
        || ent e 0x10 16 != 0 || ent e 0x20 16 != 0 || ent e 0x30 1 / 64 != 0 || ent e 0x36 1 / 64 != 0
        || ent e 0x37 1 != 0 || ent e 0x3E 2 != 0) (fParam 0x18)
    ++ when (decide (8191 < entHandle e)) (fRange 0x18)
    ++ (entRepl e).flatMap (fun r => when (decide (8191 < r)) (fRange 0x18))
  else
    when (decide (5 ≤ m)) (fParam 0x18)
    ++ when (entFlag e 7 || ent e 8 2 / 4096 != 0 || (entFlag e 1 && ent e 8 2 != 0) || ent e 0x30 1 / 64 != 0
        || ent e 0x36 1 / 64 != 0 || ent e 0x3E 2 / 4096 != 0 || (decide (3 ≤ m) && ent e 0x0A 6 != 0)
        || (decide (m ≤ 2) && (ent e 0x10 16 != 0 || ent e 0x20 16 != 0))
        || (m == 3 && (ent e 0x14 12 != 0 || ent e 0x24 12 != 0)) || (!entFlag e 3 && ent e 0x3A 2 != 0)) (fParam 0x18)
    ++ when (decide (8191 < entHandle e) || (ent e 0x38 2 != 0 && (decide (ent e 0x38 2 < 64) || decide (16383 < ent e 0x38 2)))
        || decide (8191 < ent e 0x3A 2) || (decide (4095 < ent e 0x3C 2) && ent e 0x3C 2 != 0xFFFF)) (fRange 0x18)

/-- Two entries that may not stand together (R296). -/
def entClash (a b : BitVec 512) : Bool :=
  (isTx a && isTx b && entFlow a == entFlow b)
  || (((isTx a && isRx b) || (isRx a && isTx b)) && entHandle a == entHandle b)
  || (isRx a && isRx b && ent a 0x3C 2 != 0xFFFF && ent a 0x3C 2 == ent b 0x3C 2
      && (entHandle a != entHandle b || ent a 0x3E 2 != ent b 0x3E 2))

/-- Some pair of the table clashes. -/
def anyClash : List (BitVec 512) → Bool
  | [] => false
  | e :: es => es.any (entClash e) || anyClash es

def bodyIdLoad : Body where
  check _ p l _ :=
    let t := entries512 (l.length / 64) l
    when (ibLen p 0x18 != par p 0x10 2 * 64) (fParam 0x20) ++ t.flatMap entFindings ++ when (anyClash t) (fParam 0x18)
  act _ p l s :=
    let t := entries512 (par p 0x10 2) l
    .start s (.idLoad t) ((((s.strm.loads.getLast?).map (·.2)).getD s.strm.table) != t)

/-- STRM_ID_LOAD. -/
def execStrmIdLoad (h : Host) (p : Packet) (ib : ReadEnd) (s : State) : Out := .next (runAdmin csIdLoad bodyIdLoad h p ib s)

/-! ### Meters (R300, R301) -/

/-- The meter of a number. -/
def meterOf (s : State) (m : Nat) : Meter := tget {} s.strm.meters m

/-- Rate ticks up to `us` (R300). Overflow of TC goes to TE in a coupled meter. -/
def meterTicks (m : Meter) (us : Nat) : Meter :=
  let n := us - m.upTo
  let raw := m.tc + n * m.cir
  let cap := m.cbs * 1000
  let ovf := raw - cap
  { m with tc := min raw cap, te := min (m.te + n * m.eir + (if m.coupled then ovf else 0)) (m.ebs * 1000)
           upTo := max us m.upTo }

/-- The color of a frame of length `len`: 0 green, 1 yellow, 2 red (R300). -/
def meterFrame (m : Meter) (us len : Nat) (dei : Bool) : Meter × Nat :=
  let m := meterTicks m us
  if !(m.aware && dei) && decide (len * 1000 ≤ m.tc) then ({ m with tc := m.tc - len * 1000 }, 0)
  else if len * 1000 ≤ m.te then ({ m with te := m.te - len * 1000 }, 1)
  else (m, 2)

/-- A meter's levels as they stand now. -/
def meterNow (s : State) (m : Nat) : Meter := meterTicks (meterOf s m) (eventEl s / 1000)

def bodyMeterSet : Body where
  act _ p _ s :=
    let m : Meter := { aware := bitN (par p 0x12 1) 0, coupled := bitN (par p 0x12 1) 1, cir := par p 0x14 4,
                       eir := par p 0x18 4, cbs := par p 0x1C 4, ebs := par p 0x20 4, tc := par p 0x1C 4 * 1000,
                       te := par p 0x20 4 * 1000, upTo := eventEl s / 1000 }
    .done { s with strm := { s.strm with meters := tput {} s.strm.meters (par p 0x10 2) m } } 0 (meterNow s (par p 0x10 2) != m)

/-- STRM_METER_SET. -/
def execStrmMeterSet (h : Host) (p : Packet) (s : State) : Out := .next (runAdmin csMeterSet bodyMeterSet h p (.data []) s)

/-! ### Sequence generation (R303, R304) -/

def bodySeqgenSet : Body where
  check _ p _ s := when ((gensSet s).any (fun g => g.2.en && g.2.handle == par p 0x12 2 && g.1 != par p 0x10 2))
    (fStateAt 0x12)
  act _ p _ s :=
    let x := (s.jrn.move, par p 0x10 2, bitN (par p 0x14 1) 0, par p 0x12 2, bitN (par p 0x14 1) 1)
    .done { s with strm := { s.strm with newGens := s.strm.newGens ++ [x] } } 0
      (tget {} (gensSet s) x.2.1 != tget {} (setGen (gensSet s) x) x.2.1)

/-- STRM_SEQGEN_SET. -/
def execStrmSeqgenSet (h : Host) (p : Packet) (s : State) : Out := .next (runAdmin csSeqgenSet bodySeqgenSet h p (.data []) s)

/-- A generated frame of a flow takes the next sequence number (R304). -/
def takeSeq (flow : Nat) (s : State) : State × Option Nat :=
  let s := settleGens s
  match genOfFlow s flow with
  | none => (s, none)
  | some (g, x) =>
    (count .strmGCount [g] 0 1
      { s with strm := { s.strm with gens := tput {} s.strm.gens g { x with next := x.next + 1 } } }, some x.next.toNat)

/-! ### Sequence recovery (R308 to R311) -/

/-- What a recovery function made of a frame: whether it passes, and what it counts. -/
structure RecEnd where
  pass : Bool := false
  passed : Nat := 0
  discarded : Nat := 0
  outOfOrder : Nat := 0
  rogue : Nat := 0
  lost : Nat := 0
  deriving DecidableEq, Repr

/-- Zeros among bits `lo` up to `lo + n` of a history. -/
def zerosFrom (h : BitVec 128) (lo : Nat) : Nat → Nat
  | 0 => 0
  | n + 1 => zerosFrom h lo n + b2n (!h.getLsbD (lo + n))

/-- d = s − RECOV_SEQ as a signed 16-bit difference (R309). -/
def seqDiff (s r : BitVec 16) : Int := (s - r).toInt

/-- The vector algorithm (R309). -/
def vectorRec (r : SeqRec) (q : BitVec 16) : SeqRec × RecEnd :=
  let d := seqDiff q r.recov
  if r.takeAny then ({ r with recov := q, hist := 1, takeAny := false }, { pass := true, passed := 1 })
  else if r.history ≤ d.natAbs then (r, { rogue := 1 })
  else if 0 < d then
    ({ r with recov := q, hist := ((r.hist <<< d.natAbs) ||| 1) &&& BitVec.ofNat 128 (2 ^ r.history - 1) },
      { pass := true, passed := 1, lost := zerosFrom r.hist (r.history - d.natAbs) d.natAbs })
  else if r.hist.getLsbD d.natAbs then (r, { discarded := 1 })
  else ({ r with hist := r.hist ||| (1#128 <<< d.natAbs) }, { pass := true, passed := 1, outOfOrder := 1 })

/-- The match algorithm (R310). -/
def matchRec (r : SeqRec) (q : BitVec 16) : SeqRec × RecEnd :=
  if r.takeAny || q != r.recov then ({ r with recov := q, takeAny := false }, { pass := true, passed := 1 })
  else (r, { discarded := 1 })

/-- The recovery function of a number. -/
def recOf (s : State) (r : Nat) : SeqRec := tget {} s.strm.recs r

/-- Store it. -/
def putRec (s : State) (r : Nat) (x : SeqRec) : State := { s with strm := { s.strm with recs := tput {} s.strm.recs r x } }

/-- A function resets (R311). -/
def frerReset (r : Nat) (s : State) : State :=
  raiseS evFrerReset (count .strmRResets [r] 0 1 (putRec s r { recOf s r with takeAny := true, hist := 0 }))

/-- RESET_MS has passed without a passed frame at elapsed time `el`. DEDUCED, log entry 26. -/
def frerDue (x : SeqRec) (el : Nat) : Bool :=
  x.en && x.resetMs != 0 && !x.takeAny && decide (x.lastPass + x.resetMs * 1000000 ≤ el)

/-- A frame of elapsed receive time `el` reaches a recovery function. The Bool says that it passes. One that is not enabled passes every
frame and counts nothing (R309). DESIGN CHOICE, log entry 139. -/
def recover (r : Nat) (f : List Byte) (el : Nat) (s : State) : State × Bool :=
  let s := if frerDue (recOf s r) el then frerReset r s else s
  let x := recOf s r
  if !x.en then (s, true)
  else match rtagOf f with
    | none => (count .strmRTagless [r] 0 1 s, true)
    | some q =>
      let (y, o) := if x.alg then matchRec x q else vectorRec x q
      let y := if o.pass then { y with lastPass := el } else y
      let s := putRec s r y
      let s := count .strmRPassed [r] 0 o.passed s
      let s := count .strmRDiscarded [r] 0 o.discarded s
      let s := count .strmROutOfOrder [r] 0 o.outOfOrder s
      let s := count .strmRRogue [r] 0 o.rogue s
      let s := count .strmRLost [r] 0 o.lost s
      (if o.rogue = 0 then s else raiseS evFrerRogue s, o.pass)

def bodySeqrecSet : Body where
  check _ p _ _ := when (if par p 0x12 1 = 0 then decide (par p 0x13 1 < 2) || decide (128 < par p 0x13 1)
    else par p 0x13 1 != 0) (fRange 0x13)
  act _ p _ s :=
    let old := recOf s (par p 0x10 2)
    let new := { old with en := bitN (par p 0x16 1) 0, alg := par p 0x12 1 == 1, history := par p 0x13 1, resetMs := par p 0x14 2,
                          takeAny := true, hist := 0 }
    .done (putRec s (par p 0x10 2) { new with lastPass := eventEl s }) 0 (old != new)

/-- STRM_SEQREC_SET. -/
def execStrmSeqrecSet (h : Host) (p : Packet) (s : State) : Out := .next (runAdmin csSeqrecSet bodySeqrecSet h p (.data []) s)

/-- FRER_RESET_TIMEOUT: the check at a 1 ms time event finds that RESET_MS has passed (R311). -/
def execFrerResetTimeout (r : Fin 4096) (s : State) : Out :=
  .next (if consuming s && frerDue (recOf s r.val) (elapsed s) then frerReset r.val s else s)

/-! ### The receive path (R298, R299) -/

/-- Gates of a port at an elapsed network time, from the rim's 256 µs of changes (R299). -/
def gatesAt (s : State) (p t : Nat) : BitVec 8 :=
  (((tget {} s.gate p).hist.find? (fun x => decide (x.1 ≤ t))).map (·.2)).getD 0xFF

/-- The stream gate of an entry is open for a frame. -/
def streamGateOpen (s : State) (e : BitVec 512) (r : RxSum) : Bool :=
  !r.ts.tsf.getLsbD 0 || (gatesAt s (ent e 0x37 1 % 32) r.el).getLsbD (ent e 0x37 1 / 32)

/-- BLK_GATE (bit 1) and BLK_SDU (bit 0) of a handle. -/
def blockedOf (s : State) (h : Nat) : BitVec 2 := tget 0 s.strm.blocked h

/-- Set a blocked flag: STRM_BLOCKED (R298). -/
def block (h : Nat) (b : BitVec 2) (s : State) : State :=
  raiseS evStrmBlocked { s with strm := { s.strm with blocked := tput 0 s.strm.blocked h (blockedOf s h ||| b) } }

/-- Step 4: the flow meter. The Bool says that the frame is red. -/
def police (e : BitVec 512) (r : RxSum) (s : State) : State × Bool :=
  if entFlag e 3 then
    let m := ent e 0x3A 2
    let (y, c) := meterFrame (meterOf s m) (r.el / 1000) r.len (outerDei r.bytes)
    let s := { s with strm := { s.strm with meters := tput {} s.strm.meters m y } }
    if c = 2 then (count .strmHRed [entHandle e] 0 1 s, true)
    else (if c = 1 then count .strmHYellow [entHandle e] 0 1 s else s, false)
  else (s, false)

/-- Steps 1 to 6 of R298 for a frame that entry `e` identifies. The Bool says that it reaches delivery. -/
def streamPath (e : BitVec 512) (r : RxSum) (s : State) : State × Bool :=
  let h := entHandle e
  let s := count .strmHMatch [h] 0 1 s
  if blockedOf s h != 0 then (count .strmHBlkDrop [h] 0 1 s, false)
  else if ent e 0x38 2 != 0 && decide (ent e 0x38 2 < r.len) then
    let s := count .strmHSduDrop [h] 0 1 s
    (if entFlag e 6 then block h 1 s else s, false)
  else if entFlag e 4 && !streamGateOpen s e r then
    let s := count .strmHGateDrop [h] 0 1 s
    (if entFlag e 5 then block h 2 s else s, false)
  else
    let (s, red) := police e r s
    if red then (s, false)
    else
      let (s, pass) := if ent e 0x3C 2 = 0xFFFF then (s, true) else recover (ent e 0x3C 2) r.bytes r.el s
      if pass then (count .strmHPass [h] 0 1 s, true) else (s, false)

/-! ### Queries and partner paths -/

/-- STRM_H_STAT. -/
def strmHStat (s : State) (h : Nat) : Nat :=
  let es := (tableNow s).filter (fun e => entMethod e != 0 && entHandle e == h)
  fieldAt (blockedOf s h).toNat 30 2 + fieldAt (b2n (es.any isRx)) 29 1 + fieldAt (b2n (es.any isTx)) 28 1
    + fieldAt es.length 0 15

/-- STRM_G_CFG. -/
def strmGCfg (s : State) (g : Nat) : Nat :=
  let x := tget {} (gensSet s) g
  fieldAt (b2n x.en) 31 1 + fieldAt x.handle 0 13

/-- STRM_R_CFG. -/
def strmRCfg (s : State) (r : Nat) : Nat :=
  let x := recOf s r
  fieldAt (b2n x.en) 31 1 + fieldAt (b2n x.alg) 30 1 + fieldAt x.history 16 8 + fieldAt x.resetMs 0 16

/-- STRM_R_STATE. -/
def strmRState (s : State) (r : Nat) : Nat :=
  let x := recOf s r
  fieldAt (b2n x.takeAny) 31 1 + x.recov.toNat

def bodyStrmQuery : Body where
  check _ p _ _ :=
    let top := if par p 0x10 1 ≤ 1 then 8191 else if par p 0x10 1 = 2 then 2047 else 4095
    when (decide (top < par p 0x12 2)) (fRange 0x12)
  act _ p _ s :=
    let i := par p 0x12 2
    .done s (match par p 0x10 1 with
      | 0 => strmHStat s i
      | 1 => (meterNow s i).tc + (meterNow s i).te * 2 ^ 48
      | 2 => strmGCfg s i + (tget {} (gensSet s) i).next.toNat * 2 ^ 32
      | _ => strmRCfg s i + strmRState s i * 2 ^ 32) false

/-- STRM_QUERY. -/
def execStrmQuery (h : Host) (p : Packet) (s : State) : Out := .next (runAdmin csStrmQuery bodyStrmQuery h p (.data []) s)

/-- The port that a flow queue is attached to. -/
def flowPort (s : State) (f : Nat) : Nat := (tget {} s.sch.flows f).port

/-- A transmit entry's frames also leave on another port whose link is up: an enabled flow queue sends there (R287,
R305). -/
def txPartner (s : State) (e : BitVec 512) (p : Nat) : Bool :=
  (genFor s (entHandle e)).isSome
    && (entFlow e :: entRepl e).any (fun f =>
      (tget {} s.sch.flows f).en && flowPort s f != p && (tget {} s.port (flowPort s f)).link)

/-- A receive entry's recovery function takes the stream from another port whose link is up too (R287). -/
def rxPartner (s : State) (e : BitVec 512) (p : Nat) : Bool :=
  ent e 0x3C 2 != 0xFFFF && (tableNow s).any (fun x => isRx x && ent x 0x3C 2 == ent e 0x3C 2
    && (List.range 32).any (fun q => q != p && bitN (ent x 4 4) q && (tget {} s.port q).link))

/-- Every stream on a port has an FRER partner path (R287). -/
def partnersOk (s : State) (p : Nat) : Bool :=
  (tableNow s).all (fun e =>
    (!(isTx e && (entFlow e :: entRepl e).any (fun f => (tget {} s.sch.flows f).en && flowPort s f == p)) || txPartner s e p)
    && (!(isRx e && bitN (ent e 4 4) p) || rxPartner s e p))

end Sys2Proof.Machine
end

