-- ==== Sys2Proof/Machine/Gates.lean ====
section
/-!
DEFINITION. Machine/Gates.lean: gate tapes, windows, pre-emption, the executors that start staged frames, and the
gate commands of group 0x03 (R224 to R259).
-/

namespace Sys2Proof.Machine

/-- A byte time in ps by SPEED (R261). -/
def bytePs (speed : Nat) : Nat :=
  if speed = 4 then 320 else if speed = 3 then 800 else if speed = 2 then 1600 else if speed = 1 then 3200 else 8000

/-- Elapsed network time in ps. -/
def elapsedPs (s : State) : Nat := (s.time.elapsed.toNat * 1000) >>> 32

/-- Network time less elapsed network time: what the steps have added, in ns. -/
def netOff (s : State) : Int := (((voted s).toNat : Int) - (s.time.elapsed.toNat : Int)) / ((2 ^ 32 : Nat) : Int)

/-! ### Grids and windows -/

/-- The cycle of a tape. -/
def cycleOf (t : List TapeEntry) : Nat := (t.map (·.duration)).sum

/-- The first point at or after `t` of the grid `o + k × c` (R226). -/
def nextGrid (o c t : Nat) : Nat :=
  let r := (((t : Int) - (o : Int)) % (c : Int)).toNat
  if r = 0 then t else t + (c - r)

/-- Gates of the last entry of a tape. -/
def lastGates (t : List TapeEntry) : BitVec 8 := ((t.getLast?).map (·.gates)).getD 0xFF

/-- Gates in force on a port. -/
def gatesNow (g : GateP) : BitVec 8 := if g.fill.isSome then g.fillGates else (g.tape.getD g.entry {}).gates

/-- Elapsed network time at the end of the running cycle. -/
def cycleEndEl (g : GateP) : Nat :=
  match g.fill with
  | some (_, el, _) => el + cycleOf g.tape
  | none => g.midEl + cycleOf g.tape

/-- Network time at the end of the running cycle (R101). -/
def cycleEndNet (s : State) (g : GateP) : Nat := ((cycleEndEl g : Int) + netOff s).toNat

/-- The switch of R230 at a cycle end of network time `e`: the new grid's ORIGIN and the new tape's first Midnight; none at an
end before the pending tape's application A. -/
def switchAt (g : GateP) (e : Nat) : Option (Nat × Nat) :=
  match g.pend with
  | none => none
  | some p =>
    if e < p.applied then none
    else if p.start = 0 then some (e, e)
    else if p.start < e then some (p.start, nextGrid p.start (cycleOf p.tape) e)
    else if p.start < nextGrid g.origin (cycleOf g.tape) e + cycleOf g.tape then some (p.start, p.start)
    else none

/-- GATE_SWITCH: the first Midnight of the pending tape as it stands. -/
def switchMidnight (s : State) (g : GateP) : Nat :=
  match g.pend with
  | none => 0
  | some p => match switchAt g (cycleEndNet s g) with
    | some (_, m) => m
    | none => p.start

/-- Entries as the gate of class `t` sees them: length in ps, and whether it is open. -/
def segsOf (t : Nat) (l : List TapeEntry) : List (Nat × Bool) := l.map (fun e => (e.duration * 1000, e.gates.getLsbD t))

/-- What is left of the running cycle from now on. -/
def restOfCycle (s : State) (g : GateP) (t : Nat) : List (Nat × Bool) :=
  match g.fill with
  | some (_, el, _) => (el * 1000 - elapsedPs s, g.fillGates.getLsbD t) :: segsOf t g.tape
  | none =>
    let endOf := (g.midEl + cycleOf (g.tape.take (g.entry + 1))) * 1000
    (endOf - elapsedPs s, (g.tape.getD g.entry {}).gates.getLsbD t) :: segsOf t (g.tape.drop (g.entry + 1))

/-- A tape that runs `n` cycles, for ever where `n` is none, from `pos` ps on, as a search from `d` on needs it: cycles that
end before `d` stand as one closed span, and three cycles show every opening and close that a repeating tape has. -/
def cycles (t d pos : Nat) (tape : List TapeEntry) (n : Option Nat) : List (Nat × Bool) :=
  let c := cycleOf tape * 1000
  if tape.all (fun e => e.gates.getLsbD t) then
    match n with
    | some n => [(n * c, true)]
    | none => [(d + c, true)]
  else
    let k := min (n.getD (d + 1)) ((d - pos) / c)
    let m := min 3 ((n.getD (k + 3)) - k)
    (k * c, false) :: ((List.replicate m (segsOf t tape)).flatten ++ [((n.getD 0 - k - m) * c, false)])

/-- What follows the running cycle, which ends `pos` ps from now, as a search from `d` on needs it: the fill interval, then
the tapes that run on (R101, R230, R231). -/
def afterCycle (s : State) (g : GateP) (t d pos : Nat) : List (Nat × Bool) :=
  let e := cycleEndNet s g
  let held := (lastGates g.tape).getLsbD t
  let m := nextGrid g.origin (cycleOf g.tape) e
  let run := (m - e) * 1000
  match g.pend, switchAt g e with
  | some p, some (_, f) => ((f - e) * 1000, held) :: cycles t d (pos + (f - e) * 1000) p.tape none
  | some p, none =>
    let n := (p.start - m) / cycleOf g.tape
    let fill := (p.start - (m + n * cycleOf g.tape)) * 1000
    ((run, held) :: cycles t d (pos + run) g.tape (some n))
      ++ ((fill, held) :: cycles t d (pos + (p.start - e) * 1000) p.tape none)
  | none, _ => (run, held) :: cycles t d (pos + run) g.tape none

/-- The gate of class `t` of a port from now on, exact for a search from `d` ps on. -/
def timeline (s : State) (p t d : Nat) : List (Nat × Bool) :=
  let r := restOfCycle s (gateOf s p) t
  r ++ afterCycle s (gateOf s p) t d (r.map (·.1)).sum

/-- The first moment at or after `d` at which the gate is open, and the gate from there. -/
def findOpen (d : Nat) : List (Nat × Bool) → Nat → Option (Nat × List (Nat × Bool))
  | [], _ => none
  | (l, g) :: r, pos =>
    if g && decide (d < pos + l) then some (max d pos, (pos + l - max d pos, g) :: r)
    else findOpen d r (pos + l)

/-- How long the gate stays open: none when no close comes. -/
def runLen : List (Nat × Bool) → Option Nat
  | [] => none
  | (l, g) :: r => if g then (runLen r).map (l + ·) else if l = 0 then runLen r else some 0

/-- The window of class `t` at or after `d` ps from now: how far off its usable part starts, and how long it then stays
open. -/
def windowFrom (s : State) (p t d : Nat) : Option (Nat × Option Nat) :=
  (findOpen d (timeline s p t d) 0).map (fun x => (x.1, runLen x.2))

/-- Time in ps to the close of the open window of class `t`; none for no close. Meant for an open gate. -/
def closeIn (s : State) (p t : Nat) : Option Nat := runLen (timeline s p t 0)

/-- A length in ps fits before a close. -/
def fits (need : Nat) : Option Nat → Bool
  | none => true
  | some c => decide (need ≤ c)

/-- MARGIN_NS in ps (R237). -/
def marginPs (s : State) (p : Nat) : Nat := regFld s .gateDuskCfg [p] 0 16 * 1000

/-- Wire time of a frame of length `len`: 8 + L byte times (R237). -/
def wirePs (s : State) (p len : Nat) : Nat := (8 + len) * bytePs (portOf s p).speed

/-- PE_EN and VERIFY_EN. -/
def peEn (s : State) (p : Nat) : Bool := regFld s .gateMmCfg [p] 0 1 == 1
def verifyEn (s : State) (p : Nat) : Bool := regFld s .gateMmCfg [p] 1 1 == 1

/-- Pre-emption is active (R244). -/
def preActive (s : State) (p : Nat) : Bool :=
  peEn s p && (portOf s p).link && (!verifyEn s p || (gateOf s p).verify == 3)

/-- VERIFY_STATE as it reads. -/
def verifyState (s : State) (p : Nat) : Nat := if peEn s p && verifyEn s p then max 1 (gateOf s p).verify else 0

/-- addFragSize in use (R243). -/
def addFragUsed (s : State) (p : Nat) : Nat := max (regFld s .gateMmCfg [p] 2 2) (gateOf s p).peerFrag.toNat

/-- F_min (R243). -/
def fMin (s : State) (p : Nat) : Nat := 64 * (1 + addFragUsed s p)

/-- Class `t` of a port is pre-emptible. -/
def isPre (s : State) (p t : Nat) : Bool := (gateOf s p).pre.getLsbD t

/-- The fragment-to-fit rule applies to a frame of class `t` under the close setting `fit` (R238). -/
def fitRule (s : State) (p t : Nat) (fit : Bool) : Bool := fit && isPre s p t && preActive s p

/-- A frame of length `len` can be cut (R243). -/
def canCut (s : State) (p len : Nat) : Bool := decide (fMin s p + 60 ≤ len)

/-- A frame that starts with `c` left before the close is admitted (R237, R238). -/
def admits (s : State) (p t len : Nat) (fit : Bool) (c : Option Nat) : Bool :=
  fits (wirePs s p len + marginPs s p) c
  || (fitRule s p t fit && canCut s p len && fits (wirePs s p (fMin s p) + marginPs s p) c)

/-- The gate admits a frame of class `t` that starts now. -/
def admitNow (s : State) (p t len : Nat) (fit : Bool) : Bool :=
  (gatesNow (gateOf s p)).getLsbD t && admits s p t len fit (closeIn s p t)

/-- Longest open run in a list of segments. -/
def longestRun : List (Nat × Bool) → Nat → Nat
  | [], cur => cur
  | (l, g) :: r, cur => if g then longestRun r (cur + l) else max cur (longestRun r 0)

/-- Some window of the running tape, taken cyclically, could hold a frame of length `len` under the close setting `fit`
(R241). -/
def someWindow (s : State) (p t len : Nat) (fit : Bool) : Bool :=
  let g := gateOf s p
  let w := if g.tape.all (fun x => x.gates.getLsbD t) then none else some (longestRun (segsOf t g.tape ++ segsOf t g.tape) 0)
  admits s p t len fit w && g.tape.any (fun x => x.gates.getLsbD t)

/-! ### Tape events -/

/-- Network time of an elapsed network time. -/
def netAt (s : State) (el : Nat) : Nat := ((el : Int) + netOff s).toNat

/-- Record a change of gate state for the stream gates at elapsed network time `t`, 256 µs deep (R299). -/
def pushHist (t : Nat) (v : BitVec 8) (h : List (Nat × BitVec 8)) : List (Nat × BitVec 8) :=
  let keep := h.takeWhile (fun x => decide (t ≤ x.1 + 256000))
  (t, v) :: (keep ++ (h.drop keep.length).take 1)

/-- Legal cut that a close at elapsed time `at_` ps leaves of the frame on the wire: data bytes of the fragment, whose mCRC
ends by then (R238, R243). -/
def closeCut (s : State) (p : Nat) (w : OnWire) (at_ : Nat) : Option Nat :=
  let room := (at_ - w.startPs) / bytePs (portOf s p).speed
  let d := min (room - 12) (w.wire.length + 4 - w.sent - 64)
  if 12 ≤ room && 64 ≤ w.wire.length + 4 - w.sent && fMin s p - 4 ≤ d then some d else none

/-- Elapsed network time in ps at which the next frame may start after a cut at `d` bytes: the fragment, its mCRC and the
inter-packet gap have left (R245). -/
def afterCut (s : State) (p : Nat) (w : OnWire) (d : Nat) : Nat := w.startPs + (8 + d + 4 + 12) * bytePs (portOf s p).speed

/-- Cut the frame on the wire after `d` bytes of its fragment; the wire is free, and the MAC idle, once these have left. -/
def cutWire (p : Nat) (w : OnWire) (d : Nat) (s : State) : State :=
  let at_ := afterCut s p w d
  let idle := divUp (at_ - 12 * bytePs (portOf s p).speed) 1000
  count .gateCntFragTx [p] 0 1 (putPort
    (putGate s p { gateOf s p with wire := none, cut := some { w with sent := w.sent + d, cuts := w.cuts + 1 }, freeAt := at_ })
    p { portOf s p with idleSince := idle })

/-- Bytes of the frame's fragment on the wire that have left, its 8 bytes of preamble aside. -/
def goneBytes (s : State) (p : Nat) (w : OnWire) : Nat := divUp (elapsedPs s - w.startPs) (bytePs (portOf s p).speed) - 8

/-- The first legal cut of the frame on the wire, at or after now: data bytes of the fragment (R243, R245); none where
fewer than 64 bytes would be left. -/
def firstCut (s : State) (p : Nat) (w : OnWire) : Option Nat :=
  let d := max (goneBytes s p w) (fMin s p - 4)
  if d + 64 ≤ w.wire.length + 4 - w.sent then some d else none

/-- Hold is asserted: the MAC cuts the pre-emptible frame on the wire at its first legal cut point (R246). -/
def assertHold (p : Nat) (s : State) : State :=
  let s := putGate s p { gateOf s p with hold := true }
  match (gateOf s p).wire with
  | some w => if w.pre then
      match firstCut s p w with
      | some d => cutWire p w d s
      | none => s
    else s
  | none => s

/-- The close of a class at elapsed time `el` cuts its pre-emptible frame on the wire while pre-emption is active (R238,
R240). -/
def closeFrames (p : Nat) (new : BitVec 8) (el : Nat) (s : State) : State :=
  match (gateOf s p).wire with
  | some w =>
    if w.pre && preActive s p && !new.getLsbD w.cls then
      match closeCut s p w (el * 1000) with
      | some d => count .gateCntCloseCut [p] 0 1 (cutWire p w d s)
      | none => s
    else s
  | none => s

/-- Some triggered gather waits for entry `i` of the port's tape (R340). -/
def trigFor (s : State) (p i : Nat) : Bool :=
  s.fld.aggs.any (fun a => a.2.kind == 1 && bitN (byteAt a.2.body 1) 0 && byteAt a.2.body 4 == p && leAt a.2.body 6 2 == i)

/-- Start an entry of the running tape (R224, R226, R246). `first` says that it starts a tape's first Midnight (R232). -/
def startEntry (p i : Nat) (el : Nat) (first : Bool) (s : State) : State :=
  let g := gateOf s p
  let e := g.tape.getD i {}
  let op := if preActive s p then e.action.toNat % 4 else 0
  let hold := if op = 1 then true else if op = 2 || first then false else g.hold
  let s := closeFrames p e.gates el s
  let s := if op = 1 && !g.hold then assertHold p s else s
  let g := gateOf s p
  let s := putGate s p { g with entry := i, fill := none, hold := hold, hist := pushHist el e.gates g.hist }
  let s := if e.action.getLsbD 2 then raise evGateMark (count .gateCntMark [p] 0 1 s) else s
  if e.action.getLsbD 3 then
    let s := timeRecordAt (.trigger p i) (netAt s el) s
    if trigFor s p i then { s with jrn := { s.jrn with triggers := s.jrn.triggers ++ [(p, i, netAt s el)] } } else s
  else s

/-- Dawn Lead from the negotiated wake time and the margin (R282). -/
def dawnLead (s : State) (p : Nat) : Nat :=
  match (portOf s p).peerTw with
  | some tw => max tw (regFld s .portEeeCfg [p] 8 8) * 1000 + (portOf s p).margin
  | none => 0

/-- A Midnight: the close mode and the Dawn Lead take effect, and entry 0 starts (R236, R284). -/
def midnight (p net el : Nat) (first : Bool) (s : State) : State :=
  let g := gateOf s p
  let s := putGate s p { g with midnight := net, midEl := el, fit := g.fitNext }
  let s := putPort s p { portOf s p with dawn := dawnLead s p }
  startEntry p 0 el first s

/-- After a cycle end at elapsed time `el`: the Midnight at network time `m`, or the fill interval before it. The Midnight once taken
stands at its elapsed time, whatever steps come in the interval (DESIGN CHOICE, log entry 124), and the entry that has run stays the
current one until entry 0 starts (DESIGN CHOICE, log entry 132). -/
def toMidnight (p el e m : Nat) (first : Bool) (held : BitVec 8) (s : State) : State :=
  if m ≤ e then midnight p m el first s
  else putGate s p { gateOf s p with fill := some (m, el + (m - e), first), fillGates := held }

/-- Elapsed network time at the start of entry `i` of the running cycle (R226). -/
def entryEl (g : GateP) (i : Nat) : Nat := g.midEl + cycleOf (g.tape.take i)

/-- GATE_ENTRY_START: the next entry, or entry 0 at the end of a fill interval, once its time has come. -/
def execGateEntryStart (p : Port) (s : State) : Out :=
  let g := gateOf s p.val
  .next (match g.fill with
    | some (m, el, first) => if el ≤ elapsed s then midnight p.val m el first s else s
    | none =>
      if g.entry + 1 < g.tape.length && decide (entryEl g (g.entry + 1) ≤ elapsed s) then
        startEntry p.val (g.entry + 1) (entryEl g (g.entry + 1)) false s
      else s)

/-- The running cycle ends: its last entry runs, and one cycle has elapsed since its Midnight (R101). -/
def cycleOver (s : State) (g : GateP) : Bool :=
  g.fill.isNone && decide (g.tape.length ≤ g.entry + 1) && decide (cycleEndEl g ≤ elapsed s)

/-- GATE_CYCLE_END: the next Midnight is taken from the grid (R101). -/
def execGateCycleEnd (p : Port) (s : State) : Out :=
  let g := gateOf s p.val
  let e := cycleEndNet s g
  .next (if cycleOver s g && (switchAt g e).isNone then
      toMidnight p.val (cycleEndEl g) e (nextGrid g.origin (cycleOf g.tape) e) false (lastGates g.tape) s
    else s)

/-- TAPE_SWITCH: the pending tape becomes the running tape at E (R230). -/
def execTapeSwitch (p : Port) (s : State) : Out :=
  let g := gateOf s p.val
  let e := cycleEndNet s g
  .next (match g.pend, switchAt g e with
    | some t, some (o, m) =>
      if cycleOver s g then
        let s := putGate s p.val { g with tape := t.tape, origin := o, pend := none, bank := !g.bank }
        toMidnight p.val (cycleEndEl g) e m true (lastGates g.tape) (raise (evGateSwitch p.val) s)
      else s
    | _, _ => s)

/-- The entries of a tape, each with the elapsed network time of its start, where the cycle starts at `el`. -/
def entriesFrom (el : Nat) : List TapeEntry → List (Nat × TapeEntry)
  | [] => []
  | e :: es => (el, e) :: entriesFrom (el + e.duration) es

/-- `n` cycles of a tape one after another. -/
def cyclesFrom (el : Nat) (tape : List TapeEntry) : Nat → List (Nat × TapeEntry)
  | 0 => []
  | n + 1 => entriesFrom el tape ++ cyclesFrom (el + cycleOf tape) tape n

/-- The entries that start after the running one, as far as a hold advance of 4,095 ns reaches: a cycle is 1 µs at the least
(R101, R226, R230, R231). -/
def upcoming (s : State) (g : GateP) : List (Nat × TapeEntry) :=
  let e := cycleEndNet s g
  let at_ := fun n : Nat => cycleEndEl g + (n - e)
  let m := nextGrid g.origin (cycleOf g.tape) e
  let now := match g.fill with
    | some (_, el, _) => entriesFrom el g.tape
    | none => (entriesFrom g.midEl g.tape).drop (g.entry + 1)
  now ++ (match g.pend, switchAt g e with
    | some p, some (_, f) => cyclesFrom (at_ f) p.tape 6
    | some p, none => cyclesFrom (at_ m) g.tape (min 6 ((p.start - m) / cycleOf g.tape)) ++ cyclesFrom (at_ p.start) p.tape 6
    | none, _ => cyclesFrom (at_ m) g.tape 6)

/-- An entry with OP 1 starts within HOLD_ADV_NS (R246). -/
def holdDue (s : State) (p : Nat) : Bool :=
  preActive s p && (upcoming s (gateOf s p)).any (fun x => x.2.action.toNat % 4 == 1
    && decide (x.1 ≤ elapsed s + regFld s .gateMmCfg [p] 16 12))

/-- GATE_HOLD_ADVANCE: hold is asserted HOLD_ADV_NS before an entry with OP 1 (R246). -/
def execGateHoldAdvance (p : Port) (s : State) : Out := .next (if holdDue s p.val then assertHold p.val s else s)

/-! ### The executor -/

/-- Insert an R-TAG (R302). -/
def withRtag (f : List Byte) : Option Nat → List Byte
  | none => f
  | some q => f.take (typeOff f) ++ ([0xF1, 0xC1, 0, 0] : List Byte) ++ beBytes q 2 ++ f.drop (typeOff f)

/-- Pad to 60 bytes without FCS (R266). -/
def padFrame (f : List Byte) : List Byte := padTo f 60

/-- A fabric header of TYPE 0 follows the tags (R410). -/
def isFabData (f : List Byte) : Bool :=
  beAt f (l3Type f) 2 == 0x88B5 && byteAt f (l3Type f + 2) % 16 == 0

/-- The route entry of a node. -/
def routeOf (s : State) (d : Nat) : BitVec 64 := tget 0 s.fab.routes d
def rtValid (e : BitVec 64) : Bool := e.getLsbD 0
def rtLocal (e : BitVec 64) : Bool := e.getLsbD 1
def rtSec (e : BitVec 64) : Bool := e.getLsbD 2
def rtPri (e : BitVec 64) : Nat := bitsN e.toNat 8 8
def rtSecPort (e : BitVec 64) : Nat := bitsN e.toNat 16 8
def rtTc (e : BitVec 64) : Nat := bitsN e.toNat 24 3
def rtDest (e : BitVec 64) : Nat := bitsN e.toNat 32 16

/-- A port of FAB_PORTS (R409). -/
def fabPort (s : State) (p : Nat) : Bool := bitN (regVal s .fabPorts []) p

/-- The MAC's fields of a data frame that leaves on a fabric port (R411). -/
def fabEdits (s : State) (p : Nat) (f : List Byte) : List Byte :=
  if fabPort s p && isFabData f then
    let o := l3Type f + 2
    let r := routeOf s (beAt f (o + 2) 2 % 4096)
    let path := if rtValid r && rtPri r == p then 0 else if rtValid r && rtSec r && rtSecPort r == p then 1
      else byteAt f (o + 1) % 2
    let f := patch f (o + 1) [BitVec.ofNat 8 (byteAt f (o + 1) / 2 * 2 + path)]
    let f := patch f (o + 4) (beBytes s.fab.nodeId 2)
    let f := patch f (o + 6) [63]
    patch f (o + 8) (beBytes (f.length + 4) 2)
  else f

/-- The frame as it leaves, without FCS: R-TAG, padding, fabric fields. A relayed frame (source 4) leaves as stored. -/
def wireBytes (s : State) (p : Nat) (x : Staged) : List Byte :=
  if x.src = 4 then x.bytes else fabEdits s p (padFrame (withRtag x.bytes x.seq))

/-- Length with FCS on the wire. -/
def wireLen (x : Staged) : Nat :=
  (if x.src = 4 then x.bytes.length else max 60 (x.bytes.length + (if x.seq.isSome then 6 else 0))) + 4

/-- Offset of the fabric header. -/
def fabOff (f : List Byte) : Nat := l3Type f + 2

/-- LEN of the fabric header. -/
def fabLen (f : List Byte) : Nat := beAt f (fabOff f + 8) 2

/-- The length by which a gate admits a staged frame: LEN for one of a relay lane (R237, R425). -/
def admLen (x : Staged) : Nat := if x.src = 4 then fabLen x.bytes else wireLen x

/-- A timestamp captured `ahead` ps from now with the port's correction in 1/16 ns (R105). -/
def portTs (s : State) (corr more : Nat) (ahead : Int) : Ts :=
  let t := tsNow s more
  if t.tsf.getLsbD 0 then
    let at_ : Int := (voted s).toNat + ahead * ((2 ^ 32 : Nat) : Int) / 1000 + signedN corr 16 * ((2 ^ 28 : Nat) : Int)
    { t with ns := BitVec.ofInt 64 (at_ / ((2 ^ 32 : Nat) : Int)) }
  else t

/-- The transmitter can start something: link up, awake, and on, with what was last on the wire gone; a port that turns off still
finishes a cut frame (R245, R285, R288). -/
def txReady (s : State) (p : Nat) : Bool :=
  let x := portOf s p
  x.link && !x.txLpi && !x.waking && ((x.en && !x.txOff) || (gateOf s p).cut.isSome) && decide ((gateOf s p).freeAt ≤ elapsedPs s)

/-- What class `t` could start: the relay lane's head ahead of the staging queue's (R425), accepted and not expired. The
Bool says relay lane. -/
def headOf (s : State) (p t : Nat) : Option (Staged × Bool) :=
  match tget [] (gateOf s p).relay t with
  | x :: _ => some (x, true)
  | [] => match tget [] (gateOf s p).staged t with
    | x :: _ => if x.mark then some (x, false) else none
    | [] => none

/-- The close setting that judges an item: its recorded one, or the port's for a relayed frame (R236, R425). -/
def fitOf (s : State) (p : Nat) (x : Staged) : Bool := if x.src = 4 then (gateOf s p).fit else x.fit

/-- Class `t` holds a frame that its gate admits now (R194). -/
def candidate (s : State) (p t : Nat) : Option (Staged × Bool) :=
  match headOf s p t with
  | some (x, r) => if admitNow s p t (admLen x) (fitOf s p x) then some (x, r) else none
  | none => none

/-- Class `t` holds a frame that its gate admits `d` ps from now: its first bit leaves then (R237). -/
def candidateAt (s : State) (p d t : Nat) : Option (Staged × Bool) :=
  match headOf s p t, windowFrom s p t d with
  | some (x, r), some (st, c) => if st = d && admits s p t (admLen x) (fitOf s p x) c then some (x, r) else none
  | _, _ => none

/-- The first class from `n − 1` down of the kind `pre` that `has` gives a frame. -/
def firstBy (s : State) (p : Nat) (pre : Bool) (has : Nat → Option (Staged × Bool)) : Nat → Option (Nat × Staged × Bool)
  | 0 => none
  | n + 1 => if isPre s p n == pre then
      match has n with
      | some (x, r) => some (n, x, r)
      | none => firstBy s p pre has n
    else firstBy s p pre has n

/-- The first class from `n − 1` down of the kind `pre` with a candidate. -/
def firstOf (s : State) (p : Nat) (pre : Bool) (n : Nat) : Option (Nat × Staged × Bool) := firstBy s p pre (candidate s p) n

/-- The express frame that cuts the pre-emptible one on the wire, with the cut: the gate admits it when it starts, once the
fragment has left (R237, R245). -/
def preempting (s : State) (p : Nat) (w : OnWire) : Option (Nat × Nat × Staged × Bool) :=
  match firstCut s p w with
  | some d => (firstBy s p false (candidateAt s p (afterCut s p w d - elapsedPs s)) 8).map (fun x => (d, x))
  | none => none

/-- A staging queue of 16 places takes frames that a warm start found no place for (R209, R402). -/
def refill (p t : Nat) (s : State) : State :=
  let g := gateOf s p
  let q := tget [] g.staged t
  let b := tget [] g.back t
  if b.isEmpty then s
  else putGate s p { g with staged := tput [] g.staged t (q ++ b.take (16 - q.length)), back := tput [] g.back t (b.drop (16 - q.length)) }

/-- Take the head of a lane or queue. -/
def dropHead (p t : Nat) (relay : Bool) (s : State) : State :=
  let g := gateOf s p
  if relay then putGate s p { g with relay := tput [] g.relay t (tget [] g.relay t).tail }
  else refill p t (putGate s p { g with staged := tput [] g.staged t (tget [] g.staged t).tail })

/-- A segment starts: the next one of its stream is held from now on (R242). -/
def segmentStarts (p t : Nat) (x : Staged) (s : State) : State :=
  if x.src = 1 then
    let now := elapsed s
    let g := gateOf s p
    let q := (tget [] g.staged t).map (fun y => if y.tag = x.tag && y.src = 1 then { y with since := now } else y)
    let f := tget {} s.sch.flows x.flow
    let es := f.elems.map (fun e => if e.tag = x.tag then { e with since := now } else e)
    let s := putGate s p { g with staged := tput [] g.staged t q }
    { s with sch := { s.sch with flows := tput {} s.sch.flows x.flow { f with elems := es } } }
  else s

/-- Start a frame at elapsed network time `at_` ps (R194). Its timestamp is that of the first bit after the start frame
delimiter, 8 byte times later (R105). -/
def startFrame (p t : Nat) (x : Staged) (relay : Bool) (at_ : Nat) (s : State) : State :=
  let s := segmentStarts p t x (dropHead p t relay s)
  let ahead : Int := (at_ : Int) - elapsedPs s + 8 * bytePs (portOf s p).speed
  let w : OnWire := { cls := t, pre := isPre s p t, item := x, wire := wireBytes s p x
                      ts := portTs s (regFld s .timePortCorrEgr [p] 0 16) 0 ahead, startPs := at_, again := x.again
                      stampPs := at_ + 8 * bytePs (portOf s p).speed
                      padded := decide (x.bytes.length + (if x.seq.isSome then 6 else 0) < 60) && x.src != 4 }
  putGate s p { gateOf s p with wire := some w }

/-- A cut frame may resume: its gate is open, no hold, and it ends or reaches a legal cut before the close (R239, R240). -/
def canResume (s : State) (p : Nat) (c : OnWire) : Bool :=
  let left := c.wire.length + 4 - c.sent
  let cl := closeIn s p c.cls
  (gatesNow (gateOf s p)).getLsbD c.cls && !(gateOf s p).hold
    && (fits (wirePs s p left) cl || (decide (fMin s p - 4 + 64 ≤ left) && fits (wirePs s p (fMin s p)) cl))

/-- EXECUTOR_FRAME_START: the head frame of the first admitting class starts; an express frame cuts a pre-emptible one
on the wire (R194, R239, R245). -/
def execExecutorFrameStart (p : Port) (s : State) : Out :=
  let g := gateOf s p.val
  .next (if !txReady s p.val then s
    else match g.wire, firstOf s p.val false 8 with
      | some w, _ =>
        if w.pre && preActive s p.val then
          match preempting s p.val w with
          | some (d, t, x, r) => startFrame p.val t x r (max (elapsedPs s) (afterCut s p.val w d)) (cutWire p.val w d s)
          | none => s
        else s
      | none, some (t, x, r) => startFrame p.val t x r (elapsedPs s) s
      | none, none =>
        match g.cut with
        | some c => if canResume s p.val c then
            putGate s p.val { g with cut := none, wire := some { c with startPs := elapsedPs s } }
          else s
        | none =>
          if preActive s p.val && g.hold then s
          else match firstOf s p.val true 8 with
            | some (t, x, r) => startFrame p.val t x r (elapsedPs s) s
            | none => s)

/-! ### MAC Merge verify (R244) -/

/-- MM_VERIFY_RESPONSE. -/
def execMmVerifyResponse (p : Port) (s : State) : Out :=
  let g := gateOf s p.val
  .next (if g.verify = 2 then putGate s p.val { g with verify := 3 } else s)

/-- MM_VERIFY_TIMEOUT: another attempt, or the failed state after three. -/
def execMmVerifyTimeout (p : Port) (s : State) : Out :=
  let g := gateOf s p.val
  .next (if g.verify = 2 then
      if g.attempts < 3 then putGate s p.val { g with attempts := g.attempts + 1 }
      else raise evMmVerifyFail (putGate s p.val { g with verify := 4 })
    else s)

/-! ### Rim writes -/

/-- The rim takes a tape into the pending bank: A is now (R229). -/
def rimTape (p : Nat) (t : List TapeEntry) (start : Nat) (s : State) : State :=
  putGate s p { gateOf s p with pend := some { tape := t, start := start, applied := netNs s } }

/-- The rim empties the pending bank (R234). -/
def rimTapeCancel (p : Nat) (s : State) : State := putGate s p { gateOf s p with pend := none }

/-- Class settings and the partner's addFragSize apply at a frame boundary, those of the class of a cut frame when it has ended
(R65, R235). -/
def applyKinds (p : Nat) (s : State) : State :=
  let g := gateOf s p
  if g.wire.isSome then s
  else
    let ready := fun x : Nat × Bool × Nat => (match g.cut with | some c => c.cls != x.1 | none => true)
    let now := g.preNext.filter ready
    let pre := now.foldl (fun v x =>
      if x.2.1 then v ||| BitVec.ofNat 8 (2 ^ x.1) else v &&& ~~~(BitVec.ofNat 8 (2 ^ x.1))) g.pre
    putGate s p { g with pre := pre, preNext := g.preNext.filter (fun x => !ready x)
                         maxHold := now.foldl (fun t x => tput 1000000 t x.1 x.2.2) g.maxHold
                         peerFrag := g.fragNext.getD g.peerFrag, fragNext := none }

/-- Settings that wait for a boundary in the sending direction apply (R271, R286). -/
def takeTx (p : Nat) (s : State) : State :=
  let x := portOf s p
  if (gateOf s p).wire.isSome || (gateOf s p).cut.isSome || (x.txNext.isNone && x.laneNext.isNone) then s
  else
    let (m, e) := x.txNext.getD (x.maxlen, x.eee)
    let (v, i) := x.laneNext.getD (x.speed, x.iface)
    let s := putPort s p { x with maxlen := m, eee := e, speed := v, iface := i, txNext := none, laneNext := none }
    if e then s else wake p s

/-- The rim takes a class setting. -/
def rimGateClass (p t : Nat) (pre : Bool) (us : Nat) (s : State) : State :=
  let g := gateOf s p
  applyKinds p (putGate s p { g with preNext := tset g.preNext t (pre, us) })

/-- The rim takes a close setting: from the next Midnight (R236). -/
def rimGateClose (p : Nat) (fit : Bool) (s : State) : State := putGate s p { gateOf s p with fitNext := fit }

/-! ### Commands -/

/-- The entries of a tape buffer. -/
def tapeEntries : Nat → List Byte → List TapeEntry
  | 0, _ => []
  | n + 1, l => { duration := leAt l 0 4, gates := l.getD 4 0, action := l.getD 5 0 } :: tapeEntries n (l.drop 8)

/-- Reserved fields of a tape buffer are 0. -/
def tapeRsvOk : Nat → List Byte → Bool
  | 0, _ => true
  | n + 1, l => leAt l 6 2 == 0 && byteAt l 5 / 16 == 0 && byteAt l 5 % 4 != 3 && tapeRsvOk n (l.drop 8)

/-- The active side treats the port as holding a pending tape (R234). -/
def sidePending (s : State) (p : Nat) : Bool :=
  (waitingWrites s).foldl (fun b w => match w with
    | .tape q _ _ => if q = p then true else b
    | .tapeCancel q => if q = p then false else b
    | _ => b) (gateOf s p).pend.isSome

def bodyTapeLoad : Body where
  check _ p l s :=
    let n := l.length / 8
    let t := tapeEntries n l
    when (ibLen p 0x20 != par p 0x14 2 * 8) (fParam 0x28)
    ++ when (!tapeRsvOk n l) (fParam 0x20)
    ++ when (t.any (fun e => decide (e.duration < 32) || decide (1000000000 < e.duration))) (fRange 0x20)
    ++ when (!l.isEmpty && (decide (cycleOf t < 1000) || decide (1000000000 < cycleOf t))) (fRange 0x20)
    ++ when (decide (cmdNs s + 10000000000 < par p 0x18 8)) (fRange 0x18)
    ++ when (sidePending s (par p 0x10 1)) (fBusyAt 0x10)
  act _ p l s := .start s (.tapeLoad (par p 0x10 1) (tapeEntries (par p 0x14 2) l) (par p 0x18 8))

/-- GATE_TAPE_LOAD. -/
def execGateTapeLoad (h : Host) (p : Packet) (ib : ReadEnd) (s : State) : Out := .next (runAdmin csTapeLoad bodyTapeLoad h p ib s)

/-- KIND and MAX_HOLD_US of a class as the active side holds them: with the sets that wait. -/
def sideClass (s : State) (p t : Nat) : Bool × Nat :=
  let g := gateOf s p
  (waitingWrites s).foldl (fun x w => match w with
    | .gateClass q u pre us => if q = p && u = t then (pre, us) else x
    | _ => x) ((tfind g.preNext t).getD (isPre s p t, tget 1000000 g.maxHold t))

def bodyClassSet : Body where
  act _ p _ s := .done (pushSet [.gateClass (par p 0x10 1) (par p 0x11 1) (par p 0x12 1 == 1) (par p 0x14 4)] s) 0
    (sideClass s (par p 0x10 1) (par p 0x11 1) != (par p 0x12 1 == 1, par p 0x14 4))

/-- GATE_CLASS_SET. -/
def execGateClassSet (h : Host) (p : Packet) (s : State) : Out := .next (runAdmin csClassSet bodyClassSet h p (.data []) s)

/-- The close setting as the active side holds it. -/
def sideClose (s : State) (p : Nat) : Bool :=
  (waitingWrites s).foldl (fun x w => match w with
    | .gateClose q fit => if q = p then fit else x
    | _ => x) (gateOf s p).fitNext

def bodyCloseMode : Body where
  act _ p _ s := .done (pushSet [.gateClose (par p 0x10 1) (par p 0x11 1 == 1)] s) 0
    (sideClose s (par p 0x10 1) != (par p 0x11 1 == 1))

/-- GATE_CLOSE_MODE. -/
def execGateCloseMode (h : Host) (p : Packet) (s : State) : Out := .next (runAdmin csCloseMode bodyCloseMode h p (.data []) s)

def bodyTapeCancel : Body where
  check _ p _ s := when (gateOf s (par p 0x10 1)).pend.isNone (fStateAt 0x10)
  act _ p _ s := .done (pushSet [.tapeCancel (par p 0x10 1)] s) 0 true

/-- GATE_TAPE_CANCEL. -/
def execGateTapeCancel (h : Host) (p : Packet) (s : State) : Out := .next (runAdmin csTapeCancel bodyTapeCancel h p (.data []) s)

def bodyGateQuery : Body where
  act _ p _ s :=
    let q := par p 0x10 1
    let g := gateOf s q
    .done s (g.midnight % 2 ^ 64 + fieldAt g.entry 64 10 + fieldAt (gatesNow g).toNat 80 8 + fieldAt (b2n g.pend.isSome) 88 1
      + fieldAt (b2n g.fill.isSome) 89 1 + fieldAt (b2n (preActive s q)) 90 1 + fieldAt (verifyState s q) 91 3) false

/-- GATE_QUERY. -/
def execGateQuery (h : Host) (p : Packet) (s : State) : Out := .next (runAdmin csGateQuery bodyGateQuery h p (.data []) s)

end Sys2Proof.Machine
end

