-- ==== Sys2Proof/Machine/Operands.lean ====
section
/-!
DEFINITION. Machine/Operands.lean: the operand forms of submission entries (R130 to R133, R248, R249) and of DMA
descriptors (R165), as fields of their bytes.
-/

namespace Sys2Proof.Machine

/-! ### Submission entries (R130, R132) -/

abbrev tyFrame : Nat := 1
abbrev tyInline : Nat := 2
abbrev tyStream : Nat := 3
abbrev tyXfer : Nat := 4
abbrev tyAgg : Nat := 5
abbrev tyFence : Nat := 6

def sqeType (e : List Byte) : Nat := byteAt e 0
def sqeTsReq (e : List Byte) : Bool := bitN (byteAt e 1) 0
def sqeNoIrq (e : List Byte) : Bool := bitN (byteAt e 1) 1
def sqeRx (e : List Byte) : Bool := bitN (byteAt e 1) 2
def sqeFlush (e : List Byte) : Bool := bitN (byteAt e 1) 3
def sqePort (e : List Byte) : Nat := byteAt e 2
def sqeTc (e : List Byte) : Nat := byteAt e 3
def sqeFlow (e : List Byte) : Nat := leAt e 4 2
def sqeUser (e : List Byte) : Nat := leAt e 8 4
def sqeAux (e : List Byte) : Nat := leAt e 12 4
/-- ADDR, PAYLOAD or CHAIN. -/
def sqeAddr (e : List Byte) : Nat := leAt e 0x10 8
/-- LEN or PAYLOAD_LEN. -/
def sqeLen (e : List Byte) : Nat := leAt e 0x18 4
def sqeTemplate (e : List Byte) : Nat := leAt e 0x20 8
/-- FLEN of an INLINE_FRAME. -/
def sqeFlen (e : List Byte) : Nat := sqeAux e % 256
/-- HDR_LEN and EDITS of a STREAM_SEND. -/
def sqeHdrLen (e : List Byte) : Nat := sqeAux e % 256
def sqeEdits (e : List Byte) : Nat := bitsN (sqeAux e) 8 5
/-- AGG_ID and MODE of an AGG_BUILD. -/
def sqeAggId (e : List Byte) : Nat := sqeAux e % 65536
def sqeMode (e : List Byte) : Nat := bitsN (sqeAux e) 16 1

/-- Slots that an entry occupies by its first slot (R133). -/
def sqeSlots (e : List Byte) : Nat := if sqeType e = tyInline then 1 + divUp (sqeFlen e) 64 else 1

/-- The type is a transmit type: FRAME with RX 0, INLINE_FRAME, STREAM_SEND, AGG_BUILD (R130). -/
def sqeIsTx (e : List Byte) : Bool :=
  (sqeType e == tyFrame && !sqeRx e) || sqeType e == tyInline || sqeType e == tyStream || sqeType e == tyAgg

/-- PORT, TC and FLOW must be 0 (R130). -/
def sqeNoFlow (e : List Byte) : Bool := sqeType e == tyFence || (sqeType e == tyFrame && sqeRx e) || sqeType e == tyXfer

/-- Bytes 0x10 to 0x3F that an entry's type does not name are nonzero (R132). -/
def sqeRsvBytes (e : List Byte) : Bool :=
  let z := fun off n => leAt e off n != 0
  match sqeType e with
  | 1 => z 0x1C 36
  | 2 => z 0x10 48
  | 3 => z 0x1C 4 || z 0x28 24
  | 4 => z 0x18 40
  | 5 => z 0x1C 36
  | _ => z 0x10 48

/-- Reserved bits of AUX are nonzero (R132). -/
def sqeRsvAux (e : List Byte) : Bool :=
  match sqeType e with
  | 2 => decide (256 ≤ sqeAux e)
  | 3 => decide (2 ^ 13 ≤ sqeAux e)
  | 4 => decide (2 ^ 9 ≤ sqeAux e)
  | 5 => decide (2 ^ 17 ≤ sqeAux e)
  | _ => sqeAux e != 0

/-- Faults of an entry's own form and ranges (R130 to R134), the port's reach aside. -/
def sqeFindings (e : List Byte) : List Finding :=
  let t := sqeType e
  when (t == 0 || decide (6 < t)) fOpcode
  ++ when (decide (16 ≤ byteAt e 1) || leAt e 6 2 != 0 || sqeRsvAux e || sqeRsvBytes e) (fParam 0)
  ++ when (sqeNoFlow e && (sqePort e != 0 || sqeTc e != 0 || sqeFlow e != 0)) (fParam 2)
  ++ when ((sqeRx e && t != tyFrame) || (sqeFlush e && t != tyFence) || (sqeTsReq e && !sqeIsTx e)) (fParam 1)
  ++ when (decide (31 < sqePort e) || decide (7 < sqeTc e) || decide (8191 < sqeFlow e)) (fRange 2)
  ++ (match t with
      | 1 => if sqeRx e then when (decide (sqeLen e < 64) || decide (16384 < sqeLen e)) (fRange 0x18)
          else when (decide (sqeLen e < 14)) (fParam 0x18)
      | 2 => when (decide (sqeFlen e < 14)) (fParam 12) ++ when (decide (188 < sqeFlen e)) (fRange 12)
      | 3 => when (decide (sqeHdrLen e < 14) || decide (128 < sqeHdrLen e) || decide (16 < sqeEdits e)
              || sqeLen e == 0 || decide (16777216 < sqeLen e)) (fRange 12)
          ++ when (sqeTemplate e % 8 != 0) (fParam 0x20)
      | 4 => when (sqeAux e == 0 || decide (256 < sqeAux e)) (fRange 12) ++ when (sqeAddr e % 32 != 0) (fParam 0x10)
      | 5 => when (sqeMode e == 0 && (sqeAddr e != 0 || sqeLen e != 0)) (fParam 0x10)
      | _ => [])

/-! ### Edits of a STREAM_SEND (R248, R249) -/

def edOff (x : BitVec 64) : Nat := bitsN x.toNat 0 8
def edKind (x : BitVec 64) : Nat := bitsN x.toNat 8 8
def edAnchor (x : BitVec 64) : Nat := bitsN x.toNat 16 8
def edAux (x : BitVec 64) : Nat := bitsN x.toNat 24 8
def edValue (x : BitVec 64) : Nat := bitsN x.toNat 32 32
/-- Width of the field that an edit writes. -/
def edWidth (x : BitVec 64) : Nat := if edKind x = 3 || edKind x = 4 then 4 else if edKind x = 5 then 1 else 2

/-- Faults of one edit against its template (R250). -/
def editFindings (tpl : List Byte) (x : BitVec 64) : List Finding :=
  let k := edKind x
  let h := tpl.length
  let ver := fun o => byteAt tpl o / 16
  let ihl := fun o => byteAt tpl o % 16 * 4
  let ipLen := fun o => if ver o = 6 then 40 else ihl o
  when (k == 0 || decide (7 < k)) (fParam 0x20)
  ++ when ((edAnchor x != 0 && !(k == 1 || k == 6 || k == 7)) || (edAux x != 0 && k != 7)
      || (edValue x != 0 && (k == 1 || k == 4 || k == 6 || k == 7)) || ((k == 2 || k == 5) && decide (65536 ≤ edValue x)))
      (fParam 0x20)
  ++ when ((k == 6 && ver (edAnchor x) != 4) || (k == 7 && ver (edAux x) != 4 && ver (edAux x) != 6)) (fParam 0x20)
  ++ when (decide (h < edOff x + edWidth x) || decide (h < edAnchor x)
      || (k == 6 && decide (h < edAnchor x + ihl (edAnchor x)))
      || (k == 7 && (decide (h < edAux x + ipLen (edAux x)) || decide (edAnchor x < edAux x + ipLen (edAux x))))) (fRange 0x20)

/-- The Internet checksum's ones' complement sum of a byte list, as 16-bit big-endian words. -/
def sum16 : List Byte → Nat
  | [] => 0
  | [a] => a.toNat * 256
  | a :: b :: r => a.toNat * 256 + b.toNat + sum16 r

/-- Fold a sum to 16 bits and complement it. -/
def inetSum (n : Nat) : Nat := 65535 - (if n = 0 then 0 else if n % 65535 = 0 then 65535 else n % 65535)

/-- Kinds 0x01 to 0x05 on a segment: index `k`, length `ls` without FCS, bytes sent before, last segment (R249). -/
def applyEdit (tpl : List Byte) (k ls sent : Nat) (last : Bool) (f : List Byte) (x : BitVec 64) : List Byte :=
  let o := edOff x
  match edKind x with
  | 1 => patch f o (beBytes (ls - edAnchor x) 2)
  | 2 => patch f o (beBytes (beAt tpl o 2 + k * edValue x) 2)
  | 3 => patch f o (beBytes (beAt tpl o 4 + k * edValue x) 4)
  | 4 => patch f o (beBytes (beAt tpl o 4 + sent) 4)
  | 5 => patch f o (beBytes ((byteAt tpl o &&& edValue x % 256) ||| (if last then edValue x / 256 % 256 else 0)) 1)
  | _ => f

/-- Kinds 0x06 and 0x07 on a segment (R249). -/
def applySum (ls : Nat) (f : List Byte) (x : BitVec 64) : List Byte :=
  let o := edOff x
  let z := patch f o [0, 0]
  match edKind x with
  | 6 => patch f o (beBytes (inetSum (sum16 (slice z (edAnchor x) (byteAt f (edAnchor x) % 16 * 4)))) 2)
  | 7 =>
    let a := edAux x
    let v6 := byteAt f a / 16 == 6
    let proto := if v6 then byteAt f (a + 6) else byteAt f (a + 9)
    let addrs := if v6 then slice f (a + 8) 32 else slice f (a + 12) 8
    let c := inetSum (sum16 addrs + proto + (ls - edAnchor x) + sum16 (z.drop (edAnchor x)))
    patch f o (beBytes (if c = 0 && proto = 17 then 65535 else c) 2)
  | _ => f

/-- A segment: the edited header and its payload (R249). -/
def segmentBytes (tpl : List Byte) (edits : List (BitVec 64)) (payload : List Byte) (k sent : Nat) (last : Bool) : List Byte :=
  let ls := tpl.length + payload.length
  let f := edits.foldl (applyEdit tpl k ls sent last) (tpl ++ payload)
  edits.foldl (applySum ls) f

/-! ### DMA descriptors (R165) -/

def dSrc (d : BitVec 256) : Nat := bitsN d.toNat 0 64
def dDst (d : BitVec 256) : Nat := bitsN d.toNat 64 64
def dLenField (d : BitVec 256) : Nat := bitsN d.toNat 128 32
def dCtrl (d : BitVec 256) : Nat := bitsN d.toNat 160 32
def dIdx (d : BitVec 256) : Nat := bitsN d.toNat 192 64
def dOp (d : BitVec 256) : Nat := bitsN (dCtrl d) 0 3
def dEnd (d : BitVec 256) : Bool := bitN (dCtrl d) 3
def dBarrier (d : BitVec 256) : Bool := bitN (dCtrl d) 4
def dSwap (d : BitVec 256) : Nat := bitsN (dCtrl d) 5 3
def dSrcSpace (d : BitVec 256) : Nat := bitsN (dCtrl d) 8 2
def dDstSpace (d : BitVec 256) : Nat := bitsN (dCtrl d) 10 2
def dSrcHost (d : BitVec 256) : Nat := bitsN (dCtrl d) 12 2
def dDstHost (d : BitVec 256) : Nat := bitsN (dCtrl d) 14 2
def dScatter (d : BitVec 256) : Bool := bitN (dCtrl d) 16
def dIdxSpace (d : BitVec 256) : Nat := bitsN (dCtrl d) 17 2
def dIdxHost (d : BitVec 256) : Nat := bitsN (dCtrl d) 19 2
/-- ELEM and NIDX of an INDEX descriptor. -/
def dElem (d : BitVec 256) : Nat := bitsN (dLenField d) 0 13
def dNidx (d : BitVec 256) : Nat := bitsN (dLenField d) 16 13

/-- Unit of the swap mode: the length must be a multiple of it (R166). -/
def swapUnit (m : Nat) : Nat := if m = 1 then 2 else if m = 2 || m = 4 then 4 else if m = 3 then 8 else 1

/-- One lane under a swap mode (R178). -/
def swapLane (m : Nat) (l : List Byte) : List Byte := if m = 4 then l.drop 2 ++ l.take 2 else l.reverse

/-- Swap a stream of `n` lanes (R178). -/
def swapLanes (m : Nat) : Nat → List Byte → List Byte
  | 0, l => l
  | n + 1, l => swapLane m (l.take (swapUnit m)) ++ swapLanes m n (l.drop (swapUnit m))

/-- The data stream of a COPY or an element after its swap. -/
def swapped (m : Nat) (l : List Byte) : List Byte := if m = 0 then l else swapLanes m (l.length / swapUnit m) l

end Sys2Proof.Machine
end

