-- ==== Sys2Proof/Machine/Queues.lean ====
section
/-!
DEFINITION. Machine/Queues.lean: queues, tags and places, and the commands of group 0x01 (R78, R144, R146, R159, R160).
-/

namespace Sys2Proof.Machine

/-- Tags that no entry holds (QUE_TAGS_FREE). -/
def tagsFree (s : State) : Nat := 131072 - (tagsHeld s 0 + tagsHeld s 1 + tagsHeld s 2 + tagsHeld s 3)

/-- A pushed INLINE_FRAME of an express class: sixteen tags of each quota are kept for such entries (R144). -/
def keptFor (s : State) (e : Taken) : Bool :=
  e.pushed && sqeType e.bytes == tyInline && !(tget {} s.gate (sqePort e.bytes)).pre.getLsbD (sqeTc e.bytes)

/-- Tags that the host may hold when the entry starts (R144). -/
def tagBound (s : State) (h : Nat) (e : Taken) : Nat := if keptFor s e then quotaOf s h else quotaOf s h - 16

/-- Fetching for an SQ is stopped under R144 or R146. -/
def fetchStop (s : State) (h : Nat) (x : Sq) : Bool :=
  decide (quotaOf s h - 16 ≤ tagsHeld s h)
  || (match cqOf s h x.cqid with
      | some c => cqFull s h x.cqid c
      | none => false)

/-- Entries of an SQ that hold tags (QUE_SQ_STAT.STARTED): for the admin SQ, commands with their status packets. -/
def startedOf (s : State) (h q : Nat) : Nat :=
  if q = 0 then adminOut s h else (s.que.ops.filter (fun o => o.2.host == h && o.2.sq == q)).length

/-- Accepted entries of an SQ wait for tags (QUE_SQ_STAT.QUOTA_WAIT). -/
def quotaWait (s : State) (h q : Nat) (x : Sq) : Bool :=
  if q = 0 then s.cmd.waiting.any (fun w => w.1 == h) && decide (quotaOf s h - 16 ≤ tagsHeld s h)
  else match x.entries with
    | e :: _ => e.accepted && decide (tagBound s h e ≤ tagsHeld s h)
    | [] => false

/-- QUE_SQ_CFG. -/
def sqCfgReg (s : State) (h q : Nat) : Nat :=
  match sqOf s h q with
  | some x => 2 ^ 31 + fieldAt (b2n (x.rx == some true)) 30 1 + fieldAt (x.burst - 1) 24 6 + fieldAt x.weight 16 8
      + fieldAt x.sizeLog2 10 4 + fieldAt x.cqid 0 10
  | none => 0

/-- QUE_SQ_STAT; STARTED is modulo 2^16. DESIGN CHOICE, log entry 105. -/
def sqStatReg (s : State) (h q : Nat) : Nat :=
  match sqOf s h q with
  | some x => fieldAt (b2n (fetchStop s h x)) 31 1
      + fieldAt (b2n (quotaWait s h q x)) 30 1
      + fieldAt (startedOf s h q) 0 16
  | none => 0

/-- QUE_CQ_CFG. -/
def cqCfgReg (s : State) (h c : Nat) : Nat :=
  match cqOf s h c with
  | some x => 2 ^ 31 + fieldAt (b2n x.irqEn) 30 1 + fieldAt x.vec 16 6 + fieldAt x.sizeLog2 0 4
  | none => 0

/-- QUE_CQ_STAT. -/
def cqStatReg (s : State) (h c : Nat) : Nat :=
  match cqOf s h c with
  | some x => fieldAt (b2n (!x.ovf.isEmpty)) 31 1 + fieldAt (b2n (cqFull s h c x)) 30 1 + fieldAt x.ovf.length 0 17
  | none => 0

/-- QUE_CQ_RESV. -/
def cqResvReg (s : State) (h c : Nat) : Nat :=
  match cqOf s h c with
  | some x => resvOf s h c x
  | none => 0

/-! ### The commands of group 0x01 -/

/-- The rim learns of a queue, or forgets it, with a numbered set (R65). DEDUCED, log entry 71. -/
def bodyCreateCq : Body where
  check who p _ s := when (cqOf s who.host (par p 0x10 2)).isSome (fStateAt 0x10)
  act who p _ s := .done (pushSet [.cqPage who.host (par p 0x10 2) true] (putCq (keepCqPage who.host (par p 0x10 2) s) who.host (par p 0x10 2)
    { sizeLog2 := par p 0x12 1, vec := par p 0x13 1, irqEn := bitN (par p 0x14 4) 0, base := BitVec.ofNat 64 (par p 0x18 8) }))
    0 true

/-- QUE_CREATE_CQ. -/
def execQueCreateCq (h : Host) (p : Packet) (s : State) : Out := .next (runAdmin csCreateCq bodyCreateCq h p (.data []) s)

def bodyCreateSq : Body where
  check who p _ s :=
    when (sqOf s who.host (par p 0x10 2)).isSome (fStateAt 0x10)
    ++ when (cqOf s who.host (par p 0x14 2)).isNone (fStateAt 0x14)
  act who p _ s := .done (pushSet [.sqPage who.host (par p 0x10 2) true] (putSq (keepPage who.host (par p 0x10 2) s) who.host (par p 0x10 2)
    { sizeLog2 := par p 0x12 1, weight := par p 0x13 1, cqid := par p 0x14 2, burst := par p 0x16 1
      base := BitVec.ofNat 64 (par p 0x18 8) })) 0 true

/-- QUE_CREATE_SQ. -/
def execQueCreateSq (h : Host) (p : Packet) (s : State) : Out := .next (runAdmin csCreateSq bodyCreateSq h p (.data []) s)

/-- An SQ has entries that were taken and whose CQEs are not all written and released (R141, R158). DEDUCED, log
entry 77. -/
def sqHasWork (s : State) (h q : Nat) (x : Sq) : Bool := !x.entries.isEmpty || decide (0 < startedOf s h q)

/-- The side deletes an SQ: its page stands until the rim takes the set. -/
def dropSq (h q : Nat) (s : State) : State :=
  match sqOf s h q with
  | some x => pushSet [.sqPage h q false] (putSq s h q { x with gone := true })
  | none => s

/-- The side deletes a CQ. -/
def dropCq (h c : Nat) (s : State) : State :=
  match cqOf s h c with
  | some x => pushSet [.cqPage h c false] (putCq s h c { x with gone := true })
  | none => s

def bodyDeleteSq : Body where
  check who p _ s := match sqOf s who.host (par p 0x10 2) with
    | none => [fStateAt 0x10]
    | some x => when (sqHasWork s who.host (par p 0x10 2) x) (fBusyAt 0x10)
  act who p _ s := .done (dropSq who.host (par p 0x10 2) s) 0 true

/-- QUE_DELETE_SQ: entries rung and not taken go with it (R158). -/
def execQueDeleteSq (h : Host) (p : Packet) (s : State) : Out := .next (runAdmin csDeleteSq bodyDeleteSq h p (.data []) s)

/-- Some SQ of the host is bound to a CQ. -/
def cqBound (s : State) (h c : Nat) : Bool := s.que.sqs.any (fun x => x.1 / 1024 == h && x.2.cqid == c && !x.2.gone)

def bodyDeleteCq : Body where
  check who p _ s := match cqOf s who.host (par p 0x10 2) with
    | none => [fStateAt 0x10]
    | some x => when (cqBound s who.host (par p 0x10 2)) (fStateAt 0x10)
        ++ when (decide (0 < x.resv) || !x.ovf.isEmpty) (fBusyAt 0x10)
  act who p _ s := .done (dropCq who.host (par p 0x10 2) s) 0 true

/-- QUE_DELETE_CQ. -/
def execQueDeleteCq (h : Host) (p : Packet) (s : State) : Out := .next (runAdmin csDeleteCq bodyDeleteCq h p (.data []) s)

def bodySetWrr : Body where
  check who p _ s := when (sqOf s who.host (par p 0x10 2)).isNone (fStateAt 0x10)
  act who p _ s := match sqOf s who.host (par p 0x10 2) with
    | none => .done s 0 false
    | some x => .done (putSq s who.host (par p 0x10 2) { x with weight := par p 0x12 1, burst := par p 0x13 1 }) 0
      (x.weight != par p 0x12 1 || x.burst != par p 0x13 1)

/-- QUE_SET_WRR. -/
def execQueSetWrr (h : Host) (p : Packet) (s : State) : Out := .next (runAdmin csSetWrr bodySetWrr h p (.data []) s)

/-- The four quotas of QUE_SET_QUOTA. -/
def quotasOf (p : Packet) : List Nat := [par p 0x10 4, par p 0x14 4, par p 0x18 4, par p 0x1C 4]

def bodySetQuota : Body where
  check _ p _ _ := when (decide (131072 < (quotasOf p).sum)) { fNoResource with off := 0x10 }
  act _ p _ s := .done (touch .quota { s with que := { s.que with quota := quotasOf p } }) 0 (s.que.quota != quotasOf p)

/-- QUE_SET_QUOTA. -/
def execQueSetQuota (h : Host) (p : Packet) (s : State) : Out := .next (runAdmin csSetQuota bodySetQuota h p (.data []) s)

/-- The rim learns of an SQ, or forgets it. -/
def rimSqPage (h q : Nat) (on : Bool) (s : State) : State :=
  if !on && (tfind s.que.oldSqs (qkey h q)).isSome then { s with que := { s.que with oldSqs := tdel s.que.oldSqs (qkey h q) } }
  else match tfind s.que.sqs (qkey h q) with
  | none => s
  | some x =>
    if !on && x.gone then { s with que := { s.que with sqs := tdel s.que.sqs (qkey h q) } }
    else putSq s h q { x with page := on }

/-- The rim learns of a CQ, or forgets it. -/
def rimCqPage (h c : Nat) (on : Bool) (s : State) : State :=
  if !on && (tfind s.que.oldCqs (qkey h c)).isSome then { s with que := { s.que with oldCqs := tdel s.que.oldCqs (qkey h c) } }
  else match tfind s.que.cqs (qkey h c) with
  | none => s
  | some x =>
    if !on && x.gone then { s with que := { s.que with cqs := tdel s.que.cqs (qkey h c) } }
    else putCq s h c { x with page := on }

/-- The registers as a query that runs finds them: it holds a tag and a place of the admin CQ itself (R144, R146). -/
def withOwn (who : Issuer) (p : Packet) (s : State) : State :=
  if who.cfg then s else dueStatus who p stOk 0xFFFF 0 0 0 0 s

def bodyQueQuery : Body where
  act who p _ s :=
    let q := par p 0x10 2
    let u := withOwn who p s
    let c := match sqOf u who.host q with
      | some x => cqStatReg u who.host x.cqid
      | none => 0
    .done s (sqCfgReg u who.host q + sqStatReg u who.host q * 2 ^ 32 + c * 2 ^ 64) false

/-- QUE_QUERY. -/
def execQueQuery (h : Host) (p : Packet) (s : State) : Out := .next (runAdmin csQueQuery bodyQueQuery h p (.data []) s)

end Sys2Proof.Machine
end

