-- ==== Sys2Proof/Machine/Operations.lean ====
section
/-!
DEFINITION. Machine/Operations.lean: operations that hold a tag, their end as a CQE, and packet-buffer space.
-/

namespace Sys2Proof.Machine

/-- The operation of a tag. -/
def opOf (s : State) (t : Nat) : Option Op := tfind s.que.ops t
/-- Store it. -/
def putOp (s : State) (t : Nat) (o : Op) : State := { s with que := { s.que with ops := tset s.que.ops t o } }

/-- Free space once the present Move has committed (R27). -/
def freeLater (use n : Nat) (s : State) : State :=
  if n = 0 then s else { s with jrn := { s.jrn with frees := s.jrn.frees ++ [(s.jrn.move, use, n)] } }

/-- Return freed space to its user. -/
def freeNow (use n : Nat) (s : State) : State :=
  if use < 32 then putPort s use { portOf s use with held := (portOf s use).held - n }
  else if use = 32 then { s with txHeld := s.txHeld - n }
  else { s with fld := { s.fld with held := s.fld.held - n } }

/-- The space of every committed Move is freed. -/
def freeCommitted (s : State) : State :=
  let done := s.jrn.frees.filter (fun f => committed s f.1)
  let s := { s with jrn := { s.jrn with frees := s.jrn.frees.filter (fun f => !committed s f.1) } }
  done.foldl (fun s f => freeNow f.2.1 f.2.2 s) s

/-- No timestamp (R108). -/
def noTs : Ts := {}

/-- SOURCE of an operation's CQE (R147). -/
def opSource (o : Op) : BitVec 16 :=
  match o.kind with
  | .frame | .inline | .stream | .gather => BitVec.ofNat 16 o.port
  | .rxBuf => o.rxSource
  | _ => 0xFFFF

/-- Whose packet-buffer space an operation holds: a port's, the field ports' (33) or the transmit side's (32). -/
def heldUse (o : Op) : Nat :=
  if o.kind = .rxBuf then (if o.rxSource.toNat < 32 then o.rxSource.toNat else 33) else 32

/-- An operation is done: its CQE waits for the commit of the present Move (R147, R149). -/
def completeOp (t status : Nat) (flags : Byte) (result : Nat) (ts : Ts) (s : State) : State :=
  match opOf s t with
  | none => s
  | some o =>
    let c : Cqe := { user := o.user, sqid := BitVec.ofNat 16 o.sq, slot := o.slot, status := status, flags := flags,
                     epoch := s.time.epoch, source := opSource o, ts := ts, result := w32 result }
    let s := freeLater (heldUse o) o.held s
    let s := putOp s t { o with stage := .done, held := 0, payload := [], rxBytes := [], tpl := [] }
    let s := match sqOf s o.host o.sq with
      | none => s
      | some x => putSq s o.host o.sq { x with posted := x.posted.erase t }
    let cq := match sqOf s o.host o.sq with
      | some x => x.cqid
      | none => 0
    let d : DueCqe := { move := s.jrn.move, host := o.host, cq := cq, sq := o.sq, tag := t, noIrq := o.noIrq, cqe := c }
    { s with jrn := { s.jrn with dueCqe := s.jrn.dueCqe ++ [d] } }

/-- An operation that transmits on a high-speed port. -/
def isTxKind : OpKind → Bool
  | .frame | .inline | .stream | .gather => true
  | _ => false

/-- STATUS and RESULT of a transmit operation whose end is decided: it failed, or every copy has left or expired and
nothing more comes (R254, R306). -/
def txEnd (o : Op) : Option (Nat × Nat) :=
  match o.stage with
  | .failed st => some (st, 0)
  | .queued | .staged =>
    if o.copies != 0 then none
    else match o.kind with
      | .stream =>
        if o.dead then some (if o.fault = 0 then stExpired else o.fault, o.count)
        else if o.sentBytes = o.payLen then some (stOk, o.count) else none
      | _ => some (if o.left then stOk else stExpired, if o.kind == .gather then o.count else 0)
  | _ => none

/-- The transmit operations of an SQ and flow queue that are not done, oldest first. -/
def txGroup (s : State) (o : Op) : List Nat :=
  ((s.que.ops.filter (fun x => isTxKind x.2.kind && x.2.stage != .done && x.2.host == o.host && x.2.sq == o.sq
      && x.2.flow == o.flow)).insertionSort (fun a b => a.2.order ≤ b.2.order)).map (·.1)

/-- Complete operations in order up to the first whose end is not decided. -/
def settleTx : List Nat → State → State
  | [], s => s
  | t :: ts, s =>
    match (opOf s t).bind (fun o => (txEnd o).map (fun e => (o, e))) with
    | some (o, st, n) => settleTx ts (completeOp t st 0 n (if o.tsReq then o.ts else noTs) s)
    | none => s

/-- A transmit operation has come to its end: the entries of its SQ and flow queue complete in SQ order (R151). DEDUCED,
log entry 79. -/
def finishTx (t : Nat) (s : State) : State :=
  match opOf s t with
  | none => s
  | some o => if isTxKind o.kind then settleTx (txGroup s o) s else s

/-- RESULT of a receive buffer (R147). -/
def rxResult (o : Op) : Nat := o.rxBytes.length % 2 ^ 14 + (if o.rxBad then o.rxErr.toNat * 2 ^ 14 else 0)

/-- FLAGS of a receive buffer: RX, TRUNC, BADFRAME. -/
def rxFlags (o : Op) : Byte :=
  BitVec.ofNat 8 (2 + (if o.len < o.rxBytes.length then 4 else 0) + (if o.rxBad then 8 else 0))

/-- A receive write has ended: the frame stands in the buffer, or is dropped with the fault (R138, R172). -/
def completeRx (t code : Nat) (o : Op) (s : State) : State :=
  if code = 0 then completeOp t stOk (rxFlags o) (rxResult o) o.ts s
  else completeOp t (endStatusOf code) 2 0 noTs (count .queSqRxnobuf [o.host, o.sq] 0 1 s)

/-- A receive buffer holds a frame and is not done. -/
def rxFilled (o : Op) : Bool :=
  o.kind == .rxBuf && (match o.stage with | .waitChan | .onChan _ | .written _ => true | _ => false)

/-- The receive buffers of an SQ that are filled and not done, in the order in which they were filled. -/
def rxGroup (s : State) (o : Op) : List Nat :=
  ((s.que.ops.filter (fun x => rxFilled x.2 && x.2.host == o.host && x.2.sq == o.sq)).insertionSort
    (fun a b => a.2.order ≤ b.2.order)).map (·.1)

/-- Complete receive buffers in order up to the first whose write has not ended. -/
def settleRx : List Nat → State → State
  | [], s => s
  | t :: ts, s =>
    match opOf s t with
    | some o => match o.stage with
      | .written code => settleRx ts (completeRx t code o s)
      | _ => s
    | none => s

/-- A receive write ends: the buffers of one receive SQ complete in the order in which they were filled (R151). -/
def finishRx (t code : Nat) (s : State) : State :=
  match opOf s t with
  | none => s
  | some o => settleRx (rxGroup s o) (putOp s t { o with stage := .written code })

/-- An operation fails: a transmit one waits for the earlier entries of its flow queue (R151). -/
def failOp (t status : Nat) (s : State) : State :=
  match opOf s t with
  | none => s
  | some o =>
    if isTxKind o.kind then finishTx t (putOp s t { o with stage := .failed status })
    else completeOp t status 0 0 noTs s

/-- A frame expired on a port (R242, R551). -/
def countExpired (p : Nat) (s : State) : State := pushSet [.bump (ckey .gateCntExpired [p] 0) 1, .raise (evGateExpired p)] s

/-! ### Transmit timestamp queues (R109 to R111) -/

/-- The queue of a port. -/
def txtsOf (s : State) (p : Nat) : TxTsQ := tget {} s.time.txts p
/-- Store it. -/
def putTxts (s : State) (p : Nat) (q : TxTsQ) : State := { s with time := { s.time with txts := tput {} s.time.txts p q } }

/-- A timestamp arrives: it enters, or is lost and counted. -/
def pushTxts (p : Nat) (ts : Ts) (ref : W32) (s : State) : State :=
  let q := txtsOf s p
  if q.entries.length < 128 then
    putTxts s p { q with entries := q.entries ++ [{ ns := ts.ns, epoch := ts.epoch, tsf := ts.tsf, ref := ref }] }
  else
    raise (evTxtsOvf p) (count .timeTxtsLost [p] 0 1 (putTxts s p { q with
      ovf := true, lost := min 0x3FFFFFFF (q.lost + 1), lostAt := some (q.lostAt.getD ts) }))

/-- Remove the oldest entry; a gap marker takes the free place. -/
def popTxts (p : Nat) (s : State) : State × TxTs :=
  let q := txtsOf s p
  match q.entries with
  | [] => (s, {})
  | e :: es =>
    let q := { q with entries := es }
    let q := match q.lostAt with
      | some t => { q with entries := es ++ [{ ns := t.ns, epoch := t.epoch, tsf := t.tsf
                                               ref := w32 (3 * 2 ^ 30 + q.lost) }], lost := 0, lostAt := none }
      | none => q
    (putTxts s p q, e)

end Sys2Proof.Machine
end

