-- ==== Sys2Proof/Machine/Sched.lean ====
section
/-!
DEFINITION. Machine/Sched.lean: flow queues, fair queueing, shapers, picks, segments, expiry, departures and monitors
(R190 to R223, R242, R248 to R254), and the flow commands of group 0x03.
-/

namespace Sys2Proof.Machine

/-- A flow queue. -/
def flowOf (s : State) (f : Nat) : FlowQ := tget {} s.sch.flows f
/-- Store it. -/
def putFlow (s : State) (f : Nat) (x : FlowQ) : State := { s with sch := { s.sch with flows := tput {} s.sch.flows f x } }
/-- Virtual time of a class of a port. -/
def vtOf (s : State) (p t : Nat) : Nat := tget 0 s.sch.vt (p * 8 + t)
/-- Store it. -/
def putVt (s : State) (p t v : Nat) : State := { s with sch := { s.sch with vt := tput 0 s.sch.vt (p * 8 + t) v } }

/-- Tag order: `a` precedes `b` (48-bit wrap). -/
def tagBefore (a b : Nat) : Bool :=
  let d := (b + 2 ^ 48 - a % 2 ^ 48) % 2 ^ 48
  decide (1 ≤ d) && decide (d < 2 ^ 47)

/-- The later of two tags. -/
def tagLater (a b : Nat) : Nat := if tagBefore a b then b else a

/-- A flow queue that SCH_FLOW_SET named exists and is enabled for the same port and class (R134). -/
def flowFits (s : State) (f p t : Nat) : Bool :=
  let x := flowOf s f
  x.en && x.port == p && x.tc == t

/-- Length with FCS of a flow's frame after R-TAG and padding (R307). -/
def flowLen (seq : Option Nat) (bytes : List Byte) : Nat := max 60 (bytes.length + (if seq.isSome then 6 else 0)) + 4

/-- Counted length (R195). -/
def counted (x : FlowQ) (len : Nat) : Nat := ((len : Int) + x.overhead).toNat

/-- Provisional or actual length of a head element (R198): the provisional length counts no FCS and no padding, and falls to 0
at the least. DESIGN CHOICE, log entry 90. -/
def headLen (s : State) (f : Nat) (e : Elem) : Nat :=
  match e.kind, e.tag.bind (opOf s) with
  | .stream, some o => min e.maxlen (o.payLen - o.sentBytes + o.tpl.length + rtagLen s f)
  | _, _ => flowLen e.seq e.bytes

/-- Finish tag from a start tag (R196). -/
def finishTag (x : FlowQ) (start lc : Nat) : Nat := (start + divUp (lc * 65536) (max 1 x.weight)) % 2 ^ 48

/-- The last WEIGHT and OVERHEAD whose Move has committed (R205, R552). -/
def takeShare (s : State) (x : FlowQ) : FlowQ :=
  let x' := { x with newShare := x.newShare.filter (fun y => !sideCommit s y.1) }
  match (x.newShare.filter (fun y => sideCommit s y.1)).getLast? with
  | some (_, w, o) => { x' with weight := w, overhead := o }
  | none => x'

/-- The last RATE and BURST whose Move has committed at elapsed network time `t` (R204, R552). -/
def takeShape (s : State) (t : Nat) (x : FlowQ) : FlowQ :=
  let x' := { x with newShape := x.newShape.filter (fun y => !commitAt s t y.1) }
  match (x.newShape.filter (fun y => commitAt s t y.1)).getLast? with
  | some (_, r, b) => { x' with rate := r, burst := b }
  | none => x'

/-- The element at the head of a flow queue takes its tags (R196, R205), each segment of a stream anew. DESIGN CHOICE, log
entry 91. -/
def becomeHead (f : Nat) (wasEmpty : Bool) (s : State) : State :=
  let x := takeShare s (flowOf s f)
  match x.elems with
  | [] => putFlow s f x
  | e :: es =>
    let st := if wasEmpty then tagLater (vtOf s x.port x.tc) x.tag else x.tag
    let fin := finishTag x st (counted x (headLen s f e))
    putFlow s f { x with tag := fin, elems := { e with tags := some (st, fin) } :: es }

/-- An element enters a flow queue (R191). -/
def enqueue (f : Nat) (e : Elem) (s : State) : State :=
  let x := flowOf s f
  let s := putFlow s f { x with elems := x.elems ++ [{ e with since := eventEl s, enter := eventEl s }] }
  let s := countMax .schFlowMaxdepth [f] 0 (x.elems.length + 1) s
  if x.elems.isEmpty then becomeHead f true s else s

/-- The head leaves its flow queue. -/
def dequeue (f : Nat) (s : State) : State :=
  let x := flowOf s f
  becomeHead f false (putFlow s f { x with elems := x.elems.tail })

/-- The frame's length with FCS exceeds MAXLEN and its counted tags (R134). -/
def tooLong (maxlen : Nat) (bytes : List Byte) (extra : Nat) : Bool :=
  decide (maxlen + 4 * tagCount bytes < bytes.length + extra + 4)

/-- Replica flow queues that a frame enters, and those it skips: the ports in use so far are `ports` (R305). -/
def replicas (s : State) (bytes : List Byte) (extra : Nat) : List Nat → List Nat → List Nat × Nat
  | _, [] => ([], 0)
  | ports, r :: rs =>
    let x := flowOf s r
    if !x.en || ports.contains x.port || tooLong (portOf s x.port).maxlen bytes extra then
      let (a, n) := replicas s bytes extra ports rs
      (a, n + 1)
    else
      let (a, n) := replicas s bytes extra (x.port :: ports) rs
      (r :: a, n)

/-- A frame enters its flow queue and its replicas' (R304, R305). The number of copies is added to its operation. A
replica that is skipped counts in STRM_G_SKIP of the handle's generation function where one is enabled, else nowhere. DESIGN CHOICE,
log entry 140. -/
def enterFlow (f : Nat) (kind : ElemKind) (tag : Option Nat) (bytes : List Byte) (s : State) : State :=
  let (s, seq) := takeSeq f s
  let e : Elem := { kind := kind, tag := tag, bytes := bytes, seq := seq, maxlen := (portOf s (flowOf s f).port).maxlen }
  let repl := match txEntry s f with
    | some x => entRepl x
    | none => []
  let (rs, skips) := replicas s bytes (if seq.isSome then 6 else 0) [(flowOf s f).port] repl
  let s := match genOfFlow s f with
    | some (g, _) => count .strmGSkip [g] 0 skips s
    | none => s
  let s := enqueue f e s
  let s := rs.foldl (fun s r => enqueue r e s) s
  match tag.bind (fun t => (opOf s t).map (fun o => (t, o))) with
  | some (t, o) => putOp s t { o with copies := o.copies + 1 + rs.length, stage := .queued }
  | none => s

/-! ### Picks (R194 to R203, R209) -/

/-- Frames staged in a class. -/
def stagedOf (s : State) (p t : Nat) : List Staged := tget [] (gateOf s p).staged t

/-- A staging queue has a place for what does not come over the express lane, up to `lim`: in an express class one place beyond
it is kept for the lane (R209). -/
def placeFor (s : State) (p t lim : Nat) : Bool :=
  let q := stagedOf s p t
  decide (q.length < 16) && (if isPre s p t then decide (q.length < lim)
    else decide ((q.filter (fun x => x.src != 5)).length < min lim 15))

/-- Ordinary picks have room in a class (R209). -/
def stageRoom (s : State) (p t : Nat) : Bool := placeFor s p t (regFld s .schClassCfg [p, t] 0 5)

/-- The first window at or after `d` ps from now that admits a frame of length `len`: when the frame starts in it, and how
long the gate then stays open. The first number bounds the windows looked at. -/
def placeAt (s : State) (p t len : Nat) (fit : Bool) : Nat → Nat → Option (Nat × Option Nat)
  | 0, _ => none
  | n + 1, d =>
    match windowFrom s p t d with
    | none => none
    | some (st, c) =>
      if admits s p t len fit c then some (st, c)
      else match c with
        | some c => placeAt s p t len fit n (st + c)
        | none => none

/-- Windows that the running and the pending tape can have. -/
def windowBound (g : GateP) : Nat :=
  2 * (g.tape.length + (match g.pend with | some x => x.tape.length | none => 0)) + 4

/-- When a frame that starts `d` ps from now at the earliest has left with its gap, in ps from now: one that the close cuts
finishes in the next window (R238, R251). -/
def placeEnd (s : State) (p t len : Nat) (fit : Bool) (d : Nat) : Option Nat :=
  let b := bytePs (portOf s p).speed
  match placeAt s p t len fit (windowBound (gateOf s p)) d with
  | none => none
  | some (st, c) =>
    if fits (wirePs s p len) c then some (st + (20 + len) * b)
    else
      let w := c.getD 0
      (windowFrom s p t (st + w)).map (fun y => y.1 + (20 + len - min (w / b - 12) (len - 64)) * b)

/-- When the frames `l`, staged in this order, have all left: the first starts `d` ps from now at the earliest. -/
def afterStaged (s : State) (p t : Nat) : List Staged → Nat → Option Nat
  | [], d => some d
  | x :: l, d =>
    match placeEnd s p t (wireLen x) x.fit d with
    | none => none
    | some e => afterStaged s p t l e

/-- When the frame of the class on the wire, or cut, has left with its gap, in ps from now; 0 with none. -/
def afterWire (s : State) (p t : Nat) : Option Nat :=
  let b := bytePs (portOf s p).speed
  let g := gateOf s p
  let rest := fun w : OnWire => (20 + w.wire.length + 4 - w.sent) * b
  match g.wire, g.cut with
  | some w, _ => if w.cls = t then some (w.startPs + rest w - elapsedPs s) else some 0
  | none, some w => if w.cls = t then (windowFrom s p t 0).map (fun y => y.1 + rest w) else some 0
  | none, none => some 0

/-- When a frame staged behind `l` would start, in ps from now: after the pick and its crossing, and after the class's
frames on the wire and in `l` (R251). -/
def startBehind (s : State) (p t : Nat) (l : List Staged) : Option Nat :=
  match afterWire s p t with
  | none => none
  | some d => (afterStaged s p t l d).map (max 20500)

/-- The window in which a frame staged behind `l` would start: how long it is open from the frame's start. -/
def windowBehind (s : State) (p t : Nat) (l : List Staged) : Option (Option Nat) :=
  match startBehind s p t l with
  | none => none
  | some d => (windowFrom s p t d).map (·.2)

/-- The gate of the class admits a frame staged now at the tail, under the close setting `fit` (R40, R197). -/
def stageAdmits (s : State) (p t len : Nat) (fit : Bool) : Bool :=
  match windowBehind s p t (stagedOf s p t) with
  | some c => admits s p t len fit c
  | none => false

/-- Payload length of the next segment of a stream; none where the flow is not eligible (R251, R252). -/
def segmentLen (s : State) (f p t : Nat) (o : Op) : Option Nat :=
  match windowBehind s p t (stagedOf s p t) with
  | none => none
  | some c =>
    let hdr := o.tpl.length + 4 + rtagLen s f
    let left := o.payLen - o.sentBytes
    let room := match c with
      | some c => min o.maxlen ((c - marginPs s p) / bytePs (portOf s p).speed - 8)
      | none => o.maxlen
    let gran := 2 ^ regFld s .gateSegCfg [p] 16 3
    let most := min left (room - hdr)
    let n := if most = left then most else most / gran * gran
    let len := hdr + n
    if n = 0 || (match c with | some c => decide (c < wirePs s p (max 64 len) + marginPs s p) | none => false) then none
    else if len < min (regFld s .gateSegCfg [p] 0 14) o.maxlen && n != left then none
    else if o.payload.length < o.sentBytes + n then none
    else some n

/-- The head of a flow may be picked for a class (R197). -/
def eligible (s : State) (p t f : Nat) (x : FlowQ) : Bool :=
  x.en && x.port == p && x.tc == t && decide (0 ≤ x.credit) &&
  match x.elems with
  | [] => false
  | e :: _ => match e.kind, e.tag.bind (opOf s) with
    | .stream, some o => (segmentLen s f p t o).isSome
    | _, _ => stageAdmits s p t (flowLen e.seq e.bytes) (gateOf s p).fit

/-- The winner among flows: the smallest head tag, then the lower number (R197). -/
def winner (s : State) (p t : Nat) : List (Nat × FlowQ) → Option (Nat × FlowQ) → Option (Nat × FlowQ)
  | [], best => best
  | (f, x) :: r, best =>
    if eligible s p t f x then
      match best with
      | none => winner s p t r (some (f, x))
      | some (g, y) => winner s p t r (if tagBefore x.tag y.tag then some (f, x) else some (g, y))
    else winner s p t r best

/-- The flow that a pick takes. -/
def pickOf (s : State) (p t : Nat) : Option (Nat × FlowQ) := if stageRoom s p t then winner s p t s.sch.flows none else none

/-- Delay bin (R217). -/
def delayBin (d : Nat) : Nat := if d < 256 then 0 else min 15 (Nat.log2 d - 7)
/-- Depth bin (R218). -/
def depthBin (n : Nat) : Nat := if n = 0 then 0 else min 15 (Nat.log2 n + 1)

/-- A monitor watches flow `f` or its class. -/
def monWatches (s : State) (m f p t : Nat) : Bool :=
  regFld s .schMonCfg [m] 31 1 == 1 &&
    (if regFld s .schMonCfg [m] 30 1 = 0 then regFld s .schMonCfg [m] 13 13 == f
     else regFld s .schMonCfg [m] 13 8 == p * 8 + t)

/-- The monitors of a target measure a queueing delay (R217, R219). -/
def measure (f p t d : Nat) (s : State) : State :=
  (List.range 64).foldl (fun s m =>
    if monWatches s m f p t then
      let s := count .schMonFrames [m] 0 1 (countMax .schMonMaxdelay [m] 0 d (count .schMonDbin [m, delayBin d] 0 1 s))
      let th := regVal s .schMonThresh [m]
      if th != 0 && decide (th ≤ d) then raiseS evDelayHigh (count .schMonOver [m] 0 1 s) else s
    else s) s

/-- An express-lane entry of this tag is not accepted yet (R39). -/
def unaccepted (s : State) (tag : Option Nat) : Bool :=
  tag.isSome && s.que.sqs.any (fun q => q.2.entries.any (fun e => e.lane == tag && !e.accepted))

/-- A picked item takes a staging place (R39, R209, R236). -/
def stage (p t : Nat) (x : Staged) (s : State) : State :=
  let g := gateOf s p
  putGate s p { g with
    staged := tput [] g.staged t (stagedOf s p t ++ [{ x with fit := g.fit && x.src != 1, mark := !unaccepted s x.tag
                                                              hold := tget 1000000 g.maxHold t }]) }

/-- Charge a pick of counted length `lc`: shaper, virtual time, counts (R197, R202). -/
def charge (f p t lc tag : Nat) (s : State) : State :=
  let x := flowOf s f
  let s := putFlow s f { x with credit := x.credit - (lc * 1000 : Nat) }
  count .schFlowStaged [f] 0 1 (putVt s p t (tagLater (vtOf s p t) tag))

/-- Frames of a class that no longer fit their window count as waiting, once each (R241). -/
def countWaiting (p t : Nat) (s : State) : State :=
  s.sch.flows.foldl (fun s fx =>
    match fx.2.elems with
    | e :: es =>
      if fx.2.en && fx.2.port == p && fx.2.tc == t && e.kind != .stream && !e.waited && decide (0 ≤ fx.2.credit)
          && !(fitRule s p t (gateOf s p).fit) && !stageAdmits s p t (flowLen e.seq e.bytes) (gateOf s p).fit then
        portCountWaited p (putFlow s fx.1 { fx.2 with elems := { e with waited := true } :: es })
      else s
    | [] => s) s
where
  portCountWaited (p : Nat) (s : State) : State := countS .gateCntWaited [p] 0 1 s

/-- Every rate tick up to the time of the last record has been taken: a pick sees the credit of its own time (R213). -/
def ticksDone (s : State) : Bool := decide (eventEl s < (s.sch.ticks + 1) * 1000)

/-- SCHEDULER_PICK: the winning flow's head frame is staged. A side that may not write to the rim stages nothing (R23). -/
def execSchedulerPick (p : Port) (t : Cls) (s : State) (d : SideId := .white) : Out :=
  .next (if !mayWrite d s then gatedWrite d s
    else if !serving s || !ticksDone s then s
    else
      let s := countWaiting p.val t.val s
      match pickOf s p.val t.val with
      | some (f, x) => match x.elems with
        | e :: _ =>
          if e.kind = .stream then s
          else
            let lc := counted x (flowLen e.seq e.bytes)
            let s := charge f p.val t.val lc x.tag (measure f p.val t.val (eventEl s - e.enter) s)
            let s := stage p.val t.val { src := if e.kind = .frame then 0 else 2, tag := e.tag, flow := f, bytes := e.bytes,
                                         seq := e.seq, since := e.since } s
            dequeue f s
        | [] => s
      | none => s)

/-- SEGMENT_PICK: a segment is sized, edited and staged by side `d` (R251, R198, R23). -/
def execSegmentPick (p : Port) (t : Cls) (s : State) (d : SideId := .white) : Out :=
  .next (if !mayWrite d s then gatedWrite d s
    else if !(serving s && ticksDone s) then s
    else match pickOf s p.val t.val with
      | some (f, x) => match x.elems with
        | e :: es =>
          match e.kind, e.tag, e.tag.bind (opOf s) with
          | .stream, some tag, some o =>
            match segmentLen s f p.val t.val o with
            | none => s
            | some n =>
              let last := o.sentBytes + n == o.payLen
              let bytes := segmentBytes o.tpl o.edits (slice o.payload o.sentBytes n) o.seg o.sentBytes last
              let (s, seq) := takeSeq f s
              let lc := counted x (flowLen seq bytes)
              let st := match e.tags with
                | some (a, _) => a
                | none => x.tag
              let fin := finishTag x st lc
              let s := putFlow s f { x with tag := fin, elems := { e with enter := eventEl s } :: es }
              let s := charge f p.val t.val lc fin (measure f p.val t.val (eventEl s - e.enter) s)
              let ref := if o.tsReq then some (w32 (tag * 2 ^ 13 + o.seg % 8192)) else none
              let s := stage p.val t.val { src := 1, tag := some tag, flow := f, bytes := bytes, seq := seq, since := e.since,
                                           ref := ref, lastSeg := last } s
              let s := putOp s tag { o with seg := o.seg + 1, sentBytes := o.sentBytes + n, copies := o.copies + 1 }
              if last then dequeue f s else becomeHead f false s
          | _, _, _ => s
        | [] => s
      | none => s)

/-- A channel whose payload copy is over is free; it keeps the codes of its last chain. -/
def releaseChan (c : Nat) (s : State) : State :=
  let x := tget {} s.dma.chans c
  let y : ChanSt := { endCode := x.endCode, endStatus := x.endStatus, endIdx := x.endIdx, resid := x.resid, cur := x.endIdx
                      pos := x.pos }
  { s with dma := { s.dma with chans := tput {} s.dma.chans c y } }

/-- The payload copy of a stream that ends early is over: its channel is free, and no chain has ended on it (R171). DESIGN CHOICE, log
entry 136. -/
def endPrefetch (tag : Nat) (s : State) : State :=
  match opOf s tag with
  | some o => match o.kind, o.stage with
    | .stream, .onChan c => putOp (releaseChan c s) tag { o with stage := .queued }
    | .stream, .waitChan => putOp s tag { o with stage := .queued }
    | _, _ => s
  | none => s

/-! ### Shapers, sweep, monitors -/

/-- The rate tick at elapsed network time `t` for a flow queue (R201, R204). -/
def flowTick (s : State) (t : Nat) (x : FlowQ) : FlowQ :=
  if x.en then
    let x := takeShape s t x
    let cap : Int := (x.burst * 1000 : Nat)
    if x.credit < cap then { x with credit := min (x.credit + (x.rate : Nat)) cap } else x
  else x

/-- RATE_TICK: network time has advanced by another 1,000 ns (R201). The tick is a time event for what it makes eligible. -/
def execRateTick (s : State) : Out :=
  let t := (s.sch.ticks + 1) * 1000
  .next (if elapsed s < t then s
    else { s with sch := { s.sch with ticks := s.sch.ticks + 1, flows := s.sch.flows.map (fun fx => (fx.1, flowTick s t fx.2)) }
                  jrn := { s.jrn with last := { s.jrn.last with el := max s.jrn.last.el t } } })

/-- TAG_SWEEP (R199). -/
def execTagSweep (f : Flow) (s : State) : Out :=
  let x := flowOf s f.val
  let v := vtOf s x.port x.tc
  let d := (v + 2 ^ 48 - x.tag % 2 ^ 48) % 2 ^ 48
  .next (if consuming s && decide (2 ^ 40 < d) && decide (d < 2 ^ 47) then
    putFlow s f.val { x with tag := (v + 2 ^ 48 - 2 ^ 40) % 2 ^ 48 } else s)

/-- Frames held and not staged in a monitor's target. -/
def monDepth (s : State) (m : Nat) : Nat :=
  if regFld s .schMonCfg [m] 30 1 = 0 then (flowOf s (regFld s .schMonCfg [m] 13 13)).elems.length
  else
    let c := regFld s .schMonCfg [m] 13 8
    ((s.sch.flows.filter (fun x => x.2.port * 8 + x.2.tc == c)).map (fun x => x.2.elems.length)).sum

/-- Elapsed network time of a monitor's next sample: the next multiple of its period (R218). DEDUCED, log entry 93. -/
def nextSample (s : State) (m : Nat) : Nat :=
  let p := 1000 * 2 ^ regFld s .schMonCfg [m] 26 4
  (tget 0 s.sch.sampled m / p + 1) * p

/-- MONITOR_SAMPLE: every 2^SAMPLE_LOG2 µs of elapsed network time (R218). -/
def execMonitorSample (m : Fin 64) (s : State) : Out :=
  let t := nextSample s m.val
  .next (if consuming s && regFld s .schMonCfg [m.val] 31 1 == 1 && decide (t ≤ elapsed s) then
    count .schMonQbin [m.val, depthBin (monDepth s m.val)] 0 1
      { s with sch := { s.sch with sampled := tput 0 s.sch.sampled m.val t } }
    else s)

/-! ### Departures and expiry (R213, R242) -/

/-- Remove the stream element of an operation from its flow queue. -/
def dropStream (f tag : Nat) (s : State) : State :=
  let s := endPrefetch tag s
  let x := flowOf s f
  match x.elems with
  | e :: es =>
    if e.tag = some tag then
      let back := match e.tags with
        | some (a, _) => a
        | none => x.tag
      becomeHead f false (putFlow s f { x with tag := back, elems := es })
    else putFlow s f { x with elems := x.elems.filter (fun e => e.tag != some tag) }
  | [] => s

/-- The elements of the operations `ts` leave a flow queue. -/
def dropFlow (ts : List Nat) (s : State) (f : Nat) : State :=
  let x := flowOf s f
  let mine := fun (e : Elem) => match e.tag with
    | some t => ts.contains t
    | none => false
  match x.elems with
  | [] => s
  | e :: _ =>
    let y := { x with elems := x.elems.filter (fun e => !mine e) }
    if mine e then
      becomeHead f false (putFlow s f { y with tag := match e.tags with
        | some (a, _) => a
        | none => x.tag })
    else putFlow s f y

/-- PTP message length by messageType. -/
def ptpLen (ty : Nat) : Nat := if ty = 0 then 44 else if ty = 8 then 76 else 54

/-- The ten bytes of a PTP timestamp: seconds and nanoseconds. -/
def ptpTime (t : Ts) : List Byte := beBytes (t.ns.toNat / 1000000000) 6 ++ beBytes (t.ns.toNat % 1000000000) 4

/-- A time-sync message of a domain slot as a frame of port `p` without FCS. A follow-up carries the time captured at its
message's departure (R113), a Pdelay_Resp that of its request. Fields that the spec does not state are free values.
PRESUMED, log entry 30. -/
def ptpFrame (p ty slot seq draw : Nat) (cap : Option Ts) (s : State) : List Byte :=
  let dom := if slot = 0 then s.ptp.slot0.domain else s.ptp.slot1.domain
  let n := ptpLen ty
  let body := padTo (leBytes (Config.ptpBody draw).toNat 64) n
  let head := patch (patch (body.take n) 0 [BitVec.ofNat 8 (16 + ty), 0x12, 0, BitVec.ofNat 8 n, BitVec.ofNat 8 dom]) 30 (beBytes seq 2)
  beBytes 0x0180C200000E 6 ++ beBytes (Config.stationMac p).toNat 6 ++ beBytes 0x88F7 2
    ++ (match cap with | some t => patch head 34 (ptpTime t) | none => head)

/-- The class of a port's time-sync messages (R193). -/
def ptpClass (s : State) (p : Nat) : Nat := regFld s .schPortCfg [p] 0 3

/-- The time-sync messages at the head of a staging queue. -/
def ptpHead (l : List Staged) : List Staged := l.takeWhile (fun x => x.src == 3)

/-- A time-sync message may be staged at the head of its class: a place stands free that is not the express lane's, and its gate
window is open when it would start (R40, R209). -/
def ptpFits (s : State) (p : Nat) (x : Staged) : Bool :=
  let t := ptpClass s p
  placeFor s p t 16 && (match windowBehind s p t (ptpHead (stagedOf s p t)) with
    | some c => admits s p t (wireLen x) (gateOf s p).fit c
    | none => false)

/-- Firmware stages a time-sync message at the head of its class, behind the time-sync messages there (R193). -/
def putPtp (p : Nat) (x : Staged) (s : State) : State :=
  let g := gateOf s p
  let t := ptpClass s p
  let l := stagedOf s p t
  let x := { x with fit := g.fit, hold := tget 1000000 g.maxHold t }
  putGate s p { g with staged := tput [] g.staged t (ptpHead l ++ x :: l.drop (ptpHead l).length) }

/-- The messages that wait are staged in order, each once it fits; those behind one of the same port wait with it, and those
of a port whose link is down are dropped. DESIGN CHOICE, log entry 92. -/
def flushPtp : List (Nat × Staged) → State → State
  | [], s => s
  | (p, x) :: l, s =>
    if !(portOf s p).link then flushPtp l s
    else if (s.ptp.due.all (fun y => y.1 != p)) && gateOpen s && ptpFits s p x then flushPtp l (putPtp p x s)
    else flushPtp l { s with ptp := { s.ptp with due := s.ptp.due ++ [(p, x)] } }

/-- Stage what can be staged of the messages that wait; nothing new in Safe-Hold (R288). -/
def settleDuePtp (s : State) : State :=
  if serving s then flushPtp s.ptp.due { s with ptp := { s.ptp with due := [] } } else s

/-- Firmware makes a time-sync message for a port and stages it, at once where it fits (R109, R193). -/
def stagePtp (p ty slot seq : Nat) (cap : Option Ts) (s : State) : State :=
  if (portOf s p).link && s.glb.mode != 11 then
    let (d, s) := draw s
    let x : Staged := { src := 3, bytes := ptpFrame p ty slot seq d cap s, since := eventEl s
                        ref := some (w32 (2 ^ 31 + (ty % 16) * 2 ^ 26 + (slot % 2) * 2 ^ 25 + seq % 65536)) }
    settleDuePtp { s with ptp := { s.ptp with due := s.ptp.due ++ [(p, x)] } }
  else s

/-- A peer-delay exchange of a port. -/
def delayOf (s : State) (p k : Nat) : PtpDelay := tget {} s.ptp.delays (p * 2 + k)
/-- Store it. -/
def putDelay (s : State) (p k : Nat) (x : PtpDelay) : State := { s with ptp := { s.ptp with delays := tput {} s.ptp.delays (p * 2 + k) x } }

/-- A Pdelay_Req has left: a new exchange begins; the last link delay stands. -/
def noteReq (p k seq : Nat) (ts : Ts) (s : State) : State :=
  putDelay s p k { seq := seq, t1 := some ts.ns.toNat, delay := (delayOf s p k).delay }

/-- The follow-up of a Sync or Pdelay_Resp carries the time captured at its departure; that of a Pdelay_Req begins an exchange
(R91, R113). -/
def ptpFollow (p : Nat) (x : Staged) (ts : Ts) (s : State) : State :=
  match x.ref with
  | some r =>
    let ty := bitsN r.toNat 26 4
    if x.src = 3 && ty == 2 then noteReq p (bitsN r.toNat 25 1) (bitsN r.toNat 0 16) ts s
    else if x.src = 3 && (ty == 0 || ty == 3) then
      stagePtp p (if ty = 0 then 8 else 10) (bitsN r.toNat 25 1) (bitsN r.toNat 0 16) (some ts) s
    else s
  | none => s

/-- Packet-buffer bytes that a staged frame holds by itself: one that no operation holds, time-sync and relayed frames aside. -/
def looseBytes (x : Staged) : Nat := if x.tag.isNone && x.src != 3 && x.src != 4 then x.bytes.length else 0

/-- The side consumes one departure: `left` false is a skipped expired frame. -/
def consumeDepart (p : Nat) (x : Staged) (left : Bool) (ts : Ts) (s : State) : State :=
  let s := if left then s else countExpired p s
  match x.tag.bind (fun t => (opOf s t).map (fun o => (t, o))) with
  | none =>
    let n := looseBytes x
    let s := freeLater 32 n { s with txHeld := s.txHeld + n }
    if left then ptpFollow p x ts s else s
  | some (t, o) =>
    let own := o.port == p && left
    let o := { o with copies := o.copies - 1, left := o.left || left,
                      ts := if own && (o.kind != .stream || o.count == 0) then ts else o.ts,
                      count := if o.kind == .stream && left then o.count + 1 else o.count }
    if o.kind == .stream && !left then finishTx t (dropStream x.flow t (putOp s t { o with dead := true }))
    else finishTx t (putOp s t o)

/-- The active side consumes the departure records that wait, each as of its own time (R213, R366). -/
def consumeDeparts (s : State) : State :=
  if consuming s then
    let l := s.jrn.departs
    settleDuePtp (l.foldl (fun s d => consumeAt d.2.2.2.2.2 (consumeDepart d.1 d.2.2.1 d.2.2.2.1 d.2.2.2.2.1) s) { s with jrn := { s.jrn with departs := [] } })
  else s

/-- The rim reports a departure to both Scoresheets (R213). -/
def reportDepart (p t : Nat) (x : Staged) (left : Bool) (ts : Ts) (s : State) : State :=
  let s := timeRecord (.departure p t x.tag) s
  let s := if x.src = 3 && left then timeRecordAt (.ownStamp p) ts.ns.toNat s else s
  let s := { s with jrn := { s.jrn with departs := s.jrn.departs ++ [(p, t, x, left, ts, stampNow s)],
                                        since := if left then s.jrn.since ++ [(s.jrn.move, p, t, x)] else s.jrn.since } }
  consumeDeparts s

/-- Count a sent frame (R280). -/
def countTx (p : Nat) (w : OnWire) (s : State) : State :=
  let s := portCount p 23 1 s
  let s := portCount p 24 (w.wire.length + 4) s
  let s := portCount p (if isBroadcast w.wire then 27 else if isGroup w.wire then 26 else 25) 1 s
  let s := if w.padded then portCount p 28 1 s else s
  if w.again then portCount p 30 1 s else s

/-- TSF bits of a sent frame: PREEMPT, REPLAY (R108, R112). -/
def wireTs (w : OnWire) : Ts :=
  { w.ts with tsf := w.ts.tsf ||| BitVec.ofNat 16 ((if w.cuts = 0 then 0 else 4) + (if w.again then 8 else 0)) }

/-- The frame on the wire is complete: counts, timestamp queue, departure report. -/
def endWire (p : Nat) (w : OnWire) (s : State) : State :=
  let s := takeTx p (applyKinds p (putGate s p { gateOf s p with wire := none }))
  let s := putPort s p { portOf s p with idleSince := elapsed s }
  let s := if w.stomp then s else countTx p w s
  let s := match w.item.ref with
    | some r => pushTxts p (wireTs w) r s
    | none => s
  if w.item.src = 4 then s else reportDepart p w.cls w.item true (wireTs w) s

/-- FRAME_DEPARTURE. -/
def execFrameDeparture (p : Port) (s : State) : Out :=
  .next (match (gateOf s p.val).wire with
    | some w => settleOff p.val (endWire p.val w s)
    | none => s)

/-- The operation of an element that has expired unstaged: it is counted, and ends once nothing of it is left (R242). -/
def endExpired (p : Nat) (e : Elem) (s : State) : State :=
  let s := countExpired p s
  match e.tag.bind (fun t => (opOf s t).map (fun o => (t, o))) with
  | none => if e.tag.isNone then freeLater 32 e.bytes.length { s with txHeld := s.txHeld + e.bytes.length } else s
  | some (t, o) =>
    if e.kind = .stream then finishTx t (endPrefetch t (putOp s t { o with dead := true }))
    else finishTx t (putOp s t { o with copies := o.copies - 1 })

/-- An expired frame that is not yet staged leaves its flow queue, and its charge is taken back (R196, R242). -/
def expireHead (f : Nat) (s : State) : State :=
  let x := flowOf s f
  match x.elems with
  | [] => s
  | e :: es =>
    let back := match e.tags with
      | some (a, _) => a
      | none => x.tag
    endExpired x.port e (becomeHead f false (putFlow s f { x with tag := back, elems := es }))

/-- An expired frame behind the head leaves its flow queue; the head keeps its tags. -/
def expireAt (f : Nat) (before : List Elem) (e : Elem) (behind : List Elem) (s : State) : State :=
  if before.isEmpty then expireHead f s
  else endExpired (flowOf s f).port e (putFlow s f { flowOf s f with elems := before ++ behind })

/-- Split a list at its first element for which `p` holds. -/
def splitAtFirst {α : Type} (p : α → Bool) : List α → Option (List α × α × List α)
  | [] => none
  | x :: r => if p x then some ([], x, r) else (splitAtFirst p r).map (fun y => (x :: y.1, y.2))

/-- The element of a flow queue has been held for the MAX_HOLD_US of its class at elapsed network time `now` (R242). -/
def elemOver (s : State) (x : FlowQ) (now : Nat) (e : Elem) : Bool :=
  decide (e.since + tget 1000000 (gateOf s x.port).maxHold x.tc * 1000 ≤ now)

/-- The staged frame of flow `f` has been held for the MAX_HOLD_US under which it was staged (R72, R242). -/
def stagedOver (f now : Nat) (y : Staged) : Bool :=
  y.flow == f && y.src != 3 && y.src != 4 && decide (y.since + y.hold * 1000 ≤ now)

/-- The first place of staging queues, port and class, that holds an overdue frame of flow `f`. -/
def overdueIn (s : State) (f : Nat) : Option (Nat × Nat × List Staged × Staged × List Staged) :=
  (s.gate.flatMap (fun g => g.2.staged.map (fun l => (g.1, l.1)))).findSome? (fun k =>
    (splitAtFirst (stagedOver f (elapsed s)) (stagedOf s k.1 k.2)).map (fun y => (k.1, k.2, y)))

/-- FRAME_EXPIRY: a frame of the flow has been held for MAX_HOLD_US. A staged one, in whatever class it stands, is skipped by the
executor, which reports it as a departure; one in the flow queue leaves it (R242). -/
def execFrameExpiry (f : Flow) (s : State) : Out :=
  .next (match overdueIn s f.val with
    | some (p, t, before, y, behind) =>
      let g := gateOf s p
      reportDepart p t { y with expired := true } false noTs
        (refill p t (putGate s p { g with staged := tput [] g.staged t (before ++ behind) }))
    | none =>
      if !consuming s then s
      else match splitAtFirst (elemOver s (flowOf s f.val) (elapsed s)) (flowOf s f.val).elems with
        | some (before, e, behind) => expireAt f.val before e behind s
        | none => s)

/-! ### Commands -/

/-- Signed OVERHEAD of SCH_FLOW_SET. -/
def overheadOf (p : Packet) : Int := signedN (par p 0x16 1) 8

/-- A frame is bound for a flow queue (R206). -/
def flowBound (s : State) (f : Nat) : Bool :=
  !(flowOf s f).elems.isEmpty
  || s.fld.aggs.any (fun a => (a.2.building.map (·.flow)) == some f)
  || s.que.ops.any (fun o => o.2.flow == f && (o.2.kind == .frame || o.2.kind == .stream || o.2.kind == .gather)
      && (match o.2.stage with | .waitChan => true | .onChan _ => o.2.kind != .stream | .waitQueue => true | _ => false))

/-- Flow queues attached to a class, `f` aside. -/
def attached (s : State) (f p t : Nat) : Nat :=
  (s.sch.flows.filter (fun x => x.1 != f && x.2.en && x.2.port == p && x.2.tc == t)).length

/-- The tag of a flow queue that SCH_FLOW_SET attaches: V of a class it comes to anew (R206). DEDUCED, log entry 73. -/
def tagFor (s : State) (x : FlowQ) (p t : Nat) : Nat := if x.port = p && x.tc = t then x.tag else vtOf s p t

/-- RATE and BURST, WEIGHT and OVERHEAD of the last SCH_FLOW_SET. -/
def lastShape (x : FlowQ) : Nat × Nat := ((x.newShape.getLast?).map (·.2)).getD (x.rate, x.burst)
def lastShare (x : FlowQ) : Nat × Int := ((x.newShare.getLast?).map (·.2)).getD (x.weight, x.overhead)

def bodyFlowSet : Body where
  check _ p _ s :=
    let f := par p 0x10 2
    let x := flowOf s f
    let moves := x.en && (x.port != par p 0x12 1 || x.tc != par p 0x13 1)
    when (decide (overheadOf p < -32) || decide (63 < overheadOf p)) (fRange 0x16)
    ++ when (moves && flowBound s f) (fBusyAt 0x10)
    ++ when ((moves || !x.en) && decide (512 ≤ attached s f (par p 0x12 1) (par p 0x13 1))) fNoResource
  act _ p _ s :=
    let f := par p 0x10 2
    let x := flowOf s f
    let m := s.jrn.move
    let at_ : FlowQ := { x with port := par p 0x12 1, tc := par p 0x13 1, tag := tagFor s x (par p 0x12 1) (par p 0x13 1) }
    let y : FlowQ :=
      if x.en then
        { at_ with newShape := x.newShape ++ [(m, par p 0x18 4, par p 0x1C 4)]
                   newShare := x.newShare ++ [(m, par p 0x14 2, overheadOf p)] }
      else
        { at_ with en := true, weight := par p 0x14 2, overhead := overheadOf p, rate := par p 0x18 4, burst := par p 0x1C 4
                   credit := 0, newShape := [], newShare := [] }
    .done (touch (.flow f) (putFlow s f y)) 0
      (!x.en || x.port != at_.port || x.tc != at_.tc || lastShape x != lastShape y || lastShare x != lastShare y)

/-- SCH_FLOW_SET. -/
def execSchFlowSet (h : Host) (p : Packet) (s : State) : Out := .next (runAdmin csFlowSet bodyFlowSet h p (.data []) s)

def bodyFlowDisable : Body where
  check _ p _ s := when (!(flowOf s (par p 0x10 2)).en) (fStateAt 0x10)
    ++ when (flowBound s (par p 0x10 2)) (fBusyAt 0x10)
  act _ p _ s := .done (touch (.flow (par p 0x10 2)) (putFlow s (par p 0x10 2) { flowOf s (par p 0x10 2) with en := false })) 0 true

/-- SCH_FLOW_DISABLE. -/
def execSchFlowDisable (h : Host) (p : Packet) (s : State) : Out := .next (runAdmin csFlowDisable bodyFlowDisable h p (.data []) s)

def bodySchQuery : Body where
  act _ p _ s :=
    let x := flowOf s (par p 0x10 2)
    .done s (twosN x.credit 48 + fieldAt x.elems.length 48 24 + fieldAt (b2n x.en) 72 1
      + fieldAt (b2n (!x.elems.isEmpty)) 73 1 + fieldAt (b2n (decide (x.credit < 0))) 74 1) false

/-- SCH_QUERY. -/
def execSchQuery (h : Host) (p : Packet) (s : State) : Out := .next (runAdmin csSchQuery bodySchQuery h p (.data []) s)

end Sys2Proof.Machine
end

