-- ==== Sys2Proof/Machine/Ports.lean ====
section
/-!
DEFINITION. Machine/Ports.lean: the high-speed ports: links, reception's reservation, low-power idle, recalibration, and
the port commands of group 0x02 (R260 to R291).
-/

namespace Sys2Proof.Machine

/-! ### Registers -/

/-- PORT_CFG. -/
def portCfgReg (s : State) (p : Nat) : Nat :=
  let x := portOf s p
  fieldAt (b2n x.en) 31 1 + fieldAt x.speed 24 3 + fieldAt x.iface 20 2 + fieldAt (b2n x.eee) 17 1
    + fieldAt (b2n x.bad) 16 1 + fieldAt x.maxlen 0 14

/-- PORT_STATUS. -/
def portStatusReg (s : State) (p : Nat) : Nat :=
  let x := portOf s p
  fieldAt (b2n x.link) 31 1 + fieldAt (b2n x.recal) 30 1 + fieldAt (b2n (x.txLpi || x.waking)) 29 1
    + fieldAt (b2n x.rxLpi) 28 1 + fieldAt (b2n x.mismatch) 27 1 + fieldAt (b2n x.hiBer) 26 1
    + fieldAt (b2n x.blockLock) 25 1

/-- PORT_EEE_STAT. -/
def portEeeStatReg (s : State) (p : Nat) : Nat :=
  let x := portOf s p
  fieldAt (b2n x.peerTw.isSome) 31 1 + fieldAt (x.peerTw.getD 0) 19 8 + fieldAt x.dawn 0 19

/-- PORT_INBAND_STAT. -/
def portInbandReg (s : State) (p : Nat) : Nat :=
  match (portOf s p).inband with
  | some v => 2 ^ 31 + fieldAt v.toNat 26 5
  | none => 0

/-- PORT_RECAL_STAT. -/
def portRecalReg (s : State) (p : Nat) : Nat :=
  let x := portOf s p
  fieldAt (b2n x.recal) 31 1 + fieldAt x.recalStatus 16 8 + fieldAt x.recalCount 0 16

/-! ### Links (R263, R264) -/

/-- The part reads an in-band word on the port. -/
def hasInband (s : State) (p : Nat) : Bool := decide (2 ≤ (portOf s p).iface) && regFld s .portPcsCfg [p] 9 1 == 0

/-- The part's own LLDP frame: chassis and port, its life, and the EEE TLV with LOCAL_TW_US as Transmit Tw and Receive Tw and
the partner's as echo (R282). PRESUMED, log entry 96. -/
def lldpFrame (s : State) (p : Nat) : List Byte :=
  let tw := regFld s .portEeeCfg [p] 8 8
  let peer := (portOf s p).peerTw.getD 0
  beBytes 0x0180C200000E 6 ++ beBytes (Config.stationMac p).toNat 6 ++ beBytes 0x88CC 2
    ++ beBytes 0x020704 3 ++ beBytes (Config.stationMac p).toNat 6 ++ beBytes 0x040307 3 ++ beBytes p 2 ++ beBytes 0x06020078 4
    ++ beBytes 0xFE0E00120F05 6 ++ beBytes tw 2 ++ beBytes tw 2 ++ beBytes tw 2 ++ beBytes tw 2 ++ beBytes peer 2
    ++ beBytes 0xFE0600120F07 6 ++ beBytes (3 + 8 * regFld s .gateMmCfg [p] 2 2) 2 ++ beBytes 0 2

/-- The active side's firmware advertises LOCAL_TW_US on a port: with the time-sync messages of its class (R282). -/
def sendLldp (p : Nat) (s : State) : State :=
  if consuming s && (portOf s p).link then
    settleDuePtp { s with ptp := { s.ptp with due := s.ptp.due ++ [(p, { src := 3, bytes := lldpFrame s p, since := eventEl s })] } }
  else s

/-- LINK_UP: the conditions of R263 hold. The link comes up; verify and the EEE negotiation restart. Verify asks
PE_EN as well. DESIGN CHOICE, log entry 111. -/
def execLinkUp (p : Port) (s : State) : Out :=
  let x := portOf s p.val
  .next (if x.en && !x.txOff && !x.link && !x.recal then
      let x := { x with link := true, mismatch := false, hiBer := false, blockLock := true, peerTw := none, idleSince := elapsed s,
                        inband := if hasInband s p.val then some (BitVec.ofNat 5 (24 + x.speed)) else x.inband }
      let s := putPort s p.val x
      let s := if peEn s p.val && verifyEn s p.val then putGate s p.val { gateOf s p.val with verify := 2, attempts := 1 } else s
      let k := p.val / 2
      let s := if s.fab.open_.getLsbD k && (portOf s (2 * k)).link && (portOf s (2 * k + 1)).link then
          { s with fab := { s.fab with fail := s.fab.fail &&& ~~~(BitVec.ofNat 8 (2 ^ k)) } }
        else s
      sendLldp p.val (raise (evLinkUp p.val) s)
    else s)

/-- The frames being sent count as sent, and as aborted (R264). -/
def abortTx (p : Nat) (s : State) : State :=
  let s := match (gateOf s p).wire with
    | some w => portCount p 29 1 (endWire p w s)
    | none => s
  match (gateOf s p).cut with
  | some w => portCount p 29 1 (endWire p w (putGate s p { gateOf s p with cut := none }))
  | none => s

/-- The reception of a frame is over: the frame that it interrupted goes on, or a boundary in the receiving direction lets
waiting settings apply (R65, R106, R271). -/
def rxPop (p : Nat) (s : State) : State :=
  let x := portOf s p
  match x.rxHeld with
  | some (r, ts, el) => putPort s p { x with rx := some r, rxTs := ts, rxEl := el, rxHeld := none }
  | none =>
    let (m, b) := x.rxNext.getD (x.rxMax, x.bad)
    putPort s p { x with rx := none, keep := none, rxMax := m, bad := b, rxNext := none }

/-- A frame being received is dropped (R264, R280). -/
def dropRx (p : Nat) (s : State) : State :=
  match (portOf s p).rx with
  | some r =>
    let (i, s) := draw s
    rxPop p (portCount p 15 (Config.cutOctets i) (portCount p 8 1 (putPort s p { portOf s p with held := (portOf s p).held - r })))
  | none => s

/-- The frames being received are dropped: an express frame and the one that it interrupts. -/
def abortRx (p : Nat) (s : State) : State := dropRx p (dropRx p s)

/-- The lane goes down: what R264 does but for the count and the event (R285, R287). -/
def laneDown (p : Nat) (lock : Bool) (s : State) : State :=
  if (portOf s p).link then dropLink p lock (abortRx p (abortTx p s)) else s

/-- The link of an enabled port goes down. -/
def linkLost (p : Nat) (lock : Bool) (s : State) : State :=
  if (portOf s p).link then
    let s := laneDown p lock s
    if (portOf s p).en then raise (evLinkDown p) (portCount p 35 1 s) else s
  else s

/-- An in-band word with LINK 0 has come on a port that reads them (R263, R290): the row does not bring its other fields, which stay as
they were. DESIGN CHOICE, log entry 133. -/
def inbandDown (v : Option (BitVec 5)) : Option (BitVec 5) := some (v.getD 0 &&& 0xF#5)

/-- LINK_DOWN: a condition of R263 fails. With the receiver still synchronized, a PHY's in-band word has said so. While an enabled
link is down already, the receiver's lock alone moves (R290). -/
def execLinkDown (p : Port) (s : State) (lock hiBer : Bool := false) : Out :=
  let base := decide ((portOf s p.val).iface ≤ 1)
  let inb := hasInband s p.val && lock
  let was := (portOf s p.val).link
  let s := linkLost p.val lock s
  let word := if inb then inbandDown (portOf s p.val).inband else (portOf s p.val).inband
  .next (if was then putPort s p.val { portOf s p.val with hiBer := base && hiBer, inband := word }
    else if (portOf s p.val).en then
      putPort s p.val { portOf s p.val with blockLock := lock, hiBer := base && hiBer, inband := word }
    else s)

/-- INBAND_MISMATCH: the PHY's word names another speed or half duplex. -/
def execInbandMismatch (p : Port) (speed : BitVec 3) (fullDuplex : Bool) (s : State) : Out :=
  .next (if (portOf s p.val).en && hasInband s p.val && (speed.toNat != (portOf s p.val).speed || !fullDuplex) then
      let s := linkLost p.val true s
      let v := 16 + 8 * b2n fullDuplex + speed.toNat
      raise evInbandMismatch (putPort s p.val { portOf s p.val with mismatch := true, blockLock := true, inband := some (BitVec.ofNat 5 v) })
    else s)

/-- FEC_UNCORRECTABLE_BLOCK (R280, R291). -/
def execFecUncorrectableBlock (p : Port) (s : State) : Out :=
  .next (if (portOf s p.val).en && regFld s .portPcsCfg [p.val] 0 2 != 0 then
      raise evFecUncorr (portCount p.val 37 1 s)
    else s)

/-! ### Low-power idle (R281 to R284) -/

/-- A class's staging queue holds a frame or may receive one: a flow queue is attached, it takes the port's time-sync messages,
or frames are relayed to the port (R255). DEDUCED, log entry 97. -/
def mayHold (s : State) (p t : Nat) : Bool :=
  !(stagedOf s p t).isEmpty || !(tget [] (gateOf s p).relay t).isEmpty
    || s.sch.flows.any (fun f => f.2.en && f.2.port == p && f.2.tc == t)
    || (ptpClass s p == t && (tget 0 s.ptp.ports (2 * p) != 0 || tget 0 s.ptp.ports (2 * p + 1) != 0)) || (fabPort s p && s.fab.en)

/-- The gate of such a class is open. -/
def someOpen (s : State) (p : Nat) : Bool :=
  (List.range 8).any (fun t => mayHold s p t && (gatesNow (gateOf s p)).getLsbD t)

/-- The next opening of such a class's gate is less than one Dawn Lead and `slack` ps away (R255). -/
def dawnNear (s : State) (p slack : Nat) : Bool :=
  (List.range 8).any (fun t => mayHold s p t && !(gatesNow (gateOf s p)).getLsbD t
    && (match windowFrom s p t 0 with | some (d, _) => decide (d < (portOf s p).dawn * 1000 + slack) | none => false))

/-- No frame is staged in a class whose gate is open. -/
def nothingStaged (s : State) (p : Nat) : Bool :=
  (List.range 8).all (fun t => !(gatesNow (gateOf s p)).getLsbD t
    || ((stagedOf s p t).isEmpty && (tget [] (gateOf s p).relay t).isEmpty))

/-- LPI_ENTER: a MAC whose cut frame waits for its gate is not idle (R283). DESIGN CHOICE, log entry 138. -/
def execLpiEnter (p : Port) (s : State) : Out :=
  let x := portOf s p.val
  .next (if x.link && x.en && x.eee && x.peerTw.isSome && !x.txLpi && !x.waking && (gateOf s p.val).wire.isNone
        && (gateOf s p.val).cut.isNone && nothingStaged s p.val && (someOpen s p.val || !dawnNear s p.val 0)
        && decide (regFld s .portEeeIdle [p.val] 0 16 ≤ elapsed s - x.idleSince) then
      portCount p.val 31 1 (putPort s p.val { x with txLpi := true, lpiSince := elapsed s })
    else s)

/-- LPI_WAKE: a frame stands in a class whose gate is open, or an opening is one Dawn Lead away (R255, R283). -/
def execLpiWake (p : Port) (s : State) : Out := .next (if !nothingStaged s p.val || dawnNear s p.val 1 then wake p.val s else s)

/-- Tw_sys_tx in ns (R282). -/
def twNs (s : State) (p : Nat) : Nat := max ((portOf s p).peerTw.getD 0) (regFld s .portEeeCfg [p] 8 8) * 1000

/-- LPI_WAKE_DONE: Tw_sys_tx has passed since the wake. -/
def execLpiWakeDone (p : Port) (s : State) : Out :=
  .next (if (portOf s p.val).waking && decide ((portOf s p.val).wakeAt + twNs s p.val ≤ elapsed s) then
      putPort s p.val { portOf s p.val with waking := false }
    else s)

/-- LLDP_EEE_TLV_RX: the active side's firmware hands the partner's Receive Tw and addFragSize to the rim. -/
def execLldpEeeTlvRx (p : Port) (rxTwUs : Nat) (addFrag : BitVec 2) (s : State) : Out :=
  .next (if consuming s && (portOf s p.val).link then
      sendLldp p.val (pushSet [.portPeer p.val (if rxTwUs ≤ 255 then some rxTwUs else none) addFrag] s)
    else s)

/-- LLDP_TLV_AGE_OUT: the partner's addFragSize stands (R243). DESIGN CHOICE, log entry 137. -/
def execLldpTlvAgeOut (p : Port) (s : State) : Out :=
  .next (if consuming s then pushSet [.portPeer p.val none (gateOf s p.val).peerFrag] s else s)

/-- RX_LPI_SIGNALED: the partner enters or leaves low-power idle; the whole microseconds of it count by the model's clock. -/
def execRxLpiSignaled (p : Port) (_us : Nat) (active : Bool) (s : State) : Out :=
  .next (if !(portOf s p.val).link then s
    else if active then
      if (portOf s p.val).rxLpi then s
      else portCount p.val 33 1 (putPort s p.val { portOf s p.val with rxLpi := true, rxLpiSince := elapsed s })
    else
      let s := accrueRxLpi p.val s
      putPort s p.val { portOf s p.val with rxLpi := false })

/-! ### Packet-buffer space (R274) -/

/-- Own share and cap of a port in bytes. -/
def rxMin (s : State) (p : Nat) : Nat := regFld s .portBufCfg [p] 0 16 * 1024
def rxMax (s : State) (p : Nat) : Nat := regFld s .portBufCfg [p] 16 16 * 1024

/-- Bytes in the relay lanes. -/
def relayHeld (s : State) : Nat :=
  let sent := fun (w : Option OnWire) => match w with
    | some w => if w.item.src = 4 && !w.thru then w.item.bytes.length else 0
    | none => 0
  (s.gate.map (fun g => (g.2.relay.map (fun l => (l.2.map (fun x => x.bytes.length)).sum)).sum + sent g.2.wire + sent g.2.cut)).sum

/-- Bytes of frames that no operation holds and that wait to be sent: triggered gathers, control frames and the staged frames of
a host that was reset, building, in flow queues, staged, on the wire, cut, or departed and not consumed (R27, R274, R517). -/
def looseHeld (s : State) : Nat :=
  (s.sch.flows.map (fun f => ((f.2.elems.filter (fun e => e.tag.isNone)).map (fun e => e.bytes.length)).sum)).sum
  + (s.gate.map (fun g => ((g.2.staged ++ g.2.back).map (fun l => (l.2.map looseBytes).sum)).sum
      + (match g.2.wire with | some w => looseBytes w.item | none => 0)
      + (match g.2.cut with | some w => looseBytes w.item | none => 0))).sum
  + (s.jrn.departs.map (fun d => looseBytes d.2.2.1)).sum
  + (s.fld.aggs.map (fun a => match a.2.building with
      | some r => if r.tag.isNone then r.bytes.length else 0
      | none => 0)).sum

/-- Free packet-buffer space that no port's share holds: 96 MiB in all. -/
def sharedFree (s : State) : Nat :=
  let held := (s.port.map (fun x => x.2.held)).sum + s.txHeld + s.fld.held + relayHeld s + looseHeld s
  let unused := ((List.range 32).map (fun q => rxMin s q - (portOf s q).held)).sum
  100663296 - held - unused

/-- Reserve `n` bytes for a port: none where it cannot be done. -/
def reserve (p n : Nat) (s : State) : Option State :=
  let x := portOf s p
  if n = 0 || (x.held + n ≤ rxMax s p && n - (rxMin s p - x.held) ≤ sharedFree s) then
    some (putPort s p { x with held := x.held + n })
  else none

/-- Elapsed network time of a receive timestamp taken now, with the port's ingress correction (R105, R299). -/
def stampEl (s : State) (corr : Nat) : Nat :=
  (((s.time.elapsed.toNat : Int) + signedN corr 16 * ((2 ^ 28 : Nat) : Int)) / ((2 ^ 32 : Nat) : Int)).toNat

/-- PORT_FRAME_RX_START: the reservation is made, or the whole frame is dropped. An express frame may interrupt a pre-emptible
one; each has its own timestamp, of its first bit after the start frame delimiter (R105, R106). -/
def execPortFrameRxStart (p : Port) (s : State) : Out :=
  let x := portOf s p.val
  .next (if x.en && x.link && x.rxHeld.isNone then
      let corr := regFld s .timePortCorrIng [p.val] 0 16
      let ts := portTs s corr 0 0
      let n := x.rxMax + 8
      let held := x.rx.map (fun r => (r, x.rxTs, x.rxEl))
      match reserve p.val n s with
      | some s => putPort s p.val { portOf s p.val with rx := some n, rxTs := ts, rxEl := stampEl s corr, rxHeld := held }
      | none => raise evPortRxOvf (portCount p.val 11 1 (putPort s p.val { x with rx := some 0, rxHeld := held }))
    else s)

/-! ### Rim writes -/

/-- The rim takes new port settings: SPEED and IFACE once a disabled port's last frame has gone, MAXLEN and FLAGS at the next
boundary in each direction (R65, R271, R286). -/
def rimPortSet (p speed iface maxlen : Nat) (bad eee : Bool) (s : State) : State :=
  let s := takeTx p (putPort s p { portOf s p with laneNext := some (speed, iface), txNext := some (maxlen, eee) })
  let x := portOf s p
  if x.rx.isSome then putPort s p { x with rxNext := some (maxlen, bad) } else putPort s p { x with rxMax := maxlen, bad := bad }

/-- New settings of a port have taken effect in both directions. -/
def portSettled (s : State) (p : Nat) : Bool :=
  (portOf s p).txNext.isNone && (portOf s p).rxNext.isNone && (portOf s p).laneNext.isNone

/-- What decides a frame that is being received stays as it is for that frame (R65, R72). -/
def noteKeep (p : Nat) (s : State) : State :=
  let x := portOf s p
  if x.rx.isSome && x.keep.isNone then
    putPort s p { x with keep := some { filters := x.filters, routes := s.fab.routes, en := s.fab.en, given := s.fab.given,
                                        idState := s.fab.idState, nodeId := s.fab.nodeId } }
  else s

/-- Every port notes it. -/
def noteKeeps (s : State) : State := (List.range 32).foldl (fun s p => noteKeep p s) s

/-- The tables as a frame being received on a port is decided by them. -/
def asSeen (p : Nat) (s : State) : State :=
  match (portOf s p).keep with
  | some k =>
    let f := { s.fab with routes := k.routes, en := k.en, given := k.given, idState := k.idState, nodeId := k.nodeId }
    putPort { s with fab := f } p { portOf s p with filters := k.filters }
  | none => s

/-- The rim enables or disables a port (R285, R430). -/
def rimPortEnable (p : Nat) (en : Bool) (s : State) : State :=
  bypDrive (settleOff p (putPort s p { portOf s p with en := en }))

/-- The rim takes a filter entry. -/
def rimPortFilter (p i : Nat) (valid : Bool) (mac : BitVec 48) (s : State) : State :=
  let s := noteKeep p s
  putPort s p { portOf s p with filters := tput 0 (portOf s p).filters i (BitVec.ofNat 49 (b2n valid * 2 ^ 48 + mac.toNat)) }

/-- The rim takes what the partner advertises, addFragSize at the next frame boundary; a port without a usable Receive Tw
leaves low-power idle (R65, R282). -/
def rimPortPeer (p : Nat) (tw : Option Nat) (addFrag : BitVec 2) (s : State) : State :=
  let s := applyKinds p (putGate (putPort s p { portOf s p with peerTw := tw }) p { gateOf s p with fragNext := some addFrag })
  if tw.isNone then wake p s else s

/-- The lane goes down for a forced calibration (R287). -/
def rimPortRecal (p : Nat) (s : State) : State := 
  let s := laneDown p false s
  putPort s p { portOf s p with recal := true }

/-- CALIBRATION_END. -/
def execCalibrationEnd (p : Port) (s : State) : Out :=
  let x := portOf s p.val
  .next (if x.recal then
      let s := raise evRecalDone (putPort s p.val { x with recal := false, recalCount := min 0xFFFF (x.recalCount + 1) })
      match tfind s.cmd.running 1 with
      | some r => (match r.op with
        | .portRecal q _ =>
          if q = p.val then
            { s with cmd := { s.cmd with running := tset s.cmd.running 1 { r with op := .portRecal q true } } }
          else s
        | _ => s)
      | none => s
    else s)

/-! ### Commands -/

/-- The port as the active side holds it: its settings with those that wait for a boundary and the sets that wait. -/
def sidePort (s : State) (p : Nat) : PortSt :=
  let x := portOf s p
  let (m, e) := x.txNext.getD (x.maxlen, x.eee)
  let (v, i) := x.laneNext.getD (x.speed, x.iface)
  let (_, b) := x.rxNext.getD (x.rxMax, x.bad)
  (waitingWrites s).foldl (fun x w => match w with
    | .portSet q speed iface maxlen bad eee =>
      if q = p then { x with speed := speed, iface := iface, maxlen := maxlen, bad := bad, eee := eee } else x
    | .portEnable q en => if q = p then { x with en := en } else x
    | .portFilter q i valid mac =>
      if q = p then { x with filters := tput 0 x.filters i (BitVec.ofNat 49 (b2n valid * 2 ^ 48 + mac.toNat)) } else x
    | .portEeeMargin q ns => if q = p then { x with margin := ns } else x
    | _ => x) { x with maxlen := m, eee := e, speed := v, iface := i, bad := b }

/-- The pairs of R260. -/
def pairOk (speed iface : Nat) : Bool :=
  (decide (iface ≤ 1) && (speed == 4 || speed == 3)) || (iface == 2 && decide (speed ≤ 2)) || (iface == 3 && decide (speed ≤ 1))

def bodyPortSet : Body where
  check _ p _ s :=
    let x := sidePort s (par p 0x10 1)
    when (!pairOk (par p 0x11 1) (par p 0x12 1)) (fRange 0x11)
    ++ when (x.en && (x.speed != par p 0x11 1 || x.iface != par p 0x12 1)) (fStateAt 0x10)
  act _ p _ s :=
    .start (pushSet [.portSet (par p 0x10 1) (par p 0x11 1) (par p 0x12 1) (par p 0x14 2) (bitN (par p 0x16 2) 0)
      (bitN (par p 0x16 2) 1)] s) (.portSet (par p 0x10 1) (nextSet s))
      (let x := sidePort s (par p 0x10 1)
       x.speed != par p 0x11 1 || x.iface != par p 0x12 1 || x.maxlen != par p 0x14 2 || x.bad != bitN (par p 0x16 2) 0
         || x.eee != bitN (par p 0x16 2) 1)

/-- PORT_SET. -/
def execPortSet (h : Host) (p : Packet) (s : State) : Out := .next (runAdmin csPortSet bodyPortSet h p (.data []) s)

def bodyPortEnable : Body where
  act _ p _ s :=
    if (sidePort s (par p 0x10 1)).en = (par p 0x11 1 == 1) then .done s 0 false
    else .done (pushSet [.portEnable (par p 0x10 1) (par p 0x11 1 == 1)] s) 0 true

/-- PORT_ENABLE. DEDUCED, log entry 24. -/
def execPortEnable (h : Host) (p : Packet) (s : State) : Out := .next (runAdmin csPortEnable bodyPortEnable h p (.data []) s)

def bodyPortFilterSet : Body where
  act _ p _ s := .done (pushSet [.portFilter (par p 0x10 1) (par p 0x11 1) (par p 0x12 1 == 1) (BitVec.ofNat 48 (par p 0x14 6))] s)
    0 (tget 0 (sidePort s (par p 0x10 1)).filters (par p 0x11 1) != BitVec.ofNat 49 (b2n (par p 0x12 1 == 1) * 2 ^ 48 + par p 0x14 6))

/-- PORT_FILTER_SET. -/
def execPortFilterSet (h : Host) (p : Packet) (s : State) : Out := .next (runAdmin csPortFilterSet bodyPortFilterSet h p (.data []) s)

def bodyPortEeeSet : Body where
  act _ p _ s := .done (pushSet [.portEeeMargin (par p 0x10 1) (par p 0x12 2)] s) 0
    ((sidePort s (par p 0x10 1)).margin != par p 0x12 2)

/-- PORT_EEE_SET. -/
def execPortEeeSet (h : Host) (p : Packet) (s : State) : Out := .next (runAdmin csPortEeeSet bodyPortEeeSet h p (.data []) s)

def bodyPortRecal : Body where
  check _ p _ s :=
    let q := par p 0x10 1
    when (!(sidePort s q).en || (par p 0x11 1 == 0 && !partnersOk s q)) (fStateAt 0x10)
  act _ p _ s := .start (pushSet [.portRecal (par p 0x10 1)] s) (.portRecal (par p 0x10 1) false)

/-- PORT_RECAL. -/
def execPortRecal (h : Host) (p : Packet) (s : State) : Out := .next (runAdmin csPortRecal bodyPortRecal h p (.data []) s)

def bodyPortQuery : Body where
  act _ p _ s :=
    let q := par p 0x10 1
    .done s (portCfgReg s q + portStatusReg s q * 2 ^ 32 + portEeeStatReg s q * 2 ^ 64) false

/-- PORT_QUERY. -/
def execPortQuery (h : Host) (p : Packet) (s : State) : Out := .next (runAdmin csPortQuery bodyPortQuery h p (.data []) s)

end Sys2Proof.Machine
end

