-- ==== Sys2Proof/Machine/Rings.lean ====
section
/-!
DEFINITION. Machine/Rings.lean: doorbells, pushes, releases, the ring fetch, acceptance, the start of submission entries,
and the writing of completion entries and status packets (R119 to R158, R553, R59, R66).
-/

namespace Sys2Proof.Machine

/-! ### Indices (R120, R121) -/

/-- Slots of an SQ rung and not accepted. -/
def sqUsed (x : Sq) : Nat := dist x.pi (x.ai + 1)

/-- A doorbell write of `v` is taken (R125). -/
def dbOk (x : Sq) (v : Idx) : Bool := decide (dist v x.pi ≤ ringSize x.sizeLog2 - sqUsed x)

/-- A write to SQ_DB in the page of an SQ (R124, R125). -/
def writeDb (h q : Nat) (aligned : Bool) (v : W32) (s : State) : State :=
  if !aligned || s.jrn.full then s
  else match pageOf s h q with
    | none => s
    | some x =>
      let v := v.setWidth 16
      if dbOk x v then
        if v = x.pi then s else record (.doorbell h q v.toNat) (putPage s h q { x with pi := v, stalled := false })
      else raise (evDbErr h) (count .queHostErr [h] 16 1 s)

/-- SQ_DB_WRITE. -/
def execSqDbWrite (h : Host) (q : QId) (aligned : Bool) (v : W32) (s : State) : Out := .next (writeDb h.val q.val aligned v s)

/-! ### Pushes (R126 to R128) -/

/-- Slots of an entry by its first slot: a command packet is one (R48, R133). -/
def entrySlots (q : Nat) (e : List Byte) : Nat := if q = 0 then 1 else sqeSlots e

/-- A push ends in error: its incomplete entry is discarded (R126). -/
def pushError (h q : Nat) (x : Sq) (s : State) : State :=
  raise (evPushErr h) (count .queHostErr [h] 0 1 (putPage s h q { x with push := none }))

/-- A pushed entry that the rim takes meets the conditions of the express lane: an INLINE_FRAME of an express class, a tag
within the quota and a free CQ place (R145). -/
def expressPush (s : State) (h q : Nat) (x : Sq) (e : List Byte) : Bool :=
  q != 0 && sqeType e == tyInline && !isPre s (sqePort e) (sqeTc e) && decide (tagsHeld s h < quotaOf s h)
    && (match cqOf s h x.cqid with | some c => !cqFull s h x.cqid c | none => false)

/-- A pushed entry is complete: PI moves over it, and the rim takes it or leaves it to the ring fetch (R127, R128). The
SQ's record and whether the rim takes the entry, or none for a push error. -/
def pushEntry (x : Sq) (p : PushSt) (nslots : Nat) (bytes : List Byte) (express : Bool) (st : Stamp) (late : Bool) :
    Option (Sq × Bool) :=
  let first := p.base + BitVec.ofNat 16 (p.next + 1 - nslots)
  let v := p.base + BitVec.ofNat 16 (p.next + 1)
  if ringSize x.sizeLog2 < dist v (x.ai + 1) then none
  else
    let x := { x with pi := if sqUsed x < dist v (x.ai + 1) then v else x.pi, stalled := false }
    if x.taken = first && x.turn.isNone && !x.gone then
      some ({ x with taken := v, entries := x.entries ++ [
        { first := first, nslots := nslots, bytes := bytes, pushed := true, express := express, stamp := st, late := late }] }, true)
    else some (x, false)

/-- The record of a completed push entry: a PUSH of what the rim takes, else the doorbell that the new PI amounts to (R127, R128, R390).
DEDUCED, log entry 127. -/
def pushBody (h q : Nat) (first pi : Idx) (took : Bool) (bytes : List Byte) : SsBody :=
  if took then .push h q first.toNat bytes else .doorbell h q pi.toNat

/-- The slots of one push write, in order (R126, R127). -/
def pushSlots (h q : Nat) : List (List Byte) → State → State
  | [], s => s
  | b :: bs, s =>
    match pageOf s h q with
    | none => s
    | some x => match x.push with
      | none => s
      | some p =>
        let buf := p.buf ++ b
        let n := entrySlots q buf
        let start := p.next - p.buf.length / 64
        if 4 < start + n then pushError h q x s
        else if buf.length = 64 * n then
          match pushEntry x p n buf (expressPush s h q x buf) (stampNow s) (!consuming s) with
          | none => pushError h q x s
          | some (y, took) =>
            let first := p.base + BitVec.ofNat 16 (p.next + 1 - n)
            pushSlots h q bs (record (pushBody h q first y.pi took buf)
              (putPage s h q { y with push := some { p with next := p.next + 1, buf := [] } }))
        else pushSlots h q bs (putPage s h q { x with push := some { p with next := p.next + 1, buf := buf } })

/-- 64-byte slots of a write. -/
def slotsOf : Nat → List Byte → List (List Byte)
  | 0, _ => []
  | n + 1, l => l.take 64 :: slotsOf n (l.drop 64)

/-- A write to the push slots in the page of an SQ: `off` counts from SLOT0. A write that covers part of a slot, or runs past
SLOT3, takes nothing at all, and one that goes back to a slot already written ends the push in error (DESIGN CHOICE, log entry 86).
An admin queue that stops still takes the push of a command packet (DESIGN CHOICE, log entry 128). -/
def writePush (h q off : Nat) (bytes : List Byte) (s : State) : State :=
  if s.jrn.full then s
  else match pageOf s h q with
  | none => s
  | some x =>
    let n := bytes.length / 64
    let k := off / 64
    if off % 64 != 0 || bytes.length % 64 != 0 || n = 0 || 4 < k + n then pushError h q x s
    else if k = 0 then
      let s := match x.push with
        | some p => if p.buf.isEmpty then s else pushError h q x s
        | none => s
      pushSlots h q (slotsOf n bytes) (putPage s h q { x with push := some { base := x.pi } })
    else match x.push with
      | none => pushError h q x s
      | some p => if p.next = k then pushSlots h q (slotsOf n bytes) s else pushError h q x s

/-- SQ_PUSH_WRITE. -/
def execSqPushWrite (h : Host) (q : QId) (off : Nat) (bytes : List Byte) (s : State) : Out :=
  .next (writePush h.val q.val off bytes s)

/-! ### The ring fetch (R143, R144, R553) -/

/-- The admin SQ has rung slots that have not been taken, and takes fetches (R83, R143). -/
def adminPending (s : State) (h : Nat) : Bool :=
  match sqOf s h 0 with
  | some x => x.pi != x.taken && !(aqOf s h).stopping && !fetchStop s h x
  | none => false

/-- An SQ may take a turn. -/
def fetchable (s : State) (h : Nat) (x : Sq) : Bool :=
  x.pi != x.taken && x.turn.isNone && !x.stalled && !x.gone && !fetchStop s h x

/-- I/O SQs of a host that may take a turn in pass `k`, above number `q`. -/
def turnsIn (s : State) (h k q : Nat) : List Nat :=
  (s.que.sqs.filter (fun x => x.1 / 1024 == h && decide (q < x.1 % 1024) && decide (k ≤ x.2.weight) && fetchable s h x.2)).map
    (fun x => x.1 % 1024)

/-- The pass and SQ of a host's next turn (R143). -/
def nextTurn (s : State) (h : Nat) : Option (Nat × Nat) :=
  let r := tget 1024 s.que.round h
  let k := r / 1024
  match turnsIn s h k (r % 1024) with
  | q :: _ => some (k, q)
  | [] => match (if k < 255 then turnsIn s h (k + 1) 0 else []) with
    | q :: _ => some (k + 1, q)
    | [] => (turnsIn s h 1 0).head?.map (fun q => (1, q))

/-- Address of an SQ slot (R119). -/
def sqSlotAddr (x : Sq) (i : Idx) : BitVec 64 := x.base + BitVec.ofNat 64 (i.toNat % ringSize x.sizeLog2 * 64)

/-- Slots of a turn up to the end of the ring. -/
def beforeWrap (x : Sq) (slots : Nat) : Nat := min slots (ringSize x.sizeLog2 - x.taken.toNat % ringSize x.sizeLog2)

/-- A turn of `slots` slots begins: one read request, or two where the slots wrap the end of the ring (R143). -/
def startTurn (h q slots : Nat) (x : Sq) (s : State) : State :=
  let n := beforeWrap x slots
  let first := Tlp.memRead h (sqSlotAddr x x.taken) (64 * n)
  let second := if n < slots then [Tlp.memRead h x.base (64 * (slots - n))] else []
  let s := putSq s h q { x with turn := some { first := x.taken, slots := n, second := slots - n, left := if q = 0 then 1 else x.burst } }
  { s with bus := s.bus ++ first :: second }

/-- An admin turn and an I/O turn alternate while the admin SQ has rung slots (R143). -/
def noteTurn (h : Nat) (admin : Bool) (s : State) : State := { s with que := { s.que with adminTurn := tput false s.que.adminTurn h admin } }

/-- RING_FETCH_TURN: a turn reads `slots` slots from the first that is not taken. DESIGN CHOICE, log entry 56. -/
def execRingFetchTurn (h : Host) (q : QId) (slots : Nat) (s : State) : Out :=
  .next (match sqOf s h.val q.val with
    | none => s
    | some x =>
      let did := tget false s.que.adminTurn h.val
      let ok := hostOk s h.val && (consuming s || (monitor s && q.val == 0)) && decide (1 ≤ slots)
        && decide (slots ≤ dist x.pi x.taken) && x.turn.isNone
      if !ok then s
      else if q.val = 0 then
        if adminPending s h.val && slots = 1 && (!did || !consuming s || (nextTurn s h.val).isNone) then noteTurn h.val true (startTurn h.val 0 1 x s)
        else s
      else if (adminPending s h.val && !did) || 5 * x.burst < slots then s
      else match nextTurn s h.val with
        | some (k, i) =>
          if i = q.val then
            let s := noteTurn h.val false (startTurn h.val q.val slots x s)
            { s with que := { s.que with round := tset s.que.round h.val (k * 1024 + i) } }
          else s
        | none => s)

/-- Whole entries in the bytes of a turn: at most `burst` of them. The Bool says that PI does not cover the next one. -/
def parseTurn (q : Nat) : Nat → Idx → Idx → List Byte → List Taken × Bool
  | 0, _, _, _ => ([], false)
  | n + 1, at_, pi, l =>
    if l.length < 64 then ([], false)
    else
      let k := entrySlots q l
      if dist pi at_ < k then ([], true)
      else if l.length < 64 * k then ([], false)
      else
        let r := parseTurn q n (at_ + BitVec.ofNat 16 k) pi (l.drop (64 * k))
        ({ first := at_, nslots := k, bytes := l.take (64 * k) } :: r.1, r.2)

/-- An entry that the rim takes carries the time of its record. -/
def takenNow (s : State) (e : Taken) : Taken := { e with stamp := stampNow s, late := !consuming s }

/-- Take the whole entries that a turn has read, one FETCH record each. `turn` is what is left of it; `stalled` says that PI does not
cover the next entry. -/
def takeEntries (h q : Nat) (x : Sq) (first : Idx) (l : List Taken) (stalled : Bool) (turn : Option FetchTurn) (s : State) : State :=
  let n := (l.map (·.nslots)).sum
  let t := l.foldl (fun s e => record (.fetch h q e.first.toNat e.bytes) s) s
  putSq t h q { x with turn := turn, entries := x.entries ++ l.map (takenNow s), stalled := x.stalled || stalled
                       taken := first + BitVec.ofNat 16 n }

/-- What is left of a turn whose first read of two has given the entries `l`. -/
def afterFirst (t : FetchTurn) (l : List Taken) (stalled : Bool) (bytes : List Byte) : FetchTurn :=
  let n := (l.map (·.nslots)).sum
  { t with first := t.first + BitVec.ofNat 16 n, got := true, buf := bytes.drop (64 * n)
           left := if stalled then 0 else t.left - l.length }

/-- RING_FETCH_COMPLETE: a read of the SQ's turn completes and gives its whole entries, up to BURST in the turn. -/
def execRingFetchComplete (h : Host) (q : QId) (bytes : List Byte) (s : State) : Out :=
  .next (match sqOf s h.val q.val with
    | none => s
    | some x => match x.turn with
      | none => s
      | some t =>
        if bytes.length != 64 * (if t.got then t.second else t.slots) then s
        else
          let r := parseTurn q.val t.left t.first x.pi (t.buf ++ bytes)
          takeEntries h.val q.val x t.first r.1 r.2
            (if t.got || t.second = 0 then none else some (afterFirst t r.1 r.2 bytes)) s)

/-- One entry for each slot of a read that faulted. -/
def faultSlots (e : FetchErr) (first : Idx) : Nat → List Taken
  | 0 => []
  | n + 1 => { first := first, fault := some e } :: faultSlots e (first + 1) n

/-- A read of `n` slots from `first` has faulted: a FETCH record names them, and FETCH_ERR counts it (R553). -/
def noteFault (h q : Nat) (first : Idx) (n : Nat) (s : State) : State :=
  count .queHostCiErr [h] 16 1 (record (.fetchFault h q first.toNat n) s)

/-- RING_FETCH_FAULT: the slots that the read covered are taken as entries of their own. The second read of a turn whose
first faults goes on alone; where the second faults, the slots of an entry that it cuts fault with it, and a turn that takes nothing
more leaves them to a later one (R553, DESIGN CHOICE, log entry 78). A read whose queue is deleted meanwhile has no further effect
(DESIGN CHOICE, log entry 129). -/
def execRingFetchFault (h : Host) (q : QId) (e : FetchErr) (s : State) : Out :=
  .next (match sqOf s h.val q.val with
    | none => s
    | some x => match x.turn with
      | none => s
      | some t =>
        let kept := t.buf.length / 64
        let at_ := t.first + BitVec.ofNat 16 kept
        let n := if t.got then t.second else t.slots
        let u := noteFault h.val q.val at_ n s
        if t.got && t.left = 0 then putSq u h.val q.val { x with turn := none }
        else
          putSq u h.val q.val { x with
            turn := if t.got || t.second = 0 then none else some { t with first := at_ + BitVec.ofNat 16 n, slots := t.second, second := 0 }
            entries := x.entries ++ (faultSlots e t.first (kept + n)).map (takenNow s), taken := at_ + BitVec.ofNat 16 n })

/-- The side that fetched has lost the Clock: what its reads have brought is taken and recorded, and the rest counts as not taken; its
completions are discarded (R154, R184). -/
def dropTurns (s : State) : State :=
  { s with que := { s.que with sqs := s.que.sqs.map (fun y => (y.1, { y.2 with turn := none })) } }

/-! ### Acceptance (R140, R141) -/

/-- The side's Scoresheet counts toward acceptance, and its side acknowledges nothing (R141). -/
def sideSilent (r : SideRec) : Bool := (r.state == 4 || r.state == 5 || r.state == 7) && !r.healthy

/-- The side's Scoresheet counts toward acceptance. -/
def sideCounts (r : SideRec) : Bool := r.state == 4 || r.state == 5 || r.state == 7

/-- Every Scoresheet that counts acknowledges an entry of SQ `q`; the start monitor takes the admin SQs' alone (R52). -/
def acksHold (s : State) (q : Nat) : Bool :=
  (monitor s && q == 0) || ((sideCounts s.sides.white || sideCounts s.sides.black)
    && !sideSilent s.sides.white && !sideSilent s.sides.black)

/-- Set the accepted mark on the staged frames of a tag (R39). -/
def markStaged (t : Nat) (s : State) : State :=
  { s with gate := s.gate.map (fun g => (g.1, { g.2 with
      staged := g.2.staged.map (fun l => (l.1, l.2.map (fun x => if x.tag = some t then { x with mark := true } else x))) })) }

/-- Accept the oldest entry that is not accepted, in place. -/
def acceptFirst (ns : Nat) : List Taken → Option (Taken × List Taken)
  | [] => none
  | e :: es =>
    if e.accepted then (acceptFirst ns es).map (fun r => (r.1, e :: r.2))
    else some (e, { e with accepted := true, acceptNs := ns } :: es)

/-- A status packet for an admin slot whose fetch faulted: it is not acted on (R51, R553), counts in no field of R82 and
raises nothing. DESIGN CHOICE, log entry 82. -/
def adminFault (h : Nat) (e : FetchErr) (s : State) : State :=
  let s := putAq s h { aqOf s h with head := (aqOf s h).head + 1 }
  dueStatus { host := h, mon := monitor s } {} (match e with | .busError => stBusError | .poisoned => stIntegrity) 0xFFFF 0
    (Config.undefinedGroupGen 0) (cmdEpoch s) (aqOf s h).head s

/-- ENTRY_ACCEPT: AI moves over the entry. A command packet joins Scoresheet order; the slot of a faulted admin fetch
does so once the host's earlier commands are consumed. -/
def execEntryAccept (h : Host) (q : QId) (s : State) : Out :=
  .next (if !acksHold s q.val then s
    else match sqOf s h.val q.val with
      | none => s
      | some x => match acceptFirst (netNs s) x.entries with
        | none => s
        | some (e, es) =>
          let ai := e.first + BitVec.ofNat 16 (e.nslots - 1)
          if q.val = 0 then
            let t := putSq s h.val 0 { x with ai := ai, entries := x.entries.tail }
            match e.fault with
            | some f => if s.cmd.waiting.any (fun w => w.1 == h.val) then s else adminFault h.val f t
            | none => { t with cmd := { t.cmd with waiting := t.cmd.waiting ++ [(h.val, packetOf e.bytes, e.stamp)] } }
          else match e.lane with
            | some t => markStaged t (putSq s h.val q.val { x with ai := ai, entries := x.entries.filter (fun y => y.first != e.first) })
            | none => putSq s h.val q.val { x with ai := ai, entries := es })

/-! ### Starts (R134 to R139, R144 to R146) -/

/-- A tag and a CQ place are there for the entry (R144, R146). -/
def roomFor (s : State) (h t : Nat) (x : Sq) (e : Taken) : Bool :=
  (opOf s t).isNone && decide (tagsHeld s h < tagBound s h e)
    && (match cqOf s h x.cqid with | some c => !cqFull s h x.cqid c | none => false)

/-- What commands have changed of the objects that an entry names is committed (R63). -/
def objectsSettled (s : State) (e : List Byte) : Bool :=
  settled s .quota
    && (!sqeIsTx e || (settled s (.flow (sqeFlow e)) && (match txEntry s (sqeFlow e) with
        | some x => (entRepl x).all (fun f => settled s (.flow f))
        | none => true)))
    && (sqeType e != tyAgg || settled s (.agg (sqeAggId e)))

/-- The oldest entry of an SQ, where it may start with tag `t`: no FENCE runs, and it is not the express lane's. -/
def startable (s : State) (h q t : Nat) : Option (Sq × Taken) :=
  match sqOf s h q with
  | none => none
  | some x => match x.entries with
    | [] => none
    | e :: _ => if serving s && q != 0 && e.accepted && e.lane.isNone && !e.express && x.fence.isNone && roomFor s h t x e
        && objectsSettled s e.bytes then some (x, e)
      else none

/-- The entry's operation. -/
def opFor (s : State) (h q : Nat) (e : Taken) (k : OpKind) : Op :=
  { host := h, sq := q, slot := e.first, kind := k, user := w32 (sqeUser e.bytes), port := sqePort e.bytes,
    tc := sqeTc e.bytes, flow := sqeFlow e.bytes, noIrq := e.fault.isNone && sqeNoIrq e.bytes,
    tsReq := e.fault.isNone && sqeTsReq e.bytes, addr := BitVec.ofNat 64 (sqeAddr e.bytes), len := sqeLen e.bytes,
    order := s.que.orderNo, maxlen := (portOf s (sqePort e.bytes)).maxlen }

/-- Reserve a place of a CQ; the last place raises QUE_CQ_FULL (R146). -/
def takePlace (h c : Nat) (s : State) : State :=
  match cqOf s h c with
  | none => s
  | some y =>
    let y := { y with resv := y.resv + 1 }
    let s := putCq s h c y
    if cqFull s h c y && !y.fullSeen then raiseS (evCqFull h) (putCq s h c { y with fullSeen := true }) else s

/-- The entry takes its tag and place. `es` is what is left of the SQ's entries. -/
def takeTag (h q t : Nat) (x : Sq) (es : List Taken) (o : Op) (s : State) : State :=
  let s := putSq s h q { x with entries := es, live := x.live ++ [t] }
  let s := putOp { s with que := { s.que with orderNo := s.que.orderNo + 1 } } t o
  takePlace h x.cqid s

/-- FRAME with RX = 1. -/
def isRxPost (e : List Byte) : Bool := sqeType e == tyFrame && sqeRx e

/-- Faults of the ports that an entry transmits on (R135, R305). A scatter or direct send transmits on none; a gather's function
names its flow queue itself. -/
def portFindings (s : State) (h : Nat) (e : List Byte) : List Finding :=
  if sqeIsTx e && !(sqeType e == tyAgg && sqeMode e == 1) then
    let en := regVal s .queHostPorts [h]
    when (decide (sqePort e ≤ 31) && !bitN en (sqePort e)) fDenied
    ++ (if sqeType e = tyAgg then [] else match txEntry s (sqeFlow e) with
        | some x => when ((entRepl x).any (fun f => (flowOf s f).en && !bitN en (flowOf s f).port)) fDenied
        | none => [])
  else []

/-- Fault of the flow queue of a transmit entry (R134). -/
def flowFindings (s : State) (e : List Byte) : List Finding :=
  when (!flowFits s (sqeFlow e) (sqePort e) (sqeTc e)) fState

/-- The receive and transmit checks of R138. -/
def rxFindings (x : Sq) (e : List Byte) : List Finding :=
  when (x.rx == some true && !(isRxPost e || sqeType e == tyFence)) fState
  ++ when (x.rx != some true && isRxPost e) fState

/-- The SQ after the entry has decided, or not, what it is (R138). -/
def decideRx (x : Sq) (e : List Byte) (base : List Finding) : Sq :=
  if base.isEmpty && x.rx.isNone && sqeType e != tyFence then { x with rx := some (isRxPost e) } else x

/-- Start the oldest entry of an SQ, when it is of the row's type: check it, and carry it out or complete it with the first
fault (R136, R137). An undefined type and a slot whose fetch faulted complete on any row. DEDUCED, log entry 66. -/
def startNow (h : Host) (q : QId) (t : OpTag) (mine : List Byte → Bool) (kind : OpKind)
    (extra : State → List Byte → List Finding) (ready : State → Sq → Bool) (run : Nat → Taken → State → State) (s : State) : State :=
  match startable s h.val q.val t.val with
  | none => s
  | some (x, e) =>
    match e.fault with
    | some f =>
      let o := { opFor s h.val q.val { e with bytes := [] } .fence with slot := e.first }
      completeOp t.val (match f with | .busError => stBusError | .poisoned => stIntegrity) 0 0 noTs
        (takeTag h.val q.val t.val x x.entries.tail o s)
    | none =>
      let ty := sqeType e.bytes
      if ty = 0 || 6 < ty then
        completeOp t.val stBadOpcode 0 0 noTs (takeTag h.val q.val t.val x x.entries.tail (opFor s h.val q.val e .fence) s)
      else if mine e.bytes && ready s x then
        let base := sqeFindings e.bytes ++ portFindings s h.val e.bytes ++ extra s e.bytes
        let y := decideRx x e.bytes base
        let s' := takeTag h.val q.val t.val y x.entries.tail (opFor s h.val q.val e kind) s
        match worst (base ++ rxFindings y e.bytes) with
        | some f => failOp t.val f.status s'
        | none => run t.val e s'
      else s

/-- The state in which the side decides an entry: as of the time of its record where no side consumed it then (R366, R383). DEDUCED,
log entry 130. -/
def asOf (e : Taken) (s : State) : State := if e.late then { s with jrn := { s.jrn with last := e.stamp } } else s

/-- After it the side goes on from the last record. -/
def goOn (e : Taken) (s t : State) : State :=
  if e.late then resume s t else t

/-- The state as of the time of the SQ's oldest entry. -/
def headNow (h : Host) (q : QId) (s : State) : State :=
  match (sqOf s h.val q.val).bind (fun x => x.entries.head?) with
  | none => s
  | some e => asOf e s

/-- The oldest entry of an SQ starts, as of its time. -/
def startRow (h : Host) (q : QId) (t : OpTag) (mine : List Byte → Bool) (kind : OpKind)
    (extra : State → List Byte → List Finding) (ready : State → Sq → Bool) (run : Nat → Taken → State → State) (s : State) : State :=
  match (sqOf s h.val q.val).bind (fun x => x.entries.head?) with
  | none => s
  | some e => goOn e s (startNow h q t mine kind extra ready run (asOf e s))

/-- No condition beyond the entry's turn. -/
def always (_ : State) (_ : Sq) : Bool := true

/-- Store an operation's changes. -/
def updOp (t : Nat) (f : Op → Op) (s : State) : State :=
  match opOf s t with
  | some o => putOp s t (f o)
  | none => s

/-- A frame that no window of the running tape could hold (R241). -/
def windowFindings (s : State) (e : List Byte) (len : Nat) (fit : Bool) : List Finding :=
  when (decide (sqePort e ≤ 31) && !someWindow s (sqePort e) (sqeTc e) (max 64 (len + 4 + rtagLen s (sqeFlow e))) fit) fWindow

/-- FRAME_TX: its bytes are copied first (R134). -/
def execFrameTx (h : Host) (q : QId) (t : OpTag) (s : State) : Out :=
  .next (startRow h q t (fun e => sqeType e == tyFrame && !sqeRx e) .frame
    (fun s e => flowFindings s e
      ++ when (decide ((portOf s (sqePort e)).maxlen + 8 < sqeLen e + 4 + rtagLen s (sqeFlow e))) (fRange 0x18)
      ++ windowFindings s e (sqeLen e) (gateOf s (sqePort e)).fit) always
    (fun t _ s => updOp t (fun o => { o with stage := .waitChan }) s) s)

/-- FRAME_RX_POST: the buffer is posted (R138). -/
def execFrameRxPost (h : Host) (q : QId) (t : OpTag) (s : State) : Out :=
  .next (startRow h q t isRxPost .rxBuf (fun _ _ => []) always
    (fun t _ s =>
      match sqOf s h.val q.val with
      | some x => putSq (updOp t (fun o => { o with stage := .posted }) s) h.val q.val { x with posted := x.posted ++ [t] }
      | none => s) s)

/-- The frame of an INLINE_FRAME. -/
def inlineBytes (e : List Byte) : List Byte := slice e 64 (sqeFlen e)

/-- Faults of an INLINE_FRAME beyond its form. -/
def inlineFindings (s : State) (e : List Byte) : List Finding :=
  flowFindings s e ++ when (tooLong (portOf s (sqePort e)).maxlen (inlineBytes e) (rtagLen s (sqeFlow e))) (fRange 12)
    ++ windowFindings s e (sqeFlen e) (gateOf s (sqePort e)).fit

/-- The packet buffer has room for the frame (R274). -/
def inlineReady (s : State) (x : Sq) : Bool :=
  match x.entries with
  | e :: _ => decide (sqeFlen e.bytes ≤ sharedFree s)
  | [] => true

/-- INLINE_FRAME: it enters its flow queue (R191). -/
def execInlineFrame (h : Host) (q : QId) (t : OpTag) (s : State) : Out :=
  .next (startRow h q t (fun e => sqeType e == tyInline) .inline inlineFindings inlineReady
    (fun t e s =>
      let b := inlineBytes e.bytes
      let s := updOp t (fun o => { o with held := b.length }) { s with txHeld := s.txHeld + b.length }
      enterFlow (sqeFlow e.bytes) .frame (some t) b s) s)

/-- The edit list behind a template. -/
def editList (e l : List Byte) : List (BitVec 64) :=
  (List.range (sqeEdits e)).map (fun i => BitVec.ofNat 64 (leAt l (8 * divUp (sqeHdrLen e) 8 + 8 * i) 8))

/-- Faults of a STREAM_SEND beyond its form (R134, R241, R250, R305). -/
def streamFindings (tpl : ReadEnd) (s : State) (e : List Byte) : List Finding :=
  let p := sqePort e
  let gran := 2 ^ regFld s .gateSegCfg [p] 16 3
  let maxlen := (portOf s p).maxlen
  let hdr := sqeHdrLen e + 4 + rtagLen s (sqeFlow e)
  let part := divUp (max 1 (min (regFld s .gateSegCfg [p] 0 14) maxlen - hdr)) gran * gran
  let least := sqeHdrLen e + min (sqeLen e) part
  flowFindings s e
    ++ (match txEntry s (sqeFlow e) with
        | some x => when (!(entRepl x).isEmpty) fState
        | none => [])
    ++ when (decide (maxlen < hdr + gran)) (fRange 12)
    ++ windowFindings s e least false
    ++ (match tpl with
        | .data l => (editList e l).flatMap (editFindings (l.take (sqeHdrLen e)))
        | .fault .dataErr => [fIntegrity]
        | .fault _ => [fBusError])

/-- The template may be read now (R518). -/
def readReady (h : Nat) (s : State) (_ : Sq) : Bool := hostOk s h

/-- STREAM_SEND: `tpl` is what the read of the header template and edit list gives; the stream enters its flow queue. -/
def execStreamSend (h : Host) (q : QId) (t : OpTag) (tpl : ReadEnd) (s : State) : Out :=
  .next (startRow h q t (fun e => sqeType e == tyStream) .stream (streamFindings tpl) (readReady h.val)
    (fun t e s =>
      let l := match tpl with | .data l => l | .fault _ => []
      let s := updOp t (fun o => { o with tpl := l.take (sqeHdrLen e.bytes), edits := editList e.bytes l,
                                          payLen := sqeLen e.bytes, stage := .waitChan }) s
      enqueue (sqeFlow e.bytes) { kind := .stream, tag := some t, maxlen := (portOf s (sqePort e.bytes)).maxlen } s) s)

/-- DMA_XFER: it waits for a pool channel (R162). -/
def execDmaXfer (h : Host) (q : QId) (t : OpTag) (s : State) : Out :=
  .next (startRow h q t (fun e => sqeType e == tyXfer) .xfer (fun _ _ => []) always
    (fun t e s => updOp t (fun o => { o with len := sqeAux e.bytes, stage := .waitChan }) s) s)

/-- Every earlier entry of the SQ has completed: its CQE is written (R139, R142). -/
def allDone (_ : State) (x : Sq) : Bool := x.live.isEmpty

/-- A FENCE is done; no later entry of its SQ starts before its CQE is written (R139). -/
def endFence (h q t n : Nat) (s : State) : State :=
  completeOp t stOk 0 n noTs (match sqOf s h q with
    | some x => putSq s h q { x with fence := some t }
    | none => s)

/-- FENCE. -/
def execFence (h : Host) (q : QId) (t : OpTag) (s : State) : Out :=
  .next (startRow h q t (fun e => sqeType e == tyFence && !sqeFlush e) .fence (fun _ _ => []) allDone
    (fun t _ s => endFence h.val q.val t 0 s) s)

/-- Every earlier entry but unfilled receive buffers has completed. -/
def allButPosted (_ : State) (x : Sq) : Bool := x.live.all (fun t => x.posted.contains t)

/-- FENCE_FLUSH: unfilled buffers of a receive SQ complete with ST_STATE, FLUSHED and RX, then the FENCE (R139). DESIGN CHOICE,
log entry 87. -/
def execFenceFlush (h : Host) (q : QId) (t : OpTag) (s : State) : Out :=
  .next (startRow h q t (fun e => sqeType e == tyFence && sqeFlush e) .fence (fun _ _ => []) allButPosted
    (fun t _ s =>
      let posted := match sqOf s h.val q.val with | some x => x.posted | none => []
      let s := posted.foldl (fun s b => completeOp b stState 0x12 0 noTs s) s
      endFence h.val q.val t posted.length s) s)

/-! ### The express lane (R145, R203, R210) -/

/-- The oldest entry of an SQ that no lane has taken. -/
def firstNoLane : List Taken → Option (List Taken × Taken × List Taken)
  | [] => none
  | e :: es => if e.lane.isNone then some ([], e, es) else (firstNoLane es).map (fun r => (e :: r.1, r.2.1, r.2.2))

/-- The kept place of the class is free, the flow queue empty and the gate admits (R210). -/
def laneFits (s : State) (f p t len : Nat) : Bool :=
  (flowOf s f).elems.isEmpty && decide ((stagedOf s p t).length < 16) && (stagedOf s p t).all (fun x => x.src != 5)
    && stageAdmits s p t len (gateOf s p).fit

/-- Stage an express-lane frame with its replicas queued; they share a copy in the packet buffer (R203, R304, R305).
No monitor measures it. DESIGN CHOICE, log entry 109. -/
def laneStage (f p tc t : Nat) (b : List Byte) (s : State) : State :=
  let (s, seq) := takeSeq f s
  let (rs, skips) := replicas s b (if seq.isSome then 6 else 0) [p] (match txEntry s f with | some x => entRepl x | none => [])
  let s := match genOfFlow s f with
    | some (g, _) => count .strmGSkip [g] 0 skips s
    | none => s
  let x := takeShare s (flowOf s f)
  let lc := counted x (flowLen seq b)
  let fin := finishTag x (tagLater (vtOf s p tc) x.tag) lc
  let s := charge f p tc lc fin (putFlow s f { x with tag := fin })
  let s := stage p tc { src := 5, tag := some t, flow := f, bytes := b, seq := seq, since := eventEl s } s
  let n := if rs.isEmpty then 0 else b.length
  let s := { s with txHeld := s.txHeld + n }
  let e : Elem := { kind := .frame, tag := some t, bytes := b, seq := seq, maxlen := (portOf s p).maxlen }
  updOp t (fun o => { o with copies := 1 + rs.length, stage := .staged, held := n }) (rs.foldl (fun s r => enqueue r e s) s)

/-- The host holds fewer tags than its quota, and the entry's CQ has a free place (R145). -/
def laneRoom (s : State) (h : Nat) (x : Sq) (e : Taken) : Bool :=
  decide (tagsHeld s h < tagBound s h e) && (match cqOf s h x.cqid with | some c => !cqFull s h x.cqid c | none => false)

/-- The entry of the express lane may start with tag `t` now: it waits for a free tag, for a FENCE before it (R139), for what
commands have changed of its objects (R63) and for room in the packet buffer (R274). -/
def laneReady (s : State) (t : Nat) (x : Sq) (e : Taken) : Bool :=
  serving s && e.express && (opOf s t).isNone && x.fence.isNone && objectsSettled s e.bytes
    && decide (sqeFlen e.bytes ≤ sharedFree s)

/-- EXPRESS_LANE_ARRIVAL by a side: a pushed INLINE_FRAME of the express lane is staged, or joins its flow queue, before its
acceptance. One that fails a check goes the ordinary way, and so does one whose host or CQ no longer has what R145 asks. A side
that may not write to the rim stages nothing (R23). -/
def execExpressLaneArrival (h : Host) (q : QId) (t : OpTag) (s : State) (d : SideId := .white) : Out :=
  .next (if !mayWrite d s then gatedWrite d s
    else match sqOf s h.val q.val with
    | none => s
    | some x => match firstNoLane x.entries with
      | none => s
      | some (a, e, b) =>
        let p := sqePort e.bytes
        let base := sqeFindings e.bytes ++ portFindings s h.val e.bytes ++ inlineFindings s e.bytes
        let y := decideRx x e.bytes base
        if !laneReady s t.val x e then s
        else if !(laneRoom s h.val x e && (base ++ rxFindings y e.bytes).isEmpty) then
          putSq s h.val q.val { x with entries := a ++ { e with express := false } :: b }
        else
          let f := sqeFlow e.bytes
          let es := if e.accepted then a ++ b else a ++ { e with lane := some t.val } :: b
          let s := takeTag h.val q.val t.val y es (opFor s h.val q.val e .inline) s
          let l := inlineBytes e.bytes
          if laneFits s f p (sqeTc e.bytes) (flowLen (if rtagLen s f = 0 then none else some 0) l) then
            laneStage f p (sqeTc e.bytes) t.val l s
          else
            enterFlow f .frame (some t.val) l
              (updOp t.val (fun o => { o with held := l.length }) { s with txHeld := s.txHeld + l.length }))

/-! ### Completion queues (R122, R147 to R153) -/

/-- PHASE of a slot (R122). -/
def phaseOf (log2 : Nat) (i : Idx) : Nat := if bitN i.toNat log2 then 0 else 1

/-- The 32 bytes of a CQE with a PHASE (R147). -/
def cqeBytes (c : Cqe) (phase : Nat) : List Byte :=
  leBytes c.user.toNat 4 ++ leBytes c.sqid.toNat 2 ++ leBytes c.slot.toNat 2 ++ leBytes c.ai.toNat 2 ++ leBytes c.status 1
    ++ leBytes (c.flags.toNat / 2 * 2 + phase) 1 ++ leBytes c.epoch.toNat 2 ++ leBytes c.source.toNat 2 ++ leBytes c.ts.ns.toNat 8
    ++ leBytes c.ts.epoch.toNat 2 ++ leBytes c.ts.tsf.toNat 2 ++ leBytes c.result.toNat 4

/-- The 32 bytes of a status packet with a PHASE (R59). -/
def statusBytes (p : StatusPkt) (phase : Nat) : List Byte :=
  leBytes p.tag.toNat 4 ++ leBytes p.opcode.toNat 2 ++ leBytes p.status 1 ++ leBytes phase 1 ++ leBytes p.asqHead.toNat 2
    ++ leBytes p.epoch.toNat 2 ++ leBytes p.detail.toNat 4 ++ leBytes p.result.toNat 12 ++ leBytes p.gen.toNat 4

/-- The bytes of a CQ item. -/
def itemBytes (b : CqBody) (phase : Nat) : List Byte :=
  match b with
  | .status p => statusBytes p phase
  | .cqe c => cqeBytes c phase

/-- Address of a CQ slot (R119). -/
def cqSlotAddr (x : Cq) (i : Idx) : BitVec 64 := x.base + BitVec.ofNat 64 (i.toNat % ringSize x.sizeLog2 * 32)

/-- No slot of the ring is free (R121). -/
def ringFull (x : Cq) : Bool := decide (ringSize x.sizeLog2 ≤ dist x.wi x.ci)

/-- An entry's CQE stands in its slot: the entry is completed (R139, R142). -/
def noteWritten (i : CqItem) (s : State) : State :=
  match i.tag.bind (fun t => (opOf s t).map (fun o => (t, o))) with
  | none => s
  | some (t, o) => match sqOf s o.host o.sq with
    | some x => putSq s o.host o.sq { x with live := x.live.erase t, fence := if x.fence = some t then none else x.fence }
    | none => s

/-- Write an item into slot WI and signal it (R150, R152). -/
def writeSlot (h c : Nat) (x : Cq) (i : CqItem) (s : State) : State :=
  let b := itemBytes i.body (phaseOf x.sizeLog2 x.wi)
  let s := noteWritten i (putCq s h c { x with wi := x.wi + 1, slots := x.slots ++ [i] })
  let s := { s with bus := s.bus ++ [.cqe h (cqSlotAddr x x.wi) b {}] }
  if x.irqEn && !i.noIrq then trigger h x.vec s else s

/-- Write an item to a CQ: into the ring, or into the overflow area (R153). -/
def writeItem (h c : Nat) (i : CqItem) (s : State) : State :=
  match cqOf s h c with
  | none => s
  | some x =>
    if x.ovf.isEmpty && !ringFull x then writeSlot h c x i s
    else
      let s := putCq s h c { x with ovf := x.ovf ++ [i] }
      if x.ovf.isEmpty then raiseAct (evCqOvf h) s else s

/-- Take the first element that `p` picks. -/
def takeFirst {α : Type} (p : α → Bool) : List α → Option (α × List α)
  | [] => none
  | x :: xs => if p x then some (x, xs) else (takeFirst p xs).map (fun r => (r.1, x :: r.2))

/-- A side writes CQEs, status packets and MSI-X messages to a host: not in an interruption, nor between a replay and the first
commit after it (R362, R393, R394). -/
def mayReport (s : State) (h : Nat) : Bool := dispatching s && !s.jrn.replayed && hostOk s h

/-- CQE_WRITE by a side: the oldest due CQE of the CQ, once its Move has committed (R149, R151). DESIGN CHOICE, log entry 23. -/
def execCqeWrite (h : Host) (c : QId) (s : State) (d : SideId := .white) : Out :=
  .next (if !mayWrite d s then gatedWrite d s
    else if !mayReport s h.val then s
    else match takeFirst (fun d : DueCqe => d.host == h.val && d.cq == c.val) s.jrn.dueCqe with
      | none => s
      | some (d, rest) =>
        if committed s d.move then
          writeItem h.val c.val { body := .cqe d.cqe, tag := some d.tag, noIrq := d.noIrq }
            { s with jrn := { s.jrn with dueCqe := rest } }
        else s)

/-- Some accepted admin command of the host awaits its status (AQ_BUSY). -/
def aqBusy (s : State) (h : Nat) : Bool :=
  s.cmd.waiting.any (fun w => w.1 == h) || s.cmd.running.any (fun r => r.2.host == h && !r.2.cfg && !r.2.dead)
    || s.cmd.dueStatus.any (fun d => d.host == h)
    || (match cqOf s h 0 with | some x => !x.ovf.isEmpty | none => false)

/-- An admin queue that stops is disabled once nothing waits (R83). -/
def settleAq (h : Nat) (s : State) : State :=
  let a := aqOf s h
  if a.stopping && !aqBusy s h then
    let s := putAq s h { a with en := false, stopping := false }
    if monitor s then { s with que := { s.que with sqs := tdel s.que.sqs (qkey h 0), cqs := tdel s.que.cqs (qkey h 0) } }
    else dropCq h 0 (dropSq h 0 s)
  else s

/-- CQ_OVERFLOW_MOVE by a side: the oldest item of the overflow area takes a released slot (R153), moved by channel 1 (R161). -/
def execCqOverflowMove (h : Host) (c : QId) (s : State) (d : SideId := .white) : Out :=
  .next (if !mayWrite d s then gatedWrite d s
    else match cqOf s h.val c.val with
    | none => s
    | some x => match x.ovf with
      | [] => s
      | i :: r =>
        if mayReport s h.val && !ringFull x && !(chanOf s 1).halted then
          let s := pchDone 1 32 (writeSlot h.val c.val { x with ovf := r } i s)
          if c.val = 0 then settleAq h.val s else s
        else s)

/-- Write a due status packet; `rest` are the others. -/
def putStatus (h : Nat) (x : DueStatus) (rest : List DueStatus) (s : State) : State :=
  settleAq h (writeItem h 0 { body := .status x.pkt, noIrq := x.pkt.noIrq } { s with cmd := { s.cmd with dueStatus := rest } })

/-- STATUS_PACKET_WRITE: the oldest due status packet of the host (R66), written by the start monitor where it executed the
command (R52), else by a side. -/
def execStatusPacketWrite (h : Host) (s : State) (d : SideId := .white) : Out :=
  .next (match takeFirst (fun x : DueStatus => x.host == h.val) s.cmd.dueStatus with
    | none => s
    | some (x, rest) =>
      if x.mon then (if hostOk s h.val then putStatus h.val x rest s else s)
      else byGate d (fun s => if mayReport s h.val && committed s x.move then putStatus h.val x rest s else s) s)

/-- Free what the released slots held (R144, R146). -/
def freeItems (h c : Nat) (l : List CqItem) (s : State) : State :=
  let ops := l.foldl (fun (t : Tab Op) (i : CqItem) => match i.tag with | some k => tdel t k | none => t) s.que.ops
  let s := { s with que := { s.que with ops := ops } }
  match cqOf s h c with
  | some x =>
    let x := { x with resv := x.resv - (l.filter (fun i : CqItem => i.tag.isSome)).length }
    putCq s h c { x with fullSeen := x.fullSeen && cqFull s h c x }
  | none => s

/-- The CQ to which the SQ of a page is bound, with its number (R124). -/
def boundCq (s : State) (h q : Nat) : Option (Nat × Cq) :=
  (pageOf s h q).bind (fun x => (cqPageOf s h x.cqid).map (fun y => (x.cqid, y)))

/-- A write to CQ_CI in the page of an SQ bound to the CQ (R124, R129). -/
def writeCi (h q : Nat) (aligned : Bool) (v : W32) (s : State) : State :=
  if !aligned || s.jrn.full then s
  else match boundCq s h q with
    | none => s
    | some (c, y) =>
      let v := v.setWidth 16
      let n := dist v y.ci
      if n ≤ dist y.wi y.ci then freeItems h c (y.slots.take n) (record (.cqCi h c v.toNat) (putCqPage s h c { y with ci := v, slots := y.slots.drop n }))
      else raise (evCiErr h) (count .queHostCiErr [h] 0 1 s)

/-- CQ_CI_WRITE. -/
def execCqCiWrite (h : Host) (q : QId) (aligned : Bool) (v : W32) (s : State) : Out := .next (writeCi h.val q.val aligned v s)

/-- What a read of a doorbell page returns: 0 for another size than an aligned DWORD, for an absent SQ and for the push slots
(R123, R124). -/
def pageWord (s : State) (h a : Nat) (whole : Bool) : Nat :=
  let q := a / 0x1000
  let o := a % 0x1000
  let cq := boundCq s h q
  match pageOf s h q with
  | none => 0
  | some x =>
    let pushOpen := (x.push.map (fun p => !p.buf.isEmpty)).getD false
    if !whole then 0
    else if o = 0 then x.pi.toNat
    else if o = 0x180 then x.ai.toNat
    else if o = 0x184 then fieldAt (b2n pushOpen) 2 1 + fieldAt (b2n (fetchStop s h x)) 1 1 + 1
    else if o = 0x200 then (cq.map (fun c => c.2.ci.toNat)).getD 0
    else if o = 0x204 then (cq.map (fun c => c.2.wi.toNat)).getD 0
    else 0

/-- A DWORD written to a doorbell page by its offset in BAR2: one that lies in the push slots covers part of a slot (R123, R124). -/
def writePage (h a : Nat) (enables : BitVec 4) (v : W32) (s : State) : State :=
  let q := a / 0x1000
  let o := a % 0x1000
  let aligned := enables == 0xF && a % 4 == 0
  if 1024 ≤ q then s
  else if o / 4 = 0 then writeDb h q (aligned && o == 0) v s
  else if o / 4 = 0x80 then writeCi h q (aligned && o == 0x200) v s
  else if 0x40 ≤ o && decide (o < 0x140) then writePush h q (o - 0x40) (leBytes v.toNat 4) s
  else s

/-- The slots that the host has not released are written again, with the same contents (R74, R155). -/
def rewriteSlots (h : Nat) (x : Cq) : List CqItem → Idx → List Tlp
  | [], _ => []
  | i :: r, at_ => .cqe h (cqSlotAddr x at_) (itemBytes i.body (phaseOf x.sizeLog2 at_)) {} :: rewriteSlots h x r (at_ + 1)

/-- Every CQE and status packet that no host has released is written again: those of a CQ are one group, and one trigger (R74, R155,
R490). -/
def rewriteAll (s : State) : State :=
  s.que.cqs.foldl (fun s c =>
    let s := { s with bus := s.bus ++ rewriteSlots (c.1 / 1024) c.2 c.2.slots c.2.ci }
    if c.2.irqEn && c.2.slots.any (fun i => !i.noIrq) then trigger (c.1 / 1024) c.2.vec s else s) s

end Sys2Proof.Machine
end

