-- ==== Sys2Proof/Machine/Dma.lean ====
section
/-!
DEFINITION. Machine/Dma.lean: the DMA channels: assignment, chains, the funnel's writes, barriers, bus errors, the pool stop
and withdrawals (R161 to R189).
-/

namespace Sys2Proof.Machine

/-! ### Channels -/

/-- A channel serves an operation. -/
def chanBusy (x : ChanSt) : Bool := x.kind != .idle

/-- Pool channels that serve an operation (DMA_POOL_STAT.BUSY). -/
def poolBusy (s : State) : Nat := (s.dma.chans.filter (fun c => decide (8 ≤ c.1) && chanBusy c.2)).length

/-- Pool channels that serve DMA_XFER entries. -/
def xferBusy (s : State) : Nat := (s.dma.chans.filter (fun c => decide (8 ≤ c.1) && c.2.kind == .xfer)).length

/-- XFER_MAX leaves room. -/
def xferRoom (s : State) : Bool := decide (xferBusy s < regFld s .dmaPoolCfg [] 16 7)

/-- The operation waits for a channel and may take one. -/
def chanWaits (s : State) (o : Op) : Bool := o.stage == .waitChan && (o.kind != .xfer || xferRoom s)

/-- Its turn in start order (R162). -/
def chanTurn (s : State) (o : Op) : Bool := s.que.ops.all (fun x => !chanWaits s x.2 || decide (o.order ≤ x.2.order))

/-! ### Descriptors (R165, R166) -/

/-- Host `m`'s chains may name host `n`'s memory. -/
def mayName (s : State) (m n : Nat) : Bool := m == n || bitN (regFld s .dmaXhostGrant [n] 0 4) m

/-- A descriptor breaks the DENIED rule. -/
def descDenied (s : State) (m : Nat) (d : Desc) : Bool :=
  dSrcSpace d != 0 || dDstSpace d != 0 || dIdxSpace d != 0 || !mayName s m (dSrcHost d)
    || (dOp d != 2 && !mayName s m (dDstHost d)) || (dOp d == 1 && !mayName s m (dIdxHost d))

/-- The first address past a space: host memory, the packet buffer, the side's DDR5, the field window (R166). -/
def spaceEnd (s : State) (space : Nat) : Nat :=
  if space = 0 then 2 ^ 64
  else if space = 1 then 0x6000000
  else if space = 2 then
    (match s.sides.holder with | some .black => s.ddrB.capGib | _ => s.ddrW.capGib) * 2 ^ 30
  else 0x20000

/-- A descriptor breaks a BAD_DESC rule. -/
def descBad (s : State) (d : Desc) : Bool :=
  let u := swapUnit (dSwap d)
  decide (2 ^ 21 ≤ dCtrl d) || decide (3 ≤ dOp d) || decide (5 ≤ dSwap d)
    || (match dOp d with
        | 0 => dLenField d == 0 || decide (16777216 < dLenField d) || dIdx d != 0 || dScatter d || dIdxSpace d != 0
            || dIdxHost d != 0 || dLenField d % u != 0 || decide (spaceEnd s (dSrcSpace d) < dSrc d + dLenField d)
            || decide (spaceEnd s (dDstSpace d) < dDst d + dLenField d)
        | 1 => dElem d == 0 || decide (4096 < dElem d) || dNidx d == 0 || decide (4096 < dNidx d)
            || bitsN (dLenField d) 13 3 != 0 || bitsN (dLenField d) 29 3 != 0 || dIdx d % 4 != 0 || dElem d % u != 0
        | _ => dEnd d || dSrc d % 32 != 0 || dDst d != 0 || dLenField d != 0 || dIdx d != 0 || dBarrier d || dSwap d != 0
            || dDstSpace d != 0 || dDstHost d != 0 || dScatter d || dIdxSpace d != 0 || dIdxHost d != 0)

/-! ### The walk and the execution (R167 to R179) -/

/-- Begin the descriptor at index `i`, past LINKs: `n` bounds the steps. -/
def beginDesc (x : ChanSt) (i : Nat) : Nat → ChanSt
  | 0 => chanEnd x 0 (x.count - 1)
  | n + 1 =>
    let d := x.descs.getD i 0
    if dOp d = 2 then beginDesc x (i + 1) n
    else { x with cur := i, pos := 0, offs := [], phase := if dOp d = 1 then .index else .data }

/-- The descriptor is done: the next one, or DONE after END (R170). -/
def afterDesc (x : ChanSt) : ChanSt :=
  if dEnd (x.descs.getD x.cur 0) then chanEnd x 0 (x.count - 1) else beginDesc x (x.cur + 1) x.descs.length

/-- Take one descriptor on the walk: the next one lies behind it, or where a LINK says (R168, R169). -/
def walkDesc (s : State) (x : ChanSt) (d : Desc) : ChanSt :=
  let i := x.descs.length
  let y := { x with descs := x.descs ++ [d], cur := i, nextAddr := if dOp d = 2 then dSrc d else x.nextAddr + 32,
                    nextHost := if dOp d = 2 then dSrcHost d else x.nextHost }
  if x.kind == .xfer && descDenied s x.host d then chanEnd y 4 i
  else if descBad s d then chanEnd y 3 i
  else if dOp d = 2 && dSrc d = x.head.toNat then chanEnd y 1 i
  else if dEnd d then (if i + 1 = x.count then beginDesc y 0 y.descs.length else chanEnd y 2 i)
  else if i + 1 = x.count then chanEnd y (if x.count = 256 then 1 else 2) i
  else y

/-- The descriptor at which a chain stands: the one being read on the walk, or the one executing. -/
def curIdx (x : ChanSt) : Nat := if x.phase = .walk then x.descs.length else x.cur

/-- Bytes that the current descriptor moves in all. -/
def descTotal (d : Desc) : Nat := if dOp d = 1 then dElem d * dNidx d else dLenField d

/-- Where byte `pos` of a descriptor's stream comes from and goes to: source address, destination address, and how many
bytes lie together from there. -/
def descAt (d : Desc) (offs : List Nat) (pos : Nat) : Nat × Nat × Nat :=
  if dOp d = 1 then
    let k := pos / dElem d
    let r := pos % dElem d
    let o := offs.getD k 0
    if dScatter d then (dSrc d + pos, dDst d + o + r, dElem d - r) else (dSrc d + o + r, dDst d + pos, dElem d - r)
  else (dSrc d + pos, dDst d + pos, dLenField d - pos)

/-- Two ranges share a byte. -/
def overlaps (a n b m : Nat) : Bool := decide (a < b + m) && decide (b < a + n)

/-- The source and destination ranges of the descriptor overlap (R167). -/
def descOverlap (d : Desc) (offs : List Nat) : Bool :=
  dSrcHost d == dDstHost d &&
    (if dOp d = 1 then
      (if dScatter d then offs.any (fun o => overlaps (dSrc d) (dElem d * dNidx d) (dDst d + o) (dElem d))
       else offs.any (fun o => overlaps (dSrc d + o) (dElem d) (dDst d) (dElem d * dNidx d)))
     else overlaps (dSrc d) (dLenField d) (dDst d) (dLenField d))

/-- `n` bytes of an overlapped destination: each is free (R167). -/
def freeBytes : Nat → State → List Byte × State
  | 0, s => ([], s)
  | n + 1, s =>
    let (i, s) := draw s
    let (l, s) := freeBytes n s
    (Config.overlapByte i :: l, s)

/-! ### The funnel (R175) -/

/-- Bytes of a run that may be written now to `dst`: a head up to the next 64-byte boundary and whole blocks; with the run's
last byte there, everything. -/
def writable (dst n : Nat) (last : Bool) : Nat :=
  let a := (64 - dst % 64) % 64
  if last then n else if n < a then 0 else a + (n - a) / 64 * 64

/-- Pieces of at most `k` bytes; the first number bounds them. -/
def pieces (k : Nat) : Nat → List Byte → List (List Byte)
  | 0, _ => []
  | n + 1, l => if l.isEmpty then [] else l.take k :: pieces k n (l.drop k)

/-- Consecutive writes from an address on. -/
def writesAt (h : Nat) (a : Attr) : Nat → List (List Byte) → List Tlp
  | _, [] => []
  | at_, l :: r => .memWrite h (BitVec.ofNat 64 at_) l a :: writesAt h a (at_ + l.length) r

/-- Max_Payload_Size of a host. -/
def maxPayload (s : State) (h : Nat) : Nat := 128 * 2 ^ (linkOf s h).cfg.mps.toNat

/-- The most that one read from an address asks a host for: the read rounded out to whole DWORDs stays within 512 bytes and the
host's Max_Read_Request_Size (R163, R175). -/
def maxRead (s : State) (h addr : Nat) : Nat := min 512 (128 * 2 ^ (linkOf s h).cfg.mrrs.toNat) - addr % 4

/-- The attributes of a data write: Relaxed Ordering under RO_EN and the host's Enable Relaxed Ordering (R150, R189). -/
def dataAttr (s : State) (h : Nat) : Attr :=
  { ro := regFld s .dmaPoolCfg [] 23 1 == 1 && (linkOf s h).cfg.relaxed }

/-- The writes of `l` to `dst`: a head, whole blocks merged up to Max_Payload_Size, a tail. -/
def funnel (s : State) (h dst : Nat) (l : List Byte) : List Tlp :=
  let a := min l.length ((64 - dst % 64) % 64)
  let b := (l.length - a) / 64 * 64
  let parts := pieces 64 1 (l.take a) ++ pieces (maxPayload s h) b ((l.drop a).take b) ++ pieces 64 1 (l.drop (a + b))
  writesAt h (dataAttr s h) dst parts

/-- Write what may be written of a channel's buffered bytes, to `dst` of host `h`. -/
def writeBuf (c h dst : Nat) (last : Bool) (s : State) : State :=
  let x := chanOf s c
  let n := writable dst x.buf.length last
  let l := funnel s h dst (x.buf.take n)
  let d := { s.dma with sent := s.dma.sent ++ l.map (fun t => (s.jrn.move, t)) }
  putChan { s with bus := s.bus ++ l, dma := d } c
    { x with pos := x.pos + n, buf := x.buf.drop n, wrote := if n = 0 || x.wrote.contains h then x.wrote else x.wrote ++ [h] }

/-! ### Reads and the prefetch engine (R163, R168, R185) -/

/-- The unit in which a space is read: DWORDs of host memory, 32-byte words of the packet buffer, 64-byte bursts of the DDR5,
bytes of the field window (R175). -/
def readUnit (space : Nat) : Nat :=
  match space with
  | 0 => 4
  | 1 => 32
  | 2 => 64
  | _ => 1

/-- Length of a read's completion data: whole units of its space (R175). -/
def rawLen (r : ReadReq) : Nat :=
  let u := readUnit r.space
  (divUp (r.addr + r.want) u - r.addr / u) * u

/-- All the completion data of a channel's read have arrived. -/
def readDone (x : ChanSt) : Bool :=
  match x.read with
  | some r => x.phase != .flush && decide (rawLen r ≤ r.got.length)
  | none => false

/-- The space and host of a channel's outstanding read. -/
def outstanding (x : ChanSt) : Option (Nat × Nat) :=
  match x.read with
  | some r => if readDone x then none else some (r.space, r.host)
  | none => none

/-- Bytes that a receive write puts into the buffer. -/
def rxTotal (o : Op) : Nat := min o.len o.rxBytes.length

/-- The payload bytes that a stream's copy may hold now: 256 KiB ahead of the last staged segment (R252). -/
def streamLimit (o : Op) : Nat := min o.payLen (o.sentBytes + 262144)

/-- The read that a channel has to issue next: space, host, address, length. A read of data ends at a lane of the swap, whose lanes
count from the first byte of the COPY or element (R178). A barrier's flush read has length 0. -/
def nextRead (s : State) (x : ChanSt) : Option (Nat × Nat × Nat × Nat) :=
  let d := x.descs.getD x.cur 0
  match x.kind, x.phase, opOf s x.tag with
  | .xfer, .walk, _ => some (0, x.nextHost, x.nextAddr, 32)
  | .xfer, .index, _ =>
    some (0, dIdxHost d, dIdx d + 4 * x.offs.length, min (maxRead s (dIdxHost d) (dIdx d)) (4 * (dNidx d - x.offs.length)))
  | .xfer, .data, _ =>
    let (src, _, room) := descAt d x.offs (x.pos + x.buf.length)
    let n := maxRead s (dSrcHost d) src
    some (0, dSrcHost d, src, if room ≤ n then room else n / swapUnit (dSwap d) * swapUnit (dSwap d))
  | .xfer, .flush, _ => x.flushes.head?.map (fun h => (0, h, dDst d, 0))
  | .txCopy, .data, some o =>
    let from_ := o.addr.toNat
    if o.kind = .stream then
      let n := min (maxRead s o.host (from_ + o.payload.length)) (streamLimit o - o.payload.length)
      if n = 0 || sharedFree s < n then none else some (0, o.host, from_ + o.payload.length, n)
    else if o.held = 0 && decide (sharedFree s < o.len) then none
    else some (0, o.host, from_ + x.buf.length, min (maxRead s o.host (from_ + x.buf.length)) (o.len - x.buf.length))
  | .rxWrite, .data, some o => some (1, 0, x.pos + x.buf.length, min 512 (rxTotal o - x.pos - x.buf.length))
  | _, _, _ => none

/-- The host that a channel's next bytes go to. -/
def destHost (s : State) (x : ChanSt) : Option Nat :=
  match x.kind, x.phase with
  | .xfer, .data => some (dDstHost (x.descs.getD x.cur 0))
  | .rxWrite, _ => (opOf s x.tag).map (·.host)
  | _, _ => none

/-- A pool channel has a read to issue, and the links allow it: a read or a posted write that a link does not allow waits
(R518). -/
def mayRead (s : State) (c : Nat) (x : ChanSt) : Bool :=
  decide (8 ≤ c) && x.read.isNone && (match nextRead s x with
    | some (space, h, _) => (space != 0 || hostOk s h) && (match destHost s x with | some g => hostOk s g | none => true)
    | none => false)

/-- Issue a channel's next read. A transmit copy takes its space in the packet buffer with its first read, a stream's copy
with each (R274). -/
def issueRead (c : Nat) (s : State) : State :=
  let x := chanOf s c
  match nextRead s x with
  | none => s
  | some (space, h, addr, want) =>
    let r : ReadReq := { space := space, host := h, addr := addr, want := want, tick := s.time.tick }
    let tlp := if space != 0 then [] else if want = 0 then [Tlp.flushRead h]
      else [Tlp.memRead h (BitVec.ofNat 64 (addr / 4 * 4)) (rawLen r)]
    let s := putChan { s with bus := s.bus ++ tlp } c { x with read := some r }
    match x.kind, opOf s x.tag with
    | .txCopy, some o =>
      let n := if o.kind = .stream then want else if o.held = 0 then o.len else 0
      putOp { s with txHeld := s.txHeld + n } x.tag { o with held := o.held + n }
    | _, _ => s

/-- Place of a kind in the order of R163. -/
def kindRank : ChKind → Nat
  | .rxWrite => 0
  | .txCopy => 1
  | _ => 2

/-- The channel of a kind whose turn it is: the next one above the last served, round robin. -/
def nextOfKind (s : State) (k : Nat) : Option Nat :=
  let l := (s.dma.chans.filter (fun c => kindRank c.2.kind == k && mayRead s c.1 c.2)).map (·.1)
  match l.find? (fun c => decide (tget 0 s.dma.last k < c)) with
  | some c => some c
  | none => l.head?

/-- The channel of the prefetch engine's next turn: receive writes, then transmit copies, then DMA_XFER entries, with
XFER_SHARE turns of a round of 16 held for the last (R163). -/
def nextTurnChan (s : State) : Option (Nat × Nat) :=
  let share := regFld s .dmaPoolCfg [] 0 4
  let of := fun k => (nextOfKind s k).map (fun c => (k, c))
  if decide (16 - s.dma.turns ≤ share - s.dma.xferTurns) && (nextOfKind s 2).isSome then of 2
  else (of 0).or ((of 1).or (of 2))

/-- Turns of the prefetch engine, until no channel has a read to issue. The number bounds them: each channel has at most one
read outstanding. DESIGN CHOICE, log entry 65. -/
def dmaTurns : Nat → State → State
  | 0, s => s
  | n + 1, s =>
    match nextTurnChan s with
    | none => s
    | some (k, c) =>
      let t := s.dma.turns + 1
      let x := s.dma.xferTurns + (if k = 2 then 1 else 0)
      let d := { s.dma with last := tput 0 s.dma.last k c, turns := t % 16, xferTurns := if t = 16 then 0 else x }
      dmaTurns n (issueRead c { s with dma := d })

/-- The prefetch engine runs: a side dispatches and the pool is not stopped (R163, R164, R182). -/
def dmaGo (s : State) : State := if dispatching s && !s.dma.stopped then dmaTurns 128 s else s

/-- The host range of a one-descriptor COPY chain runs past the end of host memory (R166). -/
def copyBad (o : Op) : Bool :=
  let n := match o.kind with | .stream => o.payLen | .rxBuf => rxTotal o | _ => o.len
  decide (2 ^ 64 < o.addr.toNat + n)

/-- DMA_POOL_CHANNEL_ASSIGN: a free pool channel takes the operation that waits longest (R162). -/
def execDmaPoolChannelAssign (t : OpTag) (c : Chan) (s : State) : Out :=
  .next (match opOf s t.val with
    | none => s
    | some o =>
      let x := chanOf s c.val
      if !(dispatching s && decide (8 ≤ c.val) && !chanBusy x && chanWaits s o && chanTurn s o) then s
      else
        let y := { x with host := o.host, tag := t.val, head := o.addr, nextAddr := o.addr.toNat, nextHost := o.host, descs := []
                          cur := 0, offs := [], buf := [], pos := 0, read := none, wrote := [], flushes := [], count := 1
                          phase := .data }
        let s := putOp s t.val { o with stage := .onChan c.val }
        dmaGo (match o.kind with
          | .xfer => putChan s c.val { y with kind := .xfer, phase := .walk, count := o.len }
          | .rxBuf =>
            let y := { y with kind := .rxWrite }
            putChan s c.val (if copyBad o then chanEnd y 3 0 else if rxTotal o = 0 then chanEnd y 0 0 else y)
          | _ =>
            let y := { y with kind := .txCopy }
            putChan s c.val (if copyBad o then chanEnd y 3 0 else y)))

/-! ### Completion data (R163, R175 to R179) -/

/-- An element of an INDEX descriptor that begins at `pos` lies inside its spaces (R177). -/
def elemOk (s : State) (d : Desc) (offs : List Nat) (pos : Nat) : Bool :=
  let (src, dst, room) := descAt d offs pos
  decide (src + room ≤ spaceEnd s (dSrcSpace d)) && decide (dst + room ≤ spaceEnd s (dDstSpace d))

/-- Descriptor `x.cur` has moved everything: a barrier waits for a flush read to every host that the chain has written
(R179). -/
def descDone (x : ChanSt) : ChanSt :=
  if dBarrier (x.descs.getD x.cur 0) then { x with phase := .flush, flushes := x.wrote } else afterDesc x

/-- Between two runs of a descriptor: it is done, or its next element is checked (R177). -/
def nextRun (s : State) (x : ChanSt) : ChanSt :=
  let d := x.descs.getD x.cur 0
  if x.phase != .data || !x.buf.isEmpty then x
  else if x.pos = descTotal d then descDone x
  else if dOp d = 1 && x.pos % dElem d = 0 && !elemOk s d x.offs x.pos then chanEnd x 5 x.cur
  else x

/-- The data of a DMA_XFER's read enter the stream: swapped, or free where the descriptor's ranges overlap (R167, R178). -/
def streamData (d : Desc) (offs : List Nat) (l : List Byte) (s : State) : List Byte × State :=
  if descOverlap d offs then freeBytes l.length s else (swapped (dSwap d) l, s)

/-- The bytes of a completed read. -/
def readData (s : State) (x : ChanSt) (r : ReadReq) : List Byte :=
  if r.space = 0 then (r.got.drop (r.addr % 4)).take r.want
  else match opOf s x.tag with
    | some o => slice o.rxBytes r.addr r.want
    | none => []

/-- Data of a DMA_XFER's chain: into the stream, and out of it as far as they may go (R175 to R178). -/
def takeXfer (c : Nat) (x : ChanSt) (l : List Byte) (s : State) : State :=
  let d := x.descs.getD x.cur 0
  let m := streamData d x.offs l s
  let s := putChan m.2 c { x with buf := x.buf ++ m.1 }
  let e := descAt d x.offs x.pos
  let s := writeBuf c (dDstHost d) e.2.1 (decide (e.2.2 ≤ x.buf.length + m.1.length)) s
  putChan s c (nextRun s (chanOf s c))

/-- Data of a transmit copy: a stream's payload, or a frame (R252, R163). -/
def takeCopy (c : Nat) (x : ChanSt) (o : Op) (l : List Byte) (s : State) : State :=
  if o.kind = .stream then
    let pay := o.payload ++ l
    let y := { x with pos := pay.length }
    if pay.length = o.payLen then
      putOp (releaseChan c (putChan s c (chanEnd y 0 0))) x.tag { o with payload := pay, stage := .queued }
    else putOp (putChan s c y) x.tag { o with payload := pay }
  else
    let y := { x with buf := x.buf ++ l, pos := x.buf.length + l.length }
    putChan s c (if o.len ≤ y.buf.length then { chanEnd y 0 0 with buf := y.buf } else y)

/-- Data of a receive write: out to the host's buffer (R175). -/
def takeRxWrite (c : Nat) (x : ChanSt) (o : Op) (l : List Byte) (s : State) : State :=
  let y := { x with buf := x.buf ++ l }
  let s := writeBuf c o.host (o.addr.toNat + y.pos) (decide (rxTotal o ≤ y.pos + y.buf.length)) (putChan s c y)
  let y := chanOf s c
  putChan s c (if rxTotal o ≤ y.pos then chanEnd y 0 0 else y)

/-- A host read whose data a channel has taken: a replay makes it again (R393). -/
def noteRead (r : ReadReq) (s : State) : State :=
  if r.space = 0 then
    { s with dma := { s.dma with sent := s.dma.sent ++
        [(s.jrn.move, .memRead r.host (BitVec.ofNat 64 (r.addr / 4 * 4)) (rawLen r))] } }
  else s

/-- A channel takes the data of its completed read. -/
def takeRead (c : Nat) (s : State) : State :=
  match (chanOf s c).read with
  | none => s
  | some r =>
    if !readDone (chanOf s c) then s
    else
      let l := readData s (chanOf s c) r
      let x := { chanOf s c with read := none }
      let s := noteRead r s
      match x.kind, x.phase, opOf s x.tag with
      | .xfer, .walk, _ => putChan s c (nextRun s (walkDesc s x (BitVec.ofNat 256 (leVal l))))
      | .xfer, .index, _ =>
        let offs := x.offs ++ (List.range (l.length / 4)).map (fun k => leAt l (4 * k) 4)
        putChan s c (nextRun s { x with offs := offs, phase := if offs.length = dNidx (x.descs.getD x.cur 0) then .data else .index })
      | .xfer, .data, _ => takeXfer c x l s
      | .txCopy, .data, some o => takeCopy c x o l s
      | .rxWrite, .data, some o => takeRxWrite c x o l s
      | _, _, _ => s

/-- Completion data reach the read of a channel. In a stopped pool they are kept (R182). -/
def arrive (c : Nat) (bytes : List Byte) (s : State) : State :=
  let x := chanOf s c
  match x.read with
  | none => s
  | some r =>
    let l := if r.space = 0 then bytes else List.replicate (rawLen r) 0
    let s := putChan s c { x with read := some { r with got := r.got ++ l.take (rawLen r - r.got.length) } }
    if s.dma.stopped then s else dmaGo (takeRead c s)

/-- The channel copies the payload of a stream. -/
def streamChan (s : State) (x : ChanSt) : Bool :=
  match opOf s x.tag with
  | some o => x.kind == .txCopy && o.kind == .stream
  | none => false

/-- DMA_READ_COMPLETION: completion data reach a channel's read; a packet-buffer read brings the frame's own bytes. -/
def execDmaReadCompletion (c : Chan) (bytes : List Byte) (s : State) : Out :=
  let x := chanOf s c.val
  .next (if dispatching s && decide (8 ≤ c.val) && x.phase != .flush && !streamChan s x then arrive c.val bytes s else s)

/-- PAYLOAD_PREFETCH: payload bytes of a stream arrive on its pool channel (R252). -/
def execPayloadPrefetch (t : OpTag) (bytes : List Byte) (s : State) : Out :=
  .next (match opOf s t.val with
    | some o => match o.kind, o.stage with
      | .stream, .onChan c => if dispatching s then arrive c bytes (dmaGo s) else s
      | _, _ => s
    | none => s)

/-! ### Bus errors (R180 to R185) -/

/-- The channels that have a read outstanding on a host link or memory (R182). -/
def candOf (s : State) (at_ : Nat × Nat) : BitVec 128 :=
  s.dma.chans.foldl (fun v c => if 8 ≤ c.1 && outstanding c.2 == some at_ then v ||| BitVec.ofNat 128 (2 ^ c.1) else v) 0

/-- The error is a refused write of a copied frame into the packet buffer, and not a failed flush read. -/
def bufferWrite (x : ChanSt) (code : Nat) : Bool := code == 7 && x.phase != .flush

/-- Where a channel's error lies: its outstanding read, or the packet buffer that it writes. -/
def errorAt (x : ChanSt) (code : Nat) : Nat × Nat := if bufferWrite x code then (1, 0) else (outstanding x).getD (1, 0)

/-- A bus error on a pool channel stops the pool; the failed read counts as not issued (R182, R183). -/
def poolError (c code : Nat) (addr : BitVec 64) (s : State) : State :=
  let x := chanOf s c
  let at_ := errorAt x code
  let bit := BitVec.ofNat 128 (2 ^ c)
  let t := if bufferWrite x code then s else putChan s c { x with read := none }
  if s.dma.stopped then { t with dma := { t.dma with multi := true, cand := t.dma.cand ||| bit } }
  else
    raiseS evPoolStop (count .dmaPoolStops [] 0 1 { t with dma := { t.dma with
      stopped := true, auto := false, multi := false, cand := candOf s at_ ||| bit, stopAt := s.time.optime,
      err := { addr := addr, dir := code == 7, host := at_.2, space := at_.1, code := code, err := true } } })

/-- A channel can meet a bus error now: on its outstanding read, or in writing a copied frame into the packet buffer. -/
def canFail (x : ChanSt) (e : BusErr) : Bool :=
  match e with
  | .writeErr => x.kind == .txCopy && x.phase == .data
  | .cplTimeout => x.phase != .flush && (match outstanding x with | some (sp, _) => sp == 0 | none => false)
  | _ => x.phase != .flush && (outstanding x).isSome

/-- The place of a channel's error among those of one cycle: host links by number, then DDR5, then the packet buffer (R182). -/
def faultPlace (s : State) (c code : Nat) : Nat :=
  match errorAt (chanOf s c) code with
  | (0, h) => h
  | (2, _) => 4
  | _ => 5

/-- The second fault that the pool meets in the cycle of one on channel `c`. -/
def secondFault (s : State) (c : Nat) (also : Option PoolFault) : Option PoolFault :=
  also.filter (fun f => f.chan.val != c && decide (8 ≤ f.chan.val) && canFail (chanOf s f.chan.val) f.err)

/-- The pool meets the faults of one cycle: it latches the one whose place is first, and the other finds it stopped (R182);
of two on one link or memory the row's own is first. DESIGN CHOICE, log entry 106. -/
def poolErrors (c code : Nat) (addr : BitVec 64) (also : Option PoolFault) (s : State) : State :=
  match secondFault s c also with
  | none => poolError c code addr s
  | some f =>
    if faultPlace s c code ≤ faultPlace s f.chan.val (busCode f.err) then poolError f.chan.val (busCode f.err) f.addr (poolError c code addr s)
    else poolError c code addr (poolError f.chan.val (busCode f.err) f.addr s)

/-- DMA_BUS_ERROR_POOL. -/
def execDmaBusErrorPool (c : Chan) (e : BusErr) (addr : BitVec 64) (also : Option PoolFault) (s : State) : Out :=
  .next (if dispatching s && decide (8 ≤ c.val) && canFail (chanOf s c.val) e then poolErrors c.val (busCode e) addr also s else s)

/-- DMA_BARRIER_FLUSH_COMPLETE: the chain goes on once every flush read has completed; a failed one is a bus error with
WRITE_ERR (R179, R180), at the DST of the current descriptor. DESIGN CHOICE, log entry 107. In a stopped pool a completion is
kept. -/
def execDmaBarrierFlushComplete (c : Chan) (ok : Bool) (s : State) : Out :=
  let x := chanOf s c.val
  .next (if dispatching s && x.phase == .flush && x.read.isSome then
      if ok then
        let y := { x with read := none, flushes := x.flushes.tail }
        dmaGo (putChan s c.val (if y.flushes.isEmpty then afterDesc y else y))
      else poolError c.val 7 (BitVec.ofNat 64 (dDst (x.descs.getD x.cur 0))) s
    else s)

/-- Reference-time ticks of 2 ns after which a completion timeout can come: the shortest time of the range that Device
Control 2 names, 10 ms for 0 (R185). PRESUMED, log entry 76. -/
def timeoutTicks (s : State) (h : Nat) : Nat :=
  match (linkOf s h).cfg.ctoValue.toNat with
  | 1 => 25000
  | 2 => 500000
  | 5 => 8000000
  | 6 => 32500000
  | _ => 5000000

/-- DMA_COMPLETION_TIMEOUT: an issued read of host memory has had no completion for the host's completion timeout; a flush
read's ends with WRITE_ERR (R179, R185). -/
def execDmaCompletionTimeout (c : Chan) (addr : BitVec 64) (also : Option PoolFault) (s : State) : Out :=
  let x := chanOf s c.val
  .next (match x.read with
    | some r =>
      if dispatching s && decide (8 ≤ c.val) && r.space == 0 && !readDone x
          && decide (r.tick + timeoutTicks s r.host ≤ s.time.tick) then
        poolErrors c.val (if x.phase = .flush then 7 else 8) addr also s
      else s
    | none => s)

/-- The channel is free again; it keeps the codes of its last chain. -/
def freeChan (c : Nat) (s : State) : State :=
  let x := chanOf s c
  putChan s c { endCode := x.endCode, endStatus := x.endStatus, endIdx := x.endIdx, resid := x.resid, pos := x.pos
                cur := x.endIdx, halted := x.halted, haltMove := x.haltMove }

/-! ### Privileged channels 2 to 6 (R161, R168, R186) -/

/-- A run occupies its channel. -/
def fwStart (c : Nat) (s : State) : State :=
  putChan s c { chanOf s c with kind := .firmware, phase := .data, count := fwCount, cur := 0, pos := 0 }

/-- A run on a channel is over: another goes on, or the channel stays idle. -/
def fwNext (c : Nat) (more : Bool) (s : State) : State := if more then fwStart c s else s

/-- A run on a channel that moved `n` bytes has ended well. -/
def fwEnd (c n : Nat) (more : Bool) (s : State) : State := fwNext c more (pchDone c n s)

/-- A request on a channel is withdrawn: it ends with WITHDRAWN and reports its residue (R186). -/
def withdrawn (c residue : Nat) (s : State) : State :=
  let x := chanOf s c
  count .dmaChResid [c] 31 1 (freeChan c (putChan s c { chanEnd x 0x0B x.cur with resid := min residue 0x1FFFFFF }))

/-- The reservation of a frame that a port receives and stores. -/
def storing (x : FldP) : Option Nat := x.rx.filter (fun r => r != 0)

/-- Some port receives a frame, moved by channel 4. -/
def someReceives (s : State) : Bool := s.fld.ports.any (fun x => (storing x.2).isSome)

/-- Some port sends a frame, moved by channel 5. -/
def someSends (s : State) : Bool := s.fld.ports.any (fun x => x.2.bus.isSome)

/-- Some gather builds. -/
def someBuilds (s : State) : Bool := s.fld.aggs.any (fun a => a.2.building.isSome)
/-- Some scatter has written its elements and not ended. -/
def someScatters (s : State) : Bool := s.fld.aggs.any (fun a => a.2.scattered.isSome)

/-- A privileged channel has a request left to serve. -/
def moreOn (s : State) (c : Nat) : Bool :=
  match c with
  | 2 => someBuilds s
  | 3 => someScatters s
  | 4 => someReceives s
  | 5 => someSends s
  | _ => false

/-- PCH_HALT_RELEASE: the Move of the halt counts as committed (R552), and the channel takes its next operation (R181). -/
def execPchHaltRelease (c : Chan) (s : State) : Out :=
  let x := chanOf s c.val
  .next (if x.halted && sideCommit s x.haltMove then fwNext c.val (moreOn s c.val) (putChan s c.val { x with halted := false }) else s)

/-- A pool channel goes on after a stop: it takes data that are whole, and a read that has not completed is issued again. -/
def resumeChan (c : Nat) (s : State) : State :=
  let x := chanOf s c
  if readDone x then takeRead c s else putChan s c { x with read := none }

/-- The pool runs again, and its candidates clear (R183). DESIGN CHOICE, log entry 89. -/
def poolRun (s : State) : State :=
  let s := { s with dma := { s.dma with stopped := false, cand := 0 } }
  dmaGo (s.dma.chans.foldl (fun s c => if 8 ≤ c.1 then resumeChan c.1 s else s) s)

/-- RESUME. -/
def poolResume (s : State) : State := if s.dma.stopped then poolRun s else s

/-- ABORT_CAND: the candidates' operations end with POOL_ABORT. -/
def poolAbort (s : State) : State :=
  if s.dma.stopped then
    let ends := s.dma.chans.foldl (fun s c =>
      if 8 ≤ c.1 && s.dma.cand.getLsbD c.1 && chanBusy c.2 then
        putChan s c.1 { chanEnd c.2 0x0A (curIdx c.2) with read := none } else s) s
    poolRun ends
  else s

/-- DMA_POOL_AUTO_ABORT: AUTO_MS of operating time have passed since the stop. -/
def execDmaPoolAutoAbort (s : State) : Out :=
  let ms := regFld s .dmaPoolCfg [] 24 8
  .next (if dispatching s && s.dma.stopped && ms != 0 && decide (s.dma.stopAt + ms ≤ s.time.optime) then
      let s := poolAbort s
      { s with dma := { s.dma with auto := true } }
    else s)

/-- The side that issued them has lost the Clock: its reads are discarded, and the new holder issues them again (R184). -/
def dropReads (s : State) : State :=
  { s with dma := { s.dma with chans := s.dma.chans.map (fun c => (c.1, { c.2 with read := none })) } }

/-- LATE_COMPLETION_DISCARD: the rim discards it and records nothing (R184). -/
def execLateCompletionDiscard (_ : Chan) (s : State) : Out := .next s

/-! ### Ends (R171, R172, R186) -/

/-- A copied frame enters its flow queue, or fails the second check of R134. -/
def endTxCopy (t : Nat) (bytes : List Byte) (o : Op) (s : State) : State :=
  if tooLong o.maxlen bytes (rtagLen s o.flow) then failOp t stRange s
  else if flowFits s o.flow o.port o.tc then enterFlow o.flow .frame (some t) bytes s
  else failOp t stState s

/-- The operation of an ended chain is done. -/
def endOp (t : Nat) (x : ChanSt) (s : State) : State :=
  let s := if x.endCode = 1 || x.endCode = 2 || x.endCode = 3 || x.endCode = 5 then raiseS evChainFault s else s
  match opOf s t with
  | none => s
  | some o => match x.kind, o.kind with
    | .xfer, _ =>
      completeOp t x.endStatus 0 (x.endCode + 256 * x.endIdx) noTs s
    | .rxWrite, _ => finishRx t x.endCode s
    | .txCopy, .stream => finishTx t (dropStream o.flow t (putOp s t { o with dead := true, fault := x.endStatus, stage := .queued }))
    | .txCopy, _ => if x.endCode = 0 then endTxCopy t x.buf o s else failOp t x.endStatus s
    | _, _ => s

/-- DMA_CHAIN_END: the chain's operation is done and the channel is free, once the pool runs. DESIGN CHOICE, log entry 108. -/
def execDmaChainEnd (c : Chan) (s : State) : Out :=
  let x := chanOf s c.val
  .next (if dispatching s && !s.dma.stopped && chanBusy x && x.phase == .ended && decide (8 ≤ c.val) then
      dmaGo (endOp x.tag x (freeChan c.val s))
    else s)

/-! ### Registers -/

/-- DMA_POOL_STAT. -/
def dmaPoolStatReg (s : State) : Nat :=
  fieldAt (b2n s.dma.stopped) 31 1 + fieldAt (b2n s.dma.auto) 30 1 + fieldAt (poolBusy s) 0 7

/-- DMA_POOL_ERR_INFO. -/
def dmaPoolErrInfoReg (s : State) : Nat :=
  let e := s.dma.err
  fieldAt (b2n s.dma.multi) 31 1 + fieldAt (b2n e.dir) 16 1 + fieldAt e.host 12 2 + fieldAt e.space 8 2 + fieldAt e.code 0 8

/-- DMA_PCH_ERR_INFO. -/
def dmaPchErrInfoReg (s : State) (k : Nat) : Nat :=
  let e := tget {} s.dma.pch k
  fieldAt (b2n e.err) 31 1 + fieldAt (b2n (chanOf s k).halted) 30 1 + fieldAt e.later 17 8 + fieldAt (b2n e.dir) 16 1
    + fieldAt e.host 12 2 + fieldAt e.space 8 2 + fieldAt e.code 0 8

/-- DMA_CH_STAT. -/
def dmaChStatReg (s : State) (c : Nat) : Nat :=
  let x := chanOf s c
  fieldAt (b2n (chanBusy x)) 31 1 + fieldAt (b2n (x.halted || (s.dma.stopped && decide (8 ≤ c)))) 30 1
    + fieldAt (curIdx x) 16 8 + fieldAt x.endCode 8 8 + fieldAt x.endStatus 0 8

/-- KIND of DMA_CH_OWNER. -/
def chKindNum : ChKind → Nat
  | .idle => 0
  | .xfer => 1
  | .txCopy => 2
  | .rxWrite => 3
  | .firmware => 4

/-- DMA_CH_OWNER. -/
def dmaChOwnerReg (s : State) (c : Nat) : Nat :=
  let x := chanOf s c
  fieldAt (chKindNum x.kind) 29 3 + fieldAt x.host 27 2 + fieldAt x.tag 0 17

end Sys2Proof.Machine
end

