-- ==== Sys2Proof/Machine/Crypto.lean ====
section
/-!
DEFINITION. Machine/Crypto.lean: SHA-384 and ECDSA P-384 verification, which R79, R542 and R543 name. PRESUMED: the
algorithms are those of FIPS 180-4 and FIPS 186, which the spec names and does not restate.
-/

namespace Sys2Proof.Machine

/-- A 64-bit rotation to the right by `k`, 0 < k < 64. -/
def rotr64 (x k : Nat) : Nat := (x >>> k) ||| ((x <<< (64 - k)) % 2 ^ 64)

/-- The largest `r` of `k` bits more with `r ^ e ≤ n`, over `r` as found so far. -/
def rootDown (e n : Nat) : Nat → Nat → Nat
  | 0, r => r
  | k + 1, r =>
    let t := r + 2 ^ k
    rootDown e n k (if t ^ e ≤ n then t else r)

/-- The first 64 bits of the fractional part of the `e`-th root of a prime below 512. -/
def rootFrac (e p : Nat) : Nat := rootDown e (p * 2 ^ (64 * e)) 69 0 % 2 ^ 64

/-- The first 80 primes. -/
def shaPrimes : List Nat := (List.range 410).filter 
  (fun n => decide (2 ≤ n) && (List.range 19).all (fun d => n % (d + 2) != 0 || n == d + 2))

/-- The round constants of SHA-384 are those of the cube roots of the first 80 primes. -/
def shaConsts : List Nat := shaPrimes.map (rootFrac 3)

/-- The eight working variables of the compression function. -/
structure ShaVars where
  a : Nat
  b : Nat
  c : Nat
  d : Nat
  e : Nat
  f : Nat
  g : Nat
  h : Nat
  deriving DecidableEq, Repr

/-- The initial hash value of SHA-384: the square roots of the ninth to the sixteenth prime. -/
def sha384Start : ShaVars :=
  let r := fun (k : Nat) => rootFrac 2 (shaPrimes.getD (8 + k) 0)
  { a := r 0, b := r 1, c := r 2, d := r 3, e := r 4, f := r 5, g := r 6, h := r 7 }

/-- One round with its constant `k` and message word `w`. -/
def shaRound (v : ShaVars) (k w : Nat) : ShaVars :=
  let s1 := rotr64 v.e 14 ^^^ rotr64 v.e 18 ^^^ rotr64 v.e 41
  let ch := (v.e &&& v.f) ^^^ ((2 ^ 64 - 1 - v.e) &&& v.g)
  let t1 := v.h + s1 + ch + k + w
  let s0 := rotr64 v.a 28 ^^^ rotr64 v.a 34 ^^^ rotr64 v.a 39
  let mj := (v.a &&& v.b) ^^^ (v.a &&& v.c) ^^^ (v.b &&& v.c)
  { a := (t1 + s0 + mj) % 2 ^ 64, b := v.a, c := v.b, d := v.c
    e := (v.d + t1) % 2 ^ 64, f := v.e, g := v.f, h := v.g }

/-- The message word that follows sixteen others, the oldest first. -/
def shaNext (w : List Nat) : Nat :=
  let x := w.getD 1 0
  let y := w.getD 14 0
  (w.getD 0 0 + (rotr64 x 1 ^^^ rotr64 x 8 ^^^ (x >>> 7)) + w.getD 9 0 + (rotr64 y 19 ^^^ rotr64 y 61 ^^^ (y >>> 6)))
    % 2 ^ 64

/-- The rounds over a list of constants; `w` is the next sixteen message words. -/
def shaRounds : List Nat → List Nat → ShaVars → ShaVars
  | [], _, v => v
  | k :: ks, w, v => shaRounds ks (w.drop 1 ++ [shaNext w]) (shaRound v k (w.getD 0 0))

/-- Compress one 128-byte block. -/
def shaBlock (h : ShaVars) (block : List Byte) : ShaVars :=
  let v := shaRounds shaConsts ((List.range 16).map (fun (i : Nat) => beAt block (8 * i) 8)) h
  { a := (h.a + v.a) % 2 ^ 64, b := (h.b + v.b) % 2 ^ 64, c := (h.c + v.c) % 2 ^ 64, d := (h.d + v.d) % 2 ^ 64
    e := (h.e + v.e) % 2 ^ 64, f := (h.f + v.f) % 2 ^ 64, g := (h.g + v.g) % 2 ^ 64, h := (h.h + v.h) % 2 ^ 64 }

/-- The padded message: one 1 bit, zeros, and the length in bits as 128 bits, to a whole number of 128-byte blocks. -/
def shaPad (m : List Byte) : List Byte :=
  m ++ [0x80] ++ List.replicate ((239 - m.length % 128) % 128) 0 ++ beBytes (8 * m.length) 16

/-- Compress `n` blocks. -/
def shaBlocks : Nat → ShaVars → List Byte → ShaVars
  | 0, h, _ => h
  | n + 1, h, m => shaBlocks n (shaBlock h (m.take 128)) (m.drop 128)

/-- The 48 bytes of the SHA-384 hash of a message. PRESUMED, log entry 49. -/
def sha384 (m : List Byte) : List Byte :=
  let l := shaPad m
  let h := shaBlocks (l.length / 128) sha384Start l
  [h.a, h.b, h.c, h.d, h.e, h.f].flatMap (fun (x : Nat) => beBytes x 8)

/-- The field prime of P-384. -/
def p384P : Nat := 2 ^ 384 - 2 ^ 128 - 2 ^ 96 + 2 ^ 32 - 1

/-- The order of the base point. -/
def p384N : Nat :=
  0xffffffffffffffffffffffffffffffffffffffffffffffffc7634d81f4372ddf581a0db248b0a77aecec196accc52973

/-- The coefficient b of the curve y² = x³ − 3x + b. -/
def p384B : Nat :=
  0xb3312fa7e23ee7e4988e056be3f82d19181d9c6efe8141120314088f5013875ac656398d8a2ed19d2a85c8edd3ec2aef

/-- The base point. -/
def p384Gx : Nat :=
  0xaa87ca22be8b05378eb1c71ef320ad746e1d3b628ba79b9859f741e082542a385502f25dbf55296c3a545e3872760ab7

def p384Gy : Nat :=
  0x3617de4a96262c6f5d9e98bf9292dc29f8f41dbd289a147ce9da3113b5f0b8c00a60b1ce1d7e819d7a431d7c90ea0e5f

/-- A point of the curve in Jacobian coordinates: (x / z², y / z³), or the point at infinity where z = 0. -/
structure CurvePoint where
  x : Nat
  y : Nat
  z : Nat
  deriving DecidableEq, Repr

/-- The difference of two field elements. -/
def subP (a b : Nat) : Nat := (a + p384P - b) % p384P

/-- Twice a point. -/
def pointDouble (p : CurvePoint) : CurvePoint :=
  let d := p.z * p.z % p384P
  let g := p.y * p.y % p384P
  let b := p.x * g % p384P
  let al := 3 * subP p.x d * (p.x + d) % p384P
  let x := subP (al * al % p384P) (8 * b % p384P)
  { x := x, y := subP (al * subP (4 * b % p384P) x % p384P) (8 * g * g % p384P), z := 2 * p.y * p.z % p384P }

/-- The sum of two points. -/
def pointAdd (p q : CurvePoint) : CurvePoint :=
  if p.z == 0 then q
  else if q.z == 0 then p
  else
    let zp := p.z * p.z % p384P
    let zq := q.z * q.z % p384P
    let u := p.x * zq % p384P
    let s := p.y * q.z * zq % p384P
    let h := subP (q.x * zp % p384P) u
    let r := subP (q.y * p.z * zp % p384P) s
    if h == 0 then if r == 0 then pointDouble p else { x := 1, y := 1, z := 0 }
    else
      let hh := h * h % p384P
      let hhh := h * hh % p384P
      let v := u * hh % p384P
      let x := subP (r * r % p384P) ((hhh + 2 * v) % p384P)
      { x := x, y := subP (r * subP v x % p384P) (s * hhh % p384P), z := h * p.z * q.z % p384P }

/-- a·P + b·Q over the low `n` bits of `a` and `b`, from the highest bit; `s` is P + Q. -/
def pointMul (p q s : CurvePoint) (a b : Nat) : Nat → CurvePoint → CurvePoint
  | 0, acc => acc
  | n + 1, acc =>
    let t := pointDouble acc
    pointMul p q s a b n
      (if bitN a n then if bitN b n then pointAdd t s else pointAdd t p
       else if bitN b n then pointAdd t q else t)

/-- `a` to the power `e` modulo `m`, over the low `n` bits of `e`, from the highest bit. -/
def powMod (a e m : Nat) : Nat → Nat → Nat
  | 0, acc => acc
  | n + 1, acc =>
    let t := acc * acc % m
    powMod a e m n (if bitN e n then t * a % m else t)

/-- The inverse of `a` modulo a prime `m` of 384 bits. -/
def inverseMod (a m : Nat) : Nat := powMod a (m - 2) m 384 1

/-- Whether 97 bytes are an uncompressed point of the curve in SEC 1 form. -/
def onCurve (key : List Byte) : Bool :=
  let x := beAt key 1 48
  let y := beAt key 49 48
  key.length == 97 && byteAt key 0 == 4 && x < p384P && y < p384P
    && y * y % p384P == subP ((x * x % p384P * x + p384B) % p384P) (3 * x % p384P)

/-- ECDSA P-384 verification of the signature r ‖ s (96 bytes) over a message's hash, under a public key in SEC 1 form. -/
def p384Verify (key hash sig : List Byte) : Bool :=
  let r := beAt sig 0 48
  let s := beAt sig 48 48
  if !onCurve key || sig.length != 96 || r == 0 || r >= p384N || s == 0 || s >= p384N then false
  else
    let w := inverseMod s p384N
    let g : CurvePoint := { x := p384Gx, y := p384Gy, z := 1 }
    let q : CurvePoint := { x := beAt key 1 48, y := beAt key 49 48, z := 1 }
    let c := pointMul g q (pointAdd g q) (beVal hash * w % p384N) (r * w % p384N) 384 { x := 1, y := 1, z := 0 }
    let i := inverseMod c.z p384P
    c.z != 0 && c.x * (i * i % p384P) % p384P % p384N == r

end Sys2Proof.Machine
end

