-- ==== Sys2Proof/Machine/Fields.lean ====
section
/-!
DEFINITION. Machine/Fields.lean: field ports, their images and transmit queues, and the aggregation functions (R319 to R348).
-/

namespace Sys2Proof.Machine

/-! ### Settings (R323 to R326) -/

/-- A field port. -/
def fldOf (s : State) (n : Nat) : FldP := tget {} s.fld.ports n
/-- Store it. -/
def putFld (s : State) (n : Nat) (x : FldP) : State := { s with fld := { s.fld with ports := tput {} s.fld.ports n x } }

/-- `n` bytes at offset `off` of SETTINGS. -/
def setAt (x : FldSet) (off n : Nat) : Nat := bitsN x.settings.toNat (8 * off) (8 * n)
/-- Bit `b` of the byte at `off`. -/
def setBit (x : FldSet) (off b : Nat) : Bool := bitN (setAt x off 1) b

/-- VIOF_OK of a port's bank. DEDUCED, log entry 68. -/
def viofOk (s : State) (n : Nat) : Bool := (tget 0 s.fld.viof (n / 32)).getLsbD 1

/-- A field counter. -/
def fldCount (n c k : Nat) (s : State) : State := count .fldCnt [n, c] 0 k s

/-- Faults of role 1 settings (R324). -/
def t1sFindings (x : FldSet) : List Finding :=
  let coord := setAt x 0x0D 1 == 0 && setAt x 0x0C 1 == 1
  when (decide (1 < setAt x 0x0C 1)) (fParam 0x20)
  ++ when (!coord && setAt x 0x0E 1 != 0) (fParam 0x22)
  ++ when (decide (4 ≤ setAt x 0x18 1)) (fParam 0x2C) ++ when (setAt x 0x19 3 != 0) (fParam 0x2D)
  ++ when (decide (254 < setAt x 0x0D 1)) (fRange 0x21)
  ++ when (coord && setAt x 0x0E 1 == 0) (fRange 0x22)
  ++ when (setAt x 0x10 1 == 0) (fRange 0x24) ++ when (setAt x 0x11 1 == 0) (fRange 0x25)

/-- Quanta of a phase and its bit time in ns. -/
def quanta (x : FldSet) (off : Nat) : Nat := 1 + setAt x (off + 1) 1 + setAt x (off + 2) 1
def bitTime (x : FldSet) (off : Nat) : Nat := setAt x off 1 * 2 * quanta x off

/-- Faults of one CAN phase's fields at `off` (R325). -/
def phaseFindings (x : FldSet) (off : Nat) : List Finding :=
  when (setAt x off 1 == 0) (fRange (0x14 + off)) ++ when (setAt x (off + 1) 1 == 0) (fRange (0x15 + off))
  ++ when (setAt x (off + 2) 1 == 0 || decide (128 < setAt x (off + 2) 1)) (fRange (0x16 + off))
  ++ when (setAt x (off + 3) 1 == 0 || decide (setAt x (off + 2) 1 < setAt x (off + 3) 1)) (fRange (0x17 + off))

/-- Faults of role 2 settings (R325, R326). -/
def canFindings (x : FldSet) : List Finding :=
  let data := setBit x 0x0C 0 || setBit x 0x0C 1
  let pwm := setBit x 0x0C 3
  when (decide (64 ≤ setAt x 0x0C 1)) (fParam 0x20)
  ++ when (!data && setAt x 0x11 4 != 0) (fParam 0x25) ++ when (!data && setAt x 0x15 1 != 0) (fParam 0x29)
  ++ when (!pwm && setAt x 0x16 3 != 0) (fParam 0x2A) ++ when (setAt x 0x19 3 != 0) (fParam 0x2D)
  ++ phaseFindings x 0x0D
  ++ when (decide (bitTime x 0x0D < 1000) || decide (quanta x 0x0D < 8)) (fRange 0x21)
  ++ (if data then phaseFindings x 0x11 ++ when (decide (bitTime x 0x11 < 50) || decide (bitTime x 0x0D < bitTime x 0x11)
        || decide (quanta x 0x11 < 5)) (fRange 0x25) else [])
  ++ (if pwm then when (setAt x 0x16 1 == 0 || decide (63 < setAt x 0x16 1)) (fRange 0x2A)
        ++ when (setAt x 0x17 1 == 0 || decide (63 < setAt x 0x17 1)) (fRange 0x2B)
        ++ when (decide (63 < setAt x 0x18 1)) (fRange 0x2C) else [])

/-- Faults of SETTINGS (R326). Off has the common bytes of R323 alone. -/
def fldFindings (x : FldSet) : List Finding :=
  when (bitsN (setAt x 0 2) 12 2 == 3 || decide (2 ^ 14 ≤ setAt x 0 2)) (fParam 0x14)
  ++ when (decide (16 ≤ setAt x 2 2) || (x.role == 1 && setBit x 2 3)) (fParam 0x16)
  ++ (if x.role = 0 then [] else if x.role = 1 then t1sFindings x else canFindings x)

/-- The settings of a port as the active side holds them. -/
def sideFld (s : State) (n : Nat) : FldSet :=
  (waitingWrites s).foldl (fun x w => match w with
    | .fldSet m y => if m = n then y else x
    | _ => x) ((fldOf s n).next.getD (fldOf s n).cfg)

/-- The settings of a port as an entry finds them: a change whose Move is not committed does not show (R63). -/
def seenFld (s : State) (n : Nat) : FldSet :=
  (s.jrn.sets.filter (fun x => sideCommit s x.move)).foldl (fun y x => x.writes.foldl (fun y w => match w with
    | .fldSet m z => if m = n then z else y
    | _ => y) y) ((fldOf s n).next.getD (fldOf s n).cfg)

/-- SETTINGS of a FLD_PORT_SET. -/
def fldSetOf (p : Packet) : FldSet := { role := par p 0x12 1, settings := BitVec.ofNat 224 (par p 0x14 28) }

def bodyFldPortSet : Body where
  check _ p _ s :=
    let r := (sideFld s (par p 0x10 2)).role
    fldFindings (fldSetOf p) ++ when (r != 0 && par p 0x12 1 != 0 && r != par p 0x12 1) (fStateAt 0x12)
  act _ p _ s := .done (pushSet [.fldSet (par p 0x10 2) (fldSetOf p)] s) 0 (sideFld s (par p 0x10 2) != fldSetOf p)

/-- FLD_PORT_SET. -/
def execFldPortSet (h : Host) (p : Packet) (s : State) : Out := .next (runAdmin csFldPortSet bodyFldPortSet h p (.data []) s)

/-! ### Signals (R320, R322) -/

/-- What a signal of a field port is. -/
inductive FldPin where
  | highZ
  | input
  /-- the transmitter's output -/
  | txd
  | level (high : Bool)
  deriving DecidableEq, Repr

/-- STB of a port: 0 in role 2 while it is not silenced, else 1; a port is silenced from its next frame boundary on (R322, R346). -/
def stbLevel (x : FldP) : Bool := !(x.cfg.role == 2 && !(x.silent && x.bus.isNone))

/-- NODE_COUNT of the BEACONs that a port sends: it is the PLCA coordinator, and not silenced (R328, R346). -/
def fldBeacon (x : FldP) : Option Nat :=
  if x.cfg.role = 1 && setAt x.cfg 0x0C 1 = 1 && setAt x.cfg 0x0D 1 = 0 && !x.silent then some (setAt x.cfg 0x0E 1) else none

/-- FLDnnn_A, FLDnnn_B and FLDnnn_C of a port (R320): at high impedance while the bank's VIOF is out of range (R506). In role 1 TXD is 0
while the part does not transmit (R321). -/
def fldPins (s : State) (n : Nat) : FldPin × FldPin × FldPin :=
  let x := fldOf s n
  if x.cfg.role = 0 || !viofOk s n then (.highZ, .highZ, .highZ)
  else if x.cfg.role = 1 then (if x.bus.isSome || (fldBeacon x).isSome then .txd else .level false, .input, .input)
  else (.txd, .input, .level (stbLevel x))

/-! ### Registers and the query -/

/-- LINK: in role 1 whether the PHY gives CLK now; in role 2 whether bus integration is done, which a frame, or the recovery from bus off,
shows. DESIGN CHOICE, log entry 28. -/
def fldLinkNow (s : State) (n : Nat) : Bool :=
  let x := fldOf s n
  if x.cfg.role = 0 || !viofOk s n then false
  else if x.cfg.role = 1 then Config.fldLink n s.time.tick
  else !x.busOff && (x.link || Config.fldLink n s.time.tick)

/-- FLD_PORT_STAT. -/
def fldStatReg (s : State) (n : Nat) : Nat :=
  let x := fldOf s n
  fieldAt (b2n (fldLinkNow s n)) 31 1 + fieldAt (b2n x.busOff) 30 1 + fieldAt (b2n x.passive) 29 1 + fieldAt (b2n x.plcaOk) 28 1
    + fieldAt x.txq.length 0 5

/-- FLD_PORT_ERR. -/
def fldErrReg (s : State) (n : Nat) : Nat := fieldAt (fldOf s n).tec 16 9 + fieldAt (fldOf s n).recErr 0 9

/-- FLD_PORT_CFG. -/
def fldCfgReg (s : State) (n : Nat) : Nat := fieldAt (fldOf s n).cfg.role 30 2

/-- The newest receive image of a port. -/
def rxImage (x : FldP) : List Byte := padTo ((x.images.head?.map (·.2)).getD []) 128

/-- A byte of the field window (R339). -/
def fldWindow (s : State) (a : Nat) : Nat :=
  let x := fldOf s (a / 256)
  if a % 256 < 128 then byteAt (rxImage x) (a % 256) else byteAt (padTo x.txImage 128) (a % 256 - 128)

def bodyFldQuery : Body where
  act _ p _ s :=
    let n := par p 0x10 2
    .done s (fldCfgReg s n + fldStatReg s n * 2 ^ 32 + fldErrReg s n * 2 ^ 64) false

/-- FLD_QUERY. -/
def execFldQuery (h : Host) (p : Packet) (s : State) : Out := .next (runAdmin csFldQuery bodyFldQuery h p (.data []) s)

/-! ### The order of transmission (R328, R335) -/

/-- The place of a frame in CAN arbitration: the smaller wins. -/
def arbKey (f : FldFrame) : Nat :=
  let i := f.id.toNat
  let m := f.fmt.toNat % 4
  let rtr := b2n (bitN f.fmt.toNat 4)
  let k := if m != 2 && bitN i 29 then bitsN i 18 11 * 2 ^ 21 + 2 ^ 20 + 2 ^ 19 + bitsN i 0 18 * 2 + rtr
    else bitsN i 0 11 * 2 ^ 21 + rtr * 2 ^ 20
  k * 4 + m

/-- Index of the frame that a port sends next (R335). -/
def sendIdx (x : FldP) : Nat :=
  if x.cfg.role = 2 then
    let best := (x.txq.map (fun e => arbKey e.frame)).foldl min (2 ^ 64)
    x.txq.findIdx (fun e => arbKey e.frame == best)
  else 0

/-- Index of the frame on the bus, or of the one that goes there next. -/
def busIdx (x : FldP) : Nat :=
  match x.bus with
  | some b => x.txq.findIdx (fun e => e.num == b.num)
  | none => sendIdx x

/-- A frame as the controller sends it: in role 1 padded to 60 bytes, with its FCS (R266, R328, R344). -/
def fldWire (role : Nat) (f : FldFrame) : List Byte :=
  if role = 1 then padTo f.data 60 ++ fcsOf (padTo f.data 60) else f.data

/-- The port may begin a frame: it is not silenced, off the bus or restricted, its bank has its supply, and channel 5 runs
(R181, R329, R346). -/
def maySend (s : State) (n : Nat) (x : FldP) : Bool :=
  x.cfg.role != 0 && !x.silent && !x.busOff && viofOk s n && !(x.cfg.role == 2 && setBit x.cfg 0x0C 4) && !(chanOf s 5).halted

/-- The port's next frame goes on the bus where nothing stands against it: no frame on it, and no setting that waits for a frame
boundary (R327). DESIGN CHOICE, log entry 117. -/
def startField (n : Nat) (s : State) : State :=
  let x := fldOf s n
  if x.bus.isSome || x.rx.isSome || x.next.isSome || !maySend s n x then s
  else match x.txq[sendIdx x]? with
    | some f => putFld (fwStart 5 s) n { x with bus := some { num := f.num, wire := fldWire x.cfg.role f.frame, bytes := f.frame.data.length } }
    | none => s

/-- What a port had on the bus is over. -/
def leaveBus (n : Nat) (s : State) : State :=
  let x := fldOf s n
  match x.bus with
  | some b =>
    let s := putFld s n { x with bus := none }
    fwEnd 5 b.bytes (someSends s) s
  | none => s

/-! ### Settings on the bus (R327) -/

/-- Free the space of queued frames. -/
def txqBytes (l : List FldTx) : Nat := (l.map (fun x => x.frame.data.length)).sum

/-- A direct send that waits for a place on a port that goes to role 0 completes (R345). -/
def failDirect (n : Nat) (s : State) : State :=
  s.que.ops.foldl (fun s o =>
    if o.2.stage == .waitQueue && o.2.kind == .scatter && o.2.target == n then completeOp o.1 stState 0 0 noTs s else s) s

/-- The setting that waits on a port applies at a frame boundary. -/
def applyField (n : Nat) (s : State) : State :=
  let x := fldOf s n
  match x.next with
  | none => s
  | some y =>
    if x.rx.isSome || x.bus.isSome then s
    else
      let x := { x with cfg := y, next := none, link := false, busOff := false, passive := false
                        tec := 0, recErr := 0, csma := false, plcaOk := false
                        silent := s.glb.mode == 11 && bitN (setAt y 2 1) 2 && y.role != 0 }
      if y.role = 0 then
        failDirect n (fldCount n 10 x.txq.length (freeLater 32 (txqBytes x.txq) (putFld s n { x with txq := [] })))
      else startField n (putFld s n x)

/-- FIELD_SETTING_APPLY. -/
def execFieldSettingApply (n : FPort) (s : State) : Out := .next (applyField n.val s)

/-- Every field port goes to role 0 at its frame boundary (R434). -/
def fieldsOff (s : State) : State :=
  (s.fld.ports.map (·.1)).foldl (fun s n => applyField n (putFld s n { fldOf s n with next := some {} })) s

/-! ### Protocol events (R328, R329) -/

/-- A transmit error of the port takes TEC beyond 255 (R329). PRESUMED, log entry 27. -/
def errsOut (x : FldP) : Bool := decide (248 ≤ x.tec)

/-- The port goes bus off: its bus integration is lost, and its queue stands (R329, R347). -/
def goBusOff (n : Nat) (s : State) : State :=
  let x := fldOf s n
  raise evFldBusoff (fldCount n 11 1 (leaveBus n (putFld s n { x with busOff := true, link := false, tec := min 511 (x.tec + 8) })))

/-- CAN_BUS_OFF. -/
def execCanBusOff (n : FPort) (s : State) : Out :=
  let x := fldOf s n.val
  .next (if x.cfg.role == 2 && !x.busOff && errsOut x then goBusOff n.val s else s)

/-- BUSOFF_RECOVERY. -/
def execBusoffRecovery (n : FPort) (s : State) : Out :=
  let x := fldOf s n.val
  .next (if x.cfg.role == 2 && x.busOff && setBit x.cfg 0x0C 5 then
      startField n.val (putFld s n.val { x with busOff := false, link := true, passive := false, tec := 0, recErr := 0 })
    else s)

/-- The port runs PLCA as a follower. -/
def plcaFollower (x : FldP) : Bool := x.cfg.role == 1 && setAt x.cfg 0x0C 1 == 1 && setAt x.cfg 0x0D 1 != 0

/-- PLCA_BEACON_LOSS. -/
def execPlcaBeaconLoss (n : FPort) (s : State) : Out :=
  let x := fldOf s n.val
  .next (if plcaFollower x && !x.csma then raise evPlcaLost (putFld s n.val { x with csma := true, plcaOk := false }) else s)

/-- PLCA_BEACON_RETURN. -/
def execPlcaBeaconReturn (n : FPort) (nodeCount : Nat) (s : State) : Out :=
  let x := fldOf s n.val
  .next (if plcaFollower x then putFld s n.val { x with csma := false, plcaOk := true, beaconCount := nodeCount } else s)

/-- Error-passive from the two error counts. -/
def passiveOf (x : FldP) : FldP := { x with passive := decide (128 ≤ x.tec) || decide (128 ≤ x.recErr) }

/-! ### Reception (R330 to R334) -/

/-- FIELD_FRAME_RX_START: a frame of the port that had not won the bus is not sent, and is chosen anew (R335). -/
def execFieldFrameRxStart (n : FPort) (s : State) : Out :=
  let t := leaveBus n.val s
  let x := fldOf t n.val
  let k := if x.cfg.role = 2 then 2080 else 1536
  .next (if x.cfg.role == 0 || x.busOff || x.rx.isSome || !viofOk s n.val then s
    else if s.fld.held + k ≤ regFld s .fldBufCfg [] 0 16 * 1024 && k ≤ sharedFree s then
      let t := fwStart 4 (putFld t n.val { x with rx := some k, rxTs := tsNow s 0 })
      { t with fld := { t.fld with held := t.fld.held + k } }
    else raise evFldRxOvf (fldCount n.val 2 1 (putFld t n.val { x with rx := some 0 })))

/-- The role 1 filter passes a frame (R328). -/
def t1sPasses (x : FldP) (f : List Byte) : Bool :=
  leAt f 0 6 == setAt x.cfg 0x12 6 || isBroadcast f || (isGroup f && setBit x.cfg 0x18 1) || setBit x.cfg 0x18 0

/-- KEY of a received frame (R333). -/
def rxKey (x : FldP) (f : FldFrame) : Nat := if x.cfg.role = 1 then beAt f.data (typeOff f.data) 2 else f.id.toNat

/-- The format of a received frame is one that the port takes part in: Ethernet in role 1; in role 2 Classical CAN, FD with FD_EN and
XL with XL_EN (R329). Any other breaks the port's protocol. DEDUCED, log entry 118. -/
def fmtTaken (x : FldSet) (f : FldFrame) : Bool :=
  x.role == 1 || f.fmt.toNat % 4 == 0 || (f.fmt.toNat % 4 == 1 && setBit x 0x0C 0) || (f.fmt.toNat % 4 == 2 && setBit x 0x0C 1)

/-- The header fields of a received frame that its role and format have; the others are 0 (R331). -/
def asReceived (role : Nat) (f : FldFrame) : FldFrame :=
  let m := f.fmt.toNat % 4
  let i := f.id.toNat
  let flag := fun k (on : Bool) => if on && bitN f.fmt.toNat k then 2 ^ k else 0
  if role = 1 then { f with id := 0, af := 0, fmt := 3 }
  else { f with
    id := w32 (if m = 2 then i % 2 ^ 27 else if bitN i 29 then i % 2 ^ 30 else i % 2 ^ 11)
    af := if m = 2 then f.af else 0
    fmt := BitVec.ofNat 8 (m + flag 2 (m == 1) + flag 3 (m == 1) + flag 4 (m == 0) + flag 5 (m == 2)) }

/-- The 16-byte header of R331. -/
def fldHeader (f : FldFrame) (time stat : Nat) : List Byte :=
  leBytes f.id.toNat 4 ++ leBytes f.af.toNat 4 ++ leBytes time 4 ++ leBytes f.data.length 2 ++ [f.fmt] ++ leBytes stat 1

/-- A good frame that passes the filter: image and summary. `r` is its reservation. -/
def fieldGood (n r : Nat) (f : FldFrame) (s : State) : State :=
  let x := fldOf s n
  let hit := setBit x.cfg 2 0 && (rxKey x f ^^^ setAt x.cfg 4 4) &&& setAt x.cfg 8 4 == 0
  let upd := if hit then x.upd + 1 else x.upd
  let hd := fldHeader f (netNs s) (1 + (if 112 < f.data.length then 2 else 0) + 4 * upd.toNat)
  let (k, s) := draw s
  let x := { x with upd := upd, recErr := if 127 < x.recErr then 119 + Config.recAfter k % 9 else x.recErr - 1, link := true
                    images := if hit then ((netNs s, hd ++ padTo (f.data.take 112) 112) :: x.images).take 4 else x.images }
  let keep := bitsN (setAt x.cfg 0 2) 12 2 == 0 || (bitsN (setAt x.cfg 0 2) 12 2 == 1 && !hit)
  let size := 16 + f.data.length
  let s := fldCount n 5 (b2n hit) (fldCount n 0 1 s)
  if keep && nobodyHolds s then
    let s := putFld (fldCount n 2 1 s) n { passiveOf x with rx := none }
    { s with fld := { s.fld with held := s.fld.held - r } }
  else if keep then
    let s := record (.fldRx n hd) (putFld s n { passiveOf x with rx := none, sums := x.sums ++ [(hd ++ f.data, x.rxTs, stampNow s)] })
    { s with fld := { s.fld with held := s.fld.held + size - r } }
  else
    let s := putFld s n { passiveOf x with rx := none }
    { s with fld := { s.fld with held := s.fld.held - r } }

/-- A frame of reservation `r` that a port receives is dropped, counted in `c`. -/
def fieldDrop (n c r : Nat) (s : State) : State :=
  let y := fldOf s n
  let y := if c = 4 then passiveOf { y with recErr := min 511 (y.recErr + 1) } else y
  let s := fldCount n c 1 (putFld s n { y with rx := none })
  { s with fld := { s.fld with held := s.fld.held - r } }

/-- The counter of a frame that its bus ends early (R330). -/
def earlyCounter (x : FldP) : Nat := if x.cfg.role = 1 then 1 else 4

/-- A frame that its bus ends early is dropped and withdrawn from channel 4 (R186, R330). -/
def fieldAbort (n r : Nat) (s : State) : State :=
  let (k, s) := draw s
  let s := withdrawn 4 (min r (Config.fldResidue k)) (fieldDrop n (earlyCounter (fldOf s n)) r s)
  fwNext 4 (someReceives s) s

/-- A port loses its bus: what it sends stays queued, and what it receives ends early (R506). -/
def cutField (n : Nat) (s : State) : State :=
  let s := leaveBus n s
  let x := fldOf s n
  let s := putFld s n { x with link := false, rx := if x.rx = some 0 then none else x.rx }
  match storing x with
  | some r => if (chanOf s 4).halted then s else fieldAbort n r s
  | none => s

/-- A frame that its bus ends well, of reservation `r`. -/
def fieldEnd (n r : Nat) (f : FldFrame) (s : State) : State :=
  let x := fldOf s n
  if x.cfg.role = 1 && (f.data.length < 64 || 1522 < f.data.length) then fieldDrop n 1 r s
  else if x.cfg.role = 1 && !t1sPasses x f.data then fieldDrop n 3 r s
  else fieldGood n r (asReceived x.cfg.role f) s

/-- Channel 4 has moved a frame of `k` bytes: it goes on with others, and the port may send. -/
def fieldMoved (n k : Nat) (s : State) : State := startField n (fwEnd 4 k (someReceives s) s)

/-- FIELD_FRAME_RX_END: the frame waits in its FIFO while channel 4 is halted (R181). -/
def execFieldFrameRxEnd (n : FPort) (e : FldRxEnd) (s : State) : Out :=
  let x := fldOf s n.val
  .next (match x.rx with
    | none => s
    | some 0 => startField n.val (putFld s n.val { x with rx := none })
    | some r =>
      if (chanOf s 4).halted then s
      else if !viofOk s n.val then fieldAbort n.val r s
      else match e with
        | .error => startField n.val (fieldAbort n.val r s)
        | .filtered => fieldMoved n.val 0 (fieldDrop n.val 3 r s)
        | .good f =>
          if fmtTaken x.cfg f then fieldMoved n.val f.data.length (fieldEnd n.val r f s) else startField n.val (fieldAbort n.val r s))

/-! ### Transmit queues (R335 to R337) -/

/-- Legal LEN of a transmit frame by format. -/
def lenOk (fmt len : Nat) : Bool :=
  match fmt with
  | 0 => decide (len ≤ 8)
  | 1 => decide (len ≤ 8) || [12, 16, 20, 24, 32, 48, 64].contains len
  | 2 => decide (1 ≤ len) && decide (len ≤ 2048)
  | _ => decide (14 ≤ len) && decide (len ≤ 1514)

/-- A transmit header suits a port's settings (R337). -/
def txHeaderOk (x : FldSet) (f : FldFrame) (len : Nat) : Bool :=
  let m := f.fmt.toNat % 4
  let suits := if x.role = 1 then m == 3 else m != 3
  let enabled := (m != 1 || setBit x 0x0C 0) && (m != 2 || setBit x 0x0C 1)
  let rsv := if m = 2 then decide (2 ^ 27 ≤ f.id.toNat) else if m = 3 then f.id != 0 || f.af != 0
    else decide (2 ^ 30 ≤ f.id.toNat) || f.af != 0
  suits && enabled && (!bitN f.fmt.toNat 4 || m == 0) && !rsv && decide (f.fmt.toNat < 64) && lenOk m len

/-- The frame that a header and the bytes behind it spell: ID, AF, FMT, and `len` data bytes. -/
def frameOf (l : List Byte) (data : List Byte) : FldFrame :=
  { id := w32 (leAt l 0 4), af := w32 (leAt l 4 4), fmt := l.getD 14 0, data := data }

/-- REPLACE key of a frame. -/
def replaceKey (role : Nat) (f : FldFrame) : Nat × Nat :=
  if role = 1 then (leAt f.data 0 6, beAt f.data (typeOff f.data) 2) else (f.id.toNat, f.fmt.toNat % 4)

/-- Put a frame in place of the queued, unsent one with its key: the one on the bus, of number `sent`, is not replaced. -/
def replaceIn (role : Nat) (sent : Option W32) (f : FldTx) : List FldTx → Option (List FldTx)
  | [] => none
  | x :: xs => if replaceKey role x.frame = replaceKey role f.frame && some x.num != sent then some (f :: xs)
    else (replaceIn role sent f xs).map (x :: ·)

/-- The rim takes an enqueue. -/
def takeEnqueue (n : Nat) (f : FldTx) (s : State) : State :=
  let x := fldOf s n
  let x := { x with enq := f.num }
  if x.cfg.role = 0 then
    fldCount n 10 1 (freeLater 32 f.frame.data.length (putFld s n x))
  else
    match (if setBit x.cfg 2 1 then replaceIn x.cfg.role (x.bus.map (·.num)) f x.txq else none) with
    | some q =>
      freeLater 32 (txqBytes x.txq + f.frame.data.length - txqBytes q) (fldCount n 9 1 (putFld s n { x with txq := q }))
    | none => startField n (putFld s n { x with txq := x.txq ++ [f] })

/-- FIELD_ENQUEUE by a side: the rim takes the enqueue whose number follows the last one, from the side that may write to it
(R336, R23, R45). -/
def execFieldEnqueue (n : FPort) (num : W32) (s : State) (d : SideId := .white) : Out :=
  let x := fldOf s n.val
  .next (if !mayWrite d s then gatedWrite d s
    else if num == x.enq + 1 then
      match x.enqWait with
      | f :: r => if f.num = num then takeEnqueue n.val f (putFld s n.val { x with enqWait := r }) else s
      | [] => s
    else s)

/-- The active side gives a frame its enqueue number (R336). -/
def decideEnqueue (n : Nat) (f : FldFrame) (s : State) : State :=
  let x := fldOf s n
  let k := x.enqSide + 1
  { putFld s n { x with enqSide := k, enqWait := x.enqWait ++ [{ frame := f, num := k }] } with
    txHeld := s.txHeld + f.data.length }

/-- Places of a port's transmit queue are all taken, or spoken for. -/
def txqFull (s : State) (n : Nat) : Bool := decide (16 ≤ (fldOf s n).txq.length + (fldOf s n).enqWait.length)

/-- A frame of `len` data bytes finds a place in a port's queue, and room in the packet buffer. DESIGN CHOICE, log entry 98. -/
def txqTakes (s : State) (n len : Nat) : Bool := !txqFull s n && decide (len ≤ sharedFree s)

/-! ### Aggregation functions (R338, R339) -/

/-- A function. -/
def aggOf (s : State) (a : Nat) : Agg := tget {} s.fld.aggs a
/-- Store it. -/
def putAgg (s : State) (a : Nat) (x : Agg) : State := { s with fld := { s.fld with aggs := tput {} s.fld.aggs a x } }

/-- A function as a gather or scatter finds it: a load whose Move is not committed does not show (R63). -/
def seenAgg (s : State) (a : Nat) : Agg :=
  let x := aggOf s a
  match x.prev with
  | some (k, b, n) => if settled s (.agg a) then x else { x with kind := k, body := b, runCnt := n }
  | none => x

/-- The function stands as it was before an uncommitted load. -/
def agOld (s : State) (a : Nat) : Bool := (aggOf s a).prev.isSome && !settled s (.agg a)

def agSegs (l : List Byte) : Nat := byteAt l 2
def agHosts (l : List Byte) : Nat := byteAt l 3
def agHdrLen (l : List Byte) : Nat := byteAt l 5
def agFlow (l : List Byte) : Nat := leAt l 8 2
def agTarget (l : List Byte) : Nat := leAt l 0xA 2
def agSkip (l : List Byte) : Nat := leAt l 0x18 2
def sgElem (l : List Byte) (i : Nat) : Nat := leAt l (0x40 + 16 * i) 2
def sgNidx (l : List Byte) (i : Nat) : Nat := leAt l (0x42 + 16 * i) 2
def sgSwap (l : List Byte) (i : Nat) : Nat := byteAt l (0x44 + 16 * i)
def sgOff (l : List Byte) (i : Nat) : Nat := leAt l (0x48 + 16 * i) 4

/-- The elements of a function: window offset, size and swap, in order. -/
def agElems (l : List Byte) : List (Nat × Nat × Nat) :=
  (List.range (agSegs l)).flatMap (fun i => (List.range (sgNidx l i)).map (fun k => (leAt l (sgOff l i + 4 * k) 4, sgElem l i, sgSwap l i)))

/-- Bytes that a function's elements hold in all. -/
def agTotal (l : List Byte) : Nat := ((List.range (agSegs l)).map (fun i => sgElem l i * sgNidx l i)).sum

/-- Malformed: reserved and unused fields, areas past the end (R339). -/
def aggParam (l : List Byte) : Bool :=
  let k := byteAt l 0
  let z := fun off n => leAt l off n != 0
  let n := agSegs l
  decide (l.length < 64) || decide (3 < k) || decide (2 ≤ byteAt l 1) || decide (16 ≤ byteAt l 3) || z 0x1A 2 || z 0x20 32
    || (k == 0 && (z 1 15 || z 0x10 16))
    || (k == 1 && (z 0xA 2 || z 0xD 3 || z 0x10 10 || leAt l 0x1C 4 % 8 != 0
        || decide (l.length < leAt l 0x1C 4 + agHdrLen l)))
    || (k == 2 && (z 1 1 || z 4 9 || z 0x1C 4))
    || (k == 3 && (z 1 2 || z 4 6 || z 0xC 20))
    || ((k == 1 || k == 2) && (decide (l.length < 0x40 + 16 * n)
        || (List.range n).any (fun i => z (0x45 + 16 * i) 3 || z (0x4C + 16 * i) 4 || decide (4 < sgSwap l i)
            || sgOff l i % 4 != 0 || sgElem l i % swapUnit (sgSwap l i) != 0
            || decide (l.length < sgOff l i + 4 * sgNidx l i))))

/-- An element lies in one image of the kind. -/
def elemIn (kind off size : Nat) : Bool :=
  decide (off < 480 * 256) && (if kind = 1 then decide (off % 256 + size ≤ 128)
    else decide (128 ≤ off % 256) && decide (off % 256 + size ≤ 256))

/-- Outside a range (R339). -/
def aggRange (l : List Byte) : Bool :=
  let k := byteAt l 0
  let n := agSegs l
  ((k == 1 || k == 2) && (n == 0 || decide (16 < n)
      || (List.range n).any (fun i => sgElem l i == 0 || decide (128 < sgElem l i) || sgNidx l i == 0 || decide (480 < sgNidx l i))
      || (agElems l).any (fun e => !elemIn k e.1 e.2.1)))
  || (k == 1 && (decide (31 < byteAt l 4) || decide (agHdrLen l < 14) || decide (128 < agHdrLen l) || decide (1023 < leAt l 6 2)
      || decide (8191 < agFlow l) || decide (9212 < agHdrLen l + agTotal l)
      || (byteAt l 0xC != 0xFF && decide (agHdrLen l < byteAt l 0xC + 2))))
  || (k == 2 && ((byteAt l 0xD != 0xFF && decide (124 < byteAt l 0xD)) || decide (9216 < agSkip l)))
  || (k == 3 && decide (479 < agTarget l))

def bodyAggLoad : Body where
  check _ _ l _ := if l.isEmpty then [] else when (aggParam l) (fParam 0x18) ++ when (aggRange l) (fRange 0x18)
  act _ p l s :=
    let x := aggOf s (par p 0x10 2)
    .start s (.aggLoad (par p 0x10 2) l) (byteAt l 0 != 0 || x.kind != 0)

/-- FLD_AGG_LOAD. -/
def execFldAggLoad (h : Host) (p : Packet) (ib : ReadEnd) (s : State) : Out := .next (runAdmin csFldAggLoad bodyAggLoad h p ib s)

/-- The function is loaded or deleted as one change; a run in progress goes on (R339), and the function before stands until
the Move commits (R63). -/
def loadAgg (a : Nat) (l : List Byte) (s : State) : State :=
  let x := aggOf s a
  let old := fun (r : AggRun) => { r with old := true }
  touch (.agg a) (putAgg s a { kind := byteAt l 0, body := if byteAt l 0 = 0 then [] else l, building := x.building.map old,
                               scattered := x.scattered.map old,
                               prev := if agOld s a then x.prev else some (x.kind, x.body, x.runCnt) })

/-- The run counter after a run: one that began under an earlier load leaves it (R339, R340). -/
def runDone (r : AggRun) (x : Agg) : BitVec 16 := if r.old then x.runCnt else x.runCnt + 1

/-! ### Gathers (R340, R341) -/

/-- The image version of a port at a reference time: the newest at or before it. Before them all lies the image of zeros, while
it is among the four newest; else the oldest held is read (R334, R340). -/
def imageAt (x : FldP) (ref : Nat) : List Byte :=
  match x.images.find? (fun v => decide (v.1 ≤ ref)) with
  | some v => v.2
  | none => if x.images.length < 4 then [] else ((x.images.getLast?).map (·.2)).getD []

/-- The frame that a gather builds at a reference time. -/
def gatherBytes (s : State) (a : Agg) (ref : Nat) : List Byte :=
  let l := a.body
  let hdr := slice l (leAt l 0x1C 4) (agHdrLen l)
  let hdr := if byteAt l 0xC = 0xFF then hdr else patch hdr (byteAt l 0xC) (beBytes a.runCnt.toNat 2)
  hdr ++ (agElems l).flatMap (fun e =>
    swapped e.2.2 (slice (padTo (imageAt (fldOf s (e.1 / 256)) ref) 128) (e.1 % 256) e.2.1))

/-- Ports whose images a function touches. -/
def agPorts (l : List Byte) : List Nat := ((agElems l).map (fun e => e.1 / 256)).dedup

/-- The flow of a gather takes its frame: FLOW enabled, and the length within MAXLEN (R341). -/
def gatherFits (s : State) (l : List Byte) (bytes : List Byte) : Bool :=
  let f := flowOf s (agFlow l)
  f.en && !tooLong (portOf s f.port).maxlen bytes (rtagLen s (agFlow l))

/-- Faults of an AGG_BUILD with MODE 0 (R134, R135, R345). -/
def gatherFindings (h : Nat) (s : State) (e : List Byte) : List Finding :=
  let a := aggOf s (sqeAggId e)
  let l := a.body
  let f := flowOf s (agFlow l)
  let en := regVal s .queHostPorts [h]
  when (decide (255 < sqeAggId e)) (fRange 12)
  ++ (if a.kind = 0 || 255 < sqeAggId e then [fState]
      else
        when (!bitN (agHosts l) h) fDenied
        ++ (if a.kind = 1 then
            when (f.en && !bitN en f.port) fDenied
            ++ (match txEntry s (agFlow l) with
                | some x => when ((entRepl x).any (fun r => (flowOf s r).en && !bitN en (flowOf s r).port)) fDenied
                | none => [])
            ++ when (sqeFlow e != agFlow l || sqePort e != f.port || sqeTc e != f.tc || !f.en) fState
            ++ when (tooLong (portOf s f.port).maxlen (gatherBytes s a s.jrn.lastTime) (rtagLen s (agFlow l))) (fRange 12)
            ++ when (!someWindow s f.port f.tc (max 64 (agHdrLen l + agTotal l + 4 + rtagLen s (agFlow l))) (gateOf s f.port).fit)
                fWindow
          else [fState]))

/-- Bytes of the frame that a gather builds. -/
def agFrameLen (l : List Byte) : Nat := agHdrLen l + agTotal l

/-- No run of the function that an entry names is building, aggregation runs, channel 2 is not halted, and the packet buffer
has room for the frame (R181, R274, R346). -/
def aggReady (s : State) (x : Sq) : Bool :=
  s.glb.mode != 11 && !(chanOf s 2).halted && (match x.entries with
    | e :: _ => (aggOf s (sqeAggId e.bytes)).building.isNone
        && decide (agFrameLen (aggOf s (sqeAggId e.bytes)).body ≤ sharedFree s)
    | [] => true)

/-- AGG_BUILD_GATHER: channel 2 builds the frame; the operation is not in its flow queue until that ends. -/
def execAggBuildGather (h : Host) (q : QId) (t : OpTag) (s : State) : Out :=
  .next (startRow h q t (fun e => sqeType e == tyAgg && sqeMode e == 0) .gather (gatherFindings h.val) aggReady
    (fun t e s =>
      let i := sqeAggId e.bytes
      let a := aggOf s i
      let b := gatherBytes s a (max e.acceptNs s.jrn.lastTime)
      let s := updOp t (fun o => { o with held := b.length, stage := .waitQueue, count := (agPorts a.body).length })
        { fwStart 2 s with txHeld := s.txHeld + b.length }
      putAgg s i { a with building := some { bytes := b, flow := agFlow a.body, tag := some t } }) s)

/-- A triggered run of function `i` at a reference time. -/
def triggerRun (ref i : Nat) (s : State) : State :=
  let a := seenAgg s i
  if a.building.isSome then pushSet [.bump (ckey .fldAggOverrun [i] 0) 1, .raise evAggOverrun] s
  else
    let b := gatherBytes s a ref
    if gatherFits s a.body b then
      putAgg (fwStart 2 s) i { aggOf s i with building := some { bytes := b, flow := agFlow a.body, old := agOld s i } }
    else countS .fldAggFault [i] 0 1 s

/-- The function waits for a trigger of the port's entry. -/
def trigMatch (a : Agg) (p i : Nat) : Bool :=
  a.kind == 1 && bitN (byteAt a.body 1) 0 && byteAt a.body 4 == p && leAt a.body 6 2 == i

/-- The functions that a trigger of a port's entry names. -/
def trigAggs (s : State) (p i : Nat) : List Nat := (s.fld.aggs.map (·.1)).filter (fun a => trigMatch (seenAgg s a) p i)

/-- Channel 2 and the packet buffer take the frames that these functions build (R181, R274). -/
def trigRoom (s : State) (l : List Nat) : Bool :=
  !(chanOf s 2).halted && decide ((l.map (fun a => agFrameLen (seenAgg s a).body)).sum ≤ sharedFree s)

/-- GATHER_TRIGGER: the oldest trigger of the function's tape entry starts a run of each function that names the entry.
In Safe-Hold no gather runs (R346). -/
def execGatherTrigger (a : AggId) (s : State) : Out :=
  .next (if !consuming s then s
    else match takeFirst (fun t : Nat × Nat × Nat => trigMatch (seenAgg s a.val) t.1 t.2.1) s.jrn.triggers with
      | none => s
      | some (t, rest) =>
        let u := { s with jrn := { s.jrn with triggers := rest } }
        let l := trigAggs s t.1 t.2.1
        if s.glb.mode = 11 then u
        else if trigRoom s l then l.foldl (fun s i => triggerRun t.2.2 i s) u
        else s)

/-- GATHER_BUILD_END: the frame enters its flow queue. -/
def execGatherBuildEnd (a : AggId) (s : State) : Out :=
  let x := aggOf s a.val
  .next (match x.building with
    | none => s
    | some r =>
      if !dispatching s || (chanOf s 2).halted then s
      else
        let s := countS .fldAggRuns [a.val] 0 1 (putAgg s a.val { x with building := none, runCnt := runDone r x })
        let s := fwEnd 2 r.bytes.length (someBuilds s) s
        if (flowOf s r.flow).en then enterFlow r.flow .gather r.tag r.bytes s
        else match r.tag with
          | some t => failOp t stState s
          | none => s)

/-! ### Scatters and direct sends (R342 to R345) -/

/-- Write elements of a source into the transmit images. -/
def scatterWrite : List (Nat × Nat × Nat) → List Byte → State → State
  | [], _, s => s
  | (off, size, sw) :: es, src, s =>
    let n := off / 256
    let x := fldOf s n
    let img := patch (padTo x.txImage 128) (off % 256 - 128) (swapped sw (src.take size))
    scatterWrite es (src.drop size) (putFld s n { x with txImage := img })

/-- Free bytes past a transmit image. -/
def imageBytes : Nat → State → List Byte × State
  | 0, s => ([], s)
  | n + 1, s =>
    let (i, s) := draw s
    let (l, s) := imageBytes n s
    (Config.imageByte i :: l, s)

/-- A frame that R337 refuses is counted. -/
def badImage (n : Nat) (s : State) : State := pushSet [.bump (ckey .fldCnt [n, 8] 0) 1, .raise evFldTxBadimg] s

/-- Enqueue the frame of a port's transmit image; the Bool says that it was enqueued (R337, R343). -/
def enqueueImage (a n : Nat) (s : State) : State × Bool :=
  let x := fldOf s n
  let img := padTo x.txImage 128
  let len := leAt img 12 2
  let cfg := seenFld s n
  if cfg.role = 0 then (s, false)
  else if !txHeaderOk cfg (frameOf img []) len then (badImage n s, false)
  else if !txqTakes s n len then
    (raise evFldTxOvf (fldCount n 7 1 (count .fldAggQfull [a] 0 1 s)), false)
  else
    let (more, s) := imageBytes (len - 112) s
    (decideEnqueue n (frameOf img (slice img 16 (min len 112) ++ more)) s, true)

/-- Enqueue a run's frames in port order; how many went in. -/
def enqueueImages (a : Nat) : List Nat → State → State × Nat
  | [], s => (s, 0)
  | n :: ns, s =>
    let (s, b) := enqueueImage a n s
    let (s, k) := enqueueImages a ns s
    (s, k + b2n b)

/-- A scatter's elements stand: its frames are enqueued and it is done. -/
def scatterEnd (a : Nat) (s : State) : State :=
  let x := aggOf s a
  match x.scattered with
  | none => s
  | some r =>
    let s := countS .fldAggRuns [a] 0 1 (putAgg s a { x with scattered := none, runCnt := runDone r x })
    let (s, k) := enqueueImages a r.ports (fwEnd 3 (agTotal x.body) (someScatters s) s)
    match r.tag with
    | some t => completeOp t stOk 0 k noTs s
    | none => s

/-- SCATTER_WRITE_END. -/
def execScatterWriteEnd (a : AggId) (s : State) : Out :=
  .next (if dispatching s && !(chanOf s 3).halted then scatterEnd a.val s else s)

/-- A scatter runs on a source; one still writing ends first. -/
def scatterRun (a : Nat) (src : List Byte) (t : Option Nat) (s : State) : State :=
  let s := scatterEnd a s
  let x := seenAgg s a
  let s := scatterWrite (agElems x.body) (src.drop (agSkip x.body)) (fwStart 3 s)
  putAgg s a { aggOf s a with scattered := some { ports := (agPorts x.body).insertionSort (· ≤ ·), tag := t, old := agOld s a } }

/-- A port's settings refuse the direct frame that `b` spells (R337). -/
def directBad (x : FldSet) (b : List Byte) : Bool := decide (b.length < 16) || !txHeaderOk x (frameOf b []) (leAt b 12 2)

/-- A direct send takes a place of its queue where there is one, if the port's settings still take its frame (R337, R344, R345). -/
def directSend (a t : Nat) (s : State) : State :=
  match opOf s t with
  | none => s
  | some o =>
    if (seenFld s o.target).role = 0 then completeOp t stState 0 0 noTs s
    else if directBad (seenFld s o.target) o.payload then completeOp t stBadParam 0 0 noTs (badImage o.target s)
    else if !txqTakes s o.target (o.payload.length - 16) then putOp s t { o with stage := .waitQueue }
    else
      let s := decideEnqueue o.target (frameOf o.payload (o.payload.drop 16)) s
      let x := aggOf s a
      completeOp t stOk 0 1 noTs (countS .fldAggRuns [a] 0 1 (putAgg s a { x with runCnt := x.runCnt + 1 }))

/-- Direct sends that wait for a place go on in order of start. -/
def settleDirect (s : State) : State :=
  if dispatching s then
    ((s.que.ops.filter (fun o => o.2.stage == .waitQueue && o.2.kind == .scatter)).insertionSort (fun a b => a.2.order ≤ b.2.order)).foldl
      (fun s o => directSend o.2.flow o.1 s) s
  else s

/-- The fault of a direct header that R337 rejects (R345). -/
abbrev fHeader : Finding := fParam 0x10

/-- Faults of an AGG_BUILD with MODE 1 (R344, R345). -/
def scatterFindings (h : Nat) (src : ReadEnd) (s : State) (e : List Byte) : List Finding :=
  let a := aggOf s (sqeAggId e)
  let l := a.body
  let bytes := match src with | .data b => b | .fault _ => []
  when (decide (255 < sqeAggId e)) (fRange 12)
  ++ (if a.kind = 0 || 255 < sqeAggId e then [fState]
      else
        when (!bitN (agHosts l) h) fDenied
        ++ when ((a.kind == 2 || a.kind == 3) && (sqePort e != 0 || sqeTc e != 0 || sqeFlow e != 0 || sqeTsReq e)) (fParam 2)
        ++ (match a.kind with
            | 2 => when (sqeLen e != agSkip l + agTotal l) (fRange 0x18)
            | 3 => when ((seenFld s (agTarget l)).role == 0) fState
                ++ (match src with
                    | .data _ => when ((seenFld s (agTarget l)).role != 0 && directBad (seenFld s (agTarget l)) bytes) fHeader
                        ++ when (sqeLen e != 16 + leAt bytes 12 2) (fRange 0x18)
                    | .fault _ => [])
            | _ => [fState])
        ++ (match src with
            | .data _ => []
            | .fault .dataErr => [fIntegrity]
            | .fault _ => [fBusError]))

/-- A scatter or direct send may start: not in Safe-Hold, with channel 3 running and the source readable (R181, R346, R518). -/
def scatterReady (h : Nat) (s : State) (x : Sq) : Bool := s.glb.mode != 11 && !(chanOf s 3).halted && readReady h s x

/-- The AGG_BUILD with MODE 1 that starts is refused for `f`. -/
def scatterRefused (h : Host) (q : QId) (t : OpTag) (src : ReadEnd) (f : Finding) (s : State) : Option Taken :=
  let s := headNow h q s
  match startable s h.val q.val t.val with
  | none => none
  | some (x, e) =>
    let own := scatterFindings h.val src s e.bytes
    if e.fault.isNone && sqeType e.bytes == tyAgg && sqeMode e.bytes == 1 && scatterReady h.val s x && own.contains f
        && worst (sqeFindings e.bytes ++ portFindings s h.val e.bytes ++ own) == some f then some e
    else none

/-- The entry that starts is a direct send whose header R337 rejects: its port (R337). -/
def headerRefused (h : Host) (q : QId) (t : OpTag) (src : ReadEnd) (s : State) : Option Nat :=
  (scatterRefused h q t src fHeader s).map (fun e => agTarget (aggOf s (sqeAggId e.bytes)).body)

/-- The entry that starts is refused for the fault of its source's read, which halts channel 3 (R181). -/
def sourceFault (h : Host) (q : QId) (t : OpTag) (src : ReadEnd) (s v : State) : State :=
  match src with
  | .data _ => v
  | .fault e =>
    match scatterRefused h q t src (if e = .dataErr then fIntegrity else fBusError) s with
    | some x => pchError 3 (busCode e) (e == .writeErr) (BitVec.ofNat 64 (sqeAddr x.bytes)) 0 h.val v
    | none => v

/-- AGG_BUILD_SCATTER: `src` is what the read of ADDR gives. -/
def execAggBuildScatter (h : Host) (q : QId) (t : OpTag) (src : ReadEnd) (s : State) : Out :=
  let u := match headerRefused h q t src s with
    | some n => badImage n s
    | none => s
  .next (sourceFault h q t src s (startRow h q t (fun e => sqeType e == tyAgg && sqeMode e == 1) .scatter
    (scatterFindings h.val src) (scatterReady h.val)
    (fun t e s =>
      let i := sqeAggId e.bytes
      let a := aggOf s i
      let b := (match src with | .data b => b | .fault _ => []).take (sqeLen e.bytes)
      if a.kind = 2 then scatterRun i b (some t) (updOp t (fun o => { o with stage := .queued }) s)
      else directSend i t (updOp t (fun o => { o with payload := b, target := agTarget a.body, flow := i, held := 0 }) s)) u))

/-- The scatter that claims a frame of port `p` (R342). -/
def claimOf (s : State) (p : Nat) (f : List Byte) : Option (Nat × Agg) :=
  (s.fld.aggs.map (fun x => (x.1, seenAgg s x.1))).find? (fun x => x.2.kind == 2 && bitN (leAt x.2.body 0x10 4) p
    && beAt f (typeOff f) 2 == leAt x.2.body 0xE 2
    && (byteAt x.2.body 0xD == 0xFF || slice f (byteAt x.2.body 0xD) 4 == slice x.2.body 0x14 4))

/-- A claimed frame, without FCS, runs its scatter, or is too short (R342). In Safe-Hold it is dropped (R346). -/
def claimFrame (i : Nat) (a : Agg) (f : List Byte) (s : State) : State :=
  if f.length < agSkip a.body + agTotal a.body then pushSet [.bump (ckey .fldAggShort [i] 0) 1, .raise evAggShort] s
  else if s.glb.mode = 11 then s
  else scatterRun i f none s

/-! ### Transmission -/

/-- The frame on a port's bus, of index `i`, is gone: its space is free once this Move has committed. -/
def fieldSent (n c : Nat) (f : FldTx) (x : FldP) (s : State) : State :=
  settleDirect (startField n (freeLater 32 f.frame.data.length (fldCount n c 1 (leaveBus n (putFld s n (passiveOf x))))))

/-- FIELD_TX_END: the frame that the port sends ends well or fails (R328, R329, R335). A silenced port lets the frame on the bus
end (R346). PRESUMED, log entry 27. -/
def execFieldTxEnd (n : FPort) (ok : Bool) (s : State) : Out :=
  let x := fldOf s n.val
  .next (match x.txq[busIdx x]? with
    | none => s
    | some f =>
      if x.busOff || !viofOk s n.val || (x.bus.isNone && !maySend s n.val x) then s
      else
        let gone := { x with txq := x.txq.eraseIdx (busIdx x) }
        if ok then fieldSent n.val 6 f { gone with tec := x.tec - 1, link := true } s
        else if x.cfg.role = 1 then fieldSent n.val 10 f gone s
        else
          let s := fldCount n.val 4 1 s
          let tec := min 511 (x.tec + 8)
          if errsOut x then
            if setBit x.cfg 2 3 then goBusOff n.val (fieldSent n.val 10 f { gone with busOff := true } s) else goBusOff n.val s
          else if setBit x.cfg 2 3 then fieldSent n.val 10 f { gone with tec := tec } s
          else startField n.val (leaveBus n.val (putFld s n.val (passiveOf { x with tec := tec }))))

/-! ### Ends of what the privileged channels serve (R181, R186) -/

/-- The run on channel 2 or 3 ends without its effect: an entry completes with `status`, and a run that no entry asked for is
dropped. DESIGN CHOICE, log entry 64. -/
def failRun (c status : Nat) (s : State) : State :=
  let run := fun x : Agg => if c = 2 then x.building else x.scattered
  match s.fld.aggs.find? (fun a => (run a.2).isSome) with
  | none => s
  | some (i, x) =>
    let s := putAgg s i (if c = 2 then { x with building := none } else { x with scattered := none })
    match (run x).bind (·.tag) with
    | some t => failOp t status s
    | none => s

/-- The frame that channel 4 moves is abandoned: it is counted as one that its bus ended early (R330). -/
def abandonRx (s : State) : State :=
  match s.fld.ports.find? (fun x => (storing x.2).isSome) with
  | some (n, x) => fieldDrop n (earlyCounter x) ((storing x).getD 0) s
  | none => s

/-- The frame that channel 5 moves leaves the bus: it stays queued. -/
def abandonTx (s : State) : State :=
  match s.fld.ports.find? (fun x => x.2.bus.isSome) with
  | some (n, x) => putFld s n { x with bus := none }
  | none => s

/-- What a privileged channel serves ends with `status`. DESIGN CHOICE, log entry 64. -/
def endServed (c status : Nat) (s : State) : State :=
  if c = 2 || c = 3 then failRun c status s else if c = 4 then abandonRx s else if c = 5 then abandonTx s else s

/-- A request of an internal requester stands on a privileged channel: a gather or scatter that runs, a field frame being
received, a field frame that is sent or waits for it (R161, R186). DESIGN CHOICE, log entry 64. -/
def requestOn (s : State) (c : Nat) : Bool :=
  (chanBusy (chanOf s c) && decide (2 ≤ c) && decide (c ≤ 5)) || (c == 4 && s.fld.ports.any (fun x => x.2.rx.isSome))
    || (c == 5 && s.fld.ports.any (fun x => !x.2.txq.isEmpty))

/-- The bytes of the request that a withdrawal or a bus error on a channel ends. -/
def requested (s : State) (c : Nat) : Nat :=
  match c with
  | 2 => ((s.fld.aggs.findSome? (fun a => a.2.building)).map (·.bytes.length)).getD 0
  | 3 => ((s.fld.aggs.find? (fun a => a.2.scattered.isSome)).map (fun a => agTotal a.2.body)).getD 0
  | 4 => (s.fld.ports.findSome? (fun x => storing x.2)).getD 0
  | 5 => ((s.fld.ports.findSome? (fun x => x.2.bus)).map (·.bytes)).getD 2080
  | _ => 0

/-- DMA_WITHDRAW: an internal requester withdraws its request on a privileged channel: nothing more is issued for it, the channel
reports the residue, at most the bytes requested, what the requester did ends, and the channel serves the other requests (R186).
An AGG_BUILD whose run is withdrawn completes with ST_STATE. DESIGN CHOICE, log entry 135. -/
def execDmaWithdraw (c : Chan) (residue : Nat) (s : State) : Out :=
  .next (if dispatching s && decide (c.val < 8) && !(chanOf s c.val).halted && requestOn s c.val then
      let u := withdrawn c.val (min residue (requested s c.val)) (endServed c.val stState s)
      fwNext c.val (moreOn u c.val) u
    else s)

/-! ### Bus errors of the privileged channels (R181) -/

/-- DMA_BUS_ERROR_PRIVILEGED: the channel's operation ends, and the channel latches the fault and halts. -/
def execDmaBusErrorPrivileged (c : Chan) (e : BusErr) (addr : BitVec 64) (space : Fin 4) (h : Host) (s : State) : Out :=
  .next (if dispatching s && decide (c.val < 8) && !(chanOf s c.val).halted then
      pchError c.val (busCode e) (e == .writeErr) addr space.val (if space.val = 0 then h.val else 0)
        (endServed c.val (endStatusOf (busCode e)) s)
    else s)

end Sys2Proof.Machine
end

