-- ==== Sys2Proof/Machine/Fabric.lean ====
section
/-!
DEFINITION. Machine/Fabric.lean: neighbors, node IDs, topology, routes, the transit relay and the bypass outputs
(R409 to R433).
-/

namespace Sys2Proof.Machine

/-! ### Identity as the active side holds it -/

/-- EN, GIVEN, ID_STATE and NODE_ID with the sets that wait. -/
def fabNow (s : State) : Bool × Bool × Nat × Nat :=
  (waitingWrites s).foldl (fun x w => match w with
    | .fabEnable en given st id => (en, given, st, id)
    | _ => x) (s.fab.en, s.fab.given, s.fab.idState, s.fab.nodeId)

/-- The fabric function runs. -/
def fabRuns (s : State) : Bool := consuming s && (fabNow s).1

/-- The part takes a new ID state and ID; the topology message that tells it is due (R417). -/
def setId (st id : Nat) (s : State) : State :=
  let (en, given, _, _) := fabNow s
  pushSet [.fabEnable en given st id] { s with fab := { s.fab with topoDue := true } }

/-- Fabric ports whose link is up. -/
def fabLinks (s : State) : List Nat := (List.range 32).filter (fun p => fabPort s p && (portOf s p).link)

/-! ### Frames that the fabric function makes (R410, R412, R417) -/

/-- ID_WORD. -/
def idWord (given : Bool) (st id : Nat) : Nat := id % 4096 + (st % 4) * 4096 + b2n given * 16384

/-- A hello or topology frame without FCS. -/
def fabFrame (p type src : Nat) (payload : List Byte) : List Byte :=
  let len := max 64 (26 + payload.length + 4)
  beBytes 0x0300000088B5 6 ++ beBytes (Config.stationMac p).toNat 6 ++ beBytes 0x88B5 2
    ++ [BitVec.ofNat 8 (16 + type), 0] ++ beBytes 0 2 ++ beBytes src 2 ++ [0, 0] ++ beBytes len 2 ++ beBytes 0 2 ++ payload

/-- The hello of a port. -/
def helloFrame (s : State) (p : Nat) : List Byte :=
  let (_, given, st, id) := fabNow s
  fabFrame p 1 id (beBytes Config.uid.toNat 8 ++ beBytes (idWord given st id) 2 ++ beBytes p 1
    ++ beBytes (regFld s .fabCfg [] 16 8) 1 ++ beBytes s.fab.topoSeq.toNat 2 ++ beBytes 0 2
    ++ beBytes (tget {} s.fab.adjs p).uid.toNat 8)

/-- A topology message as a frame of a port. -/
def topoFrame (p : Nat) (m : TopoMsg) : List Byte :=
  fabFrame p 2 m.nodeId.toNat (beBytes m.uid.toNat 8 ++ beBytes (idWord m.given m.idState.toNat m.nodeId.toNat) 2
    ++ beBytes m.seq.toNat 2 ++ beBytes m.nbrs.length 1 ++ beBytes 0 3
    ++ m.nbrs.flatMap (fun w => beBytes (w.nbr.toNat + w.lport.toNat * 2 ^ 12 + w.nport.toNat * 2 ^ 17) 4))

/-- A frame of the fabric function enters CTL_FLOW of its port; without room in the packet buffer it is not sent (R274, R412). -/
def sendCtl (p : Nat) (bytes : List Byte) (s : State) : State :=
  let f := regFld s .fabPortCtl [p] 0 13
  if (flowOf s f).en && (flowOf s f).port == p && decide (bytes.length ≤ sharedFree s) then enterFlow f .control none bytes s else s

/-- Ports with an adjacency that is up and counts: fabric ports alone (R409, R413). -/
def adjPorts (s : State) : List (Nat × Adj) := s.fab.adjs.filter (fun a => a.2.up && fabPort s a.1)

/-- The part's own topology message. -/
def ownTopo (s : State) : TopoMsg :=
  let (_, given, st, id) := fabNow s
  { uid := Config.uid, nodeId := BitVec.ofNat 12 id, idState := BitVec.ofNat 2 st, given := given, seq := s.fab.topoSeq
    nbrs := (adjPorts s).map (fun a =>
      { nbr := a.2.nbr, lport := BitVec.ofNat 5 a.1, nport := a.2.nbrPort }) }

/-- HELLO_SEND: one hello on every fabric port whose link is up. -/
def execHelloSend (s : State) : Out :=
  .next (if fabRuns s then
      let s := { s with fab := { s.fab with idAge := s.fab.idAge + 1 } }
      (fabLinks s).foldl (fun s p => sendCtl p (helloFrame s p) s) s
    else s)

/-- TOPOLOGY_SEND: a new message on every fabric port. -/
def execTopologySend (s : State) : Out :=
  .next (if fabRuns s then
      let s := { s with fab := { s.fab with topoSeq := s.fab.topoSeq + 1, topoDue := false } }
      (fabLinks s).foldl (fun s p => sendCtl p (topoFrame p (ownTopo s)) s) s
    else s)

/-! ### Node IDs (R414 to R416) -/

/-- Messages of the database whose part holds an ID: ID_STATE is not none. -/
def dbParts (s : State) : List TopoMsg := s.fab.db.filter (fun m => m.idState != 0)

/-- IDs that the database holds. -/
def dbIds (s : State) : List Nat := ((dbParts s).map (fun m => m.nodeId.toNat)).dedup

/-- The next ID upward that the database does not hold. -/
def nextId (ids : List Nat) (id : Nat) : Nat → Nat
  | 0 => id
  | n + 1 => let i := (id + 1) % 4096; if ids.contains i then nextId ids i n else i

/-- Two given IDs clash: the part enters conflict, raises FAB_ID_CONFLICT and writes a record of severity Fault. -/
def enterConflict (uid : BitVec 64) (s : State) : State :=
  let (_, _, st, id) := fabNow s
  if st = 3 then s
  else
    let r : RecIn := { sev := 2, kind := 9, payload := leBytes id 8 ++ leBytes uid.toNat 8 }
    pushSet [.raise evIdConflict, .record r] (setId 3 id s)

/-- The part yields its ID. -/
def yieldId (s : State) : State :=
  let id := (fabNow s).2.2.2
  let s := { s with fab := { s.fab with idAge := 0 } }
  raiseS evIdChange (setId 1 (nextId (id :: dbIds s) id 4096) s)

/-- Another UID with this part's ID appears: the precedence table of R414. -/
def judgeId (uid : BitVec 64) (id : BitVec 12) (st : BitVec 2) (otherGiven : Bool) (s : State) : State :=
  let (_, given, own, mine) := fabNow s
  if uid = Config.uid || st = 0 || own = 0 || id.toNat != mine then s
  else if given then (if otherGiven then enterConflict uid s else s)
  else if otherGiven || uid < Config.uid then yieldId s
  else s

/-- The database no longer shows two UIDs for a conflicted ID (R415). -/
def endConflict (s : State) : State :=
  let (_, _, st, id) := fabNow s
  if st = 3 && !(dbIds s).contains id then setId 2 id s else s

/-- The route table as the active side holds it. -/
def routesNow (s : State) : Tab (BitVec 64) :=
  (waitingWrites s).foldl (fun x w => match w with
    | .routeTable t => t
    | _ => x) s.fab.routes

/-- The parts that hold an ID, this one first. -/
def allParts (s : State) : List TopoMsg := ownTopo s :: dbParts s

/-- Two UIDs claim the ID, or a part says that it is in conflict (R415). -/
def conflicted (s : State) (id : Nat) : Bool :=
  let l := (allParts s).filter (fun m => m.idState != 0 && m.nodeId.toNat == id)
  decide (2 ≤ l.length) || l.any (fun m => m.idState == 3)

/-- A route table without entries for conflicted IDs (R415). -/
def dropConflicted (s : State) (t : Tab (BitVec 64)) : Tab (BitVec 64) := t.filter (fun e => !conflicted s e.1)

/-- The entries of conflicted IDs are marked invalid, computed or loaded ones (R415, R421). -/
def markConflicts (s : State) : State :=
  let t := dropConflicted s (routesNow s)
  if t = routesNow s then s else pushSet [.routeTable t] s

/-- A side consumes a hello: the adjacency and the neighbor's ID (R413, R414). -/
def takeHello (p : Nat) (x : Hello) (s : State) : State :=
  if fabRuns s && fabPort s p && (portOf s p).link then
    let a := tget {} s.fab.adjs p
    let up := x.peerUid == Config.uid
    let b : Adj := { up := up, uid := x.uid, nbr := x.nodeId, idState := x.idState, nbrPort := x.port, interval := x.interval
                     heard := eventEl s }
    let s := { s with fab := { s.fab with adjs := tput {} s.fab.adjs p b } }
    let s := if a.up != up then raiseS evAdjChange { s with fab := { s.fab with topoDue := true } } else s
    markConflicts (judgeId x.uid x.nodeId x.idState x.given s)
  else s

/-- The hello that a payload holds (R412). -/
def helloOf (l : List Byte) : Hello :=
  let w := beAt l 8 2
  { uid := BitVec.ofNat 64 (beAt l 0 8), nodeId := BitVec.ofNat 12 w, idState := BitVec.ofNat 2 (w / 4096), given := bitN w 14
    port := BitVec.ofNat 5 (byteAt l 10), interval := byteAt l 11, topoSeq := BitVec.ofNat 16 (beAt l 12 2)
    peerUid := BitVec.ofNat 64 (beAt l 16 8) }

/-- The topology message that a payload holds (R417). -/
def topoOf (l : List Byte) : TopoMsg :=
  let w := beAt l 8 2
  let word := fun (k : Nat) =>
    let v := beAt l (16 + 4 * k) 4
    { nbr := BitVec.ofNat 12 v, lport := BitVec.ofNat 5 (v / 2 ^ 12), nport := BitVec.ofNat 5 (v / 2 ^ 17) : NbrWord }
  { uid := BitVec.ofNat 64 (beAt l 0 8), nodeId := BitVec.ofNat 12 w, idState := BitVec.ofNat 2 (w / 4096), given := bitN w 14
    seq := BitVec.ofNat 16 (beAt l 10 2), nbrs := (List.range (min 32 (byteAt l 12))).map word }

/-- What is received while no side consumes waits for its replay (R431). -/
def keepFab (x : FabIn) (s : State) : State :=
  if nobodyHolds s || !s.glb.porst then s else { s with fab := { s.fab with wait := s.fab.wait ++ [(x, stampNow s)] } }

/-- HELLO_RX. -/
def execHelloRx (p : Port) (x : Hello) (s : State) : Out :=
  .next (if consuming s then takeHello p.val x s else keepFab (.hello p.val x) s)

/-- ADJACENCY_TIMEOUT: three INTERVALs of 100 µs have passed without a hello (R413). -/
def execAdjacencyTimeout (p : Port) (s : State) : Out :=
  let a := tget {} s.fab.adjs p.val
  .next (if consuming s && decide (a.heard + 3 * a.interval * 100000 ≤ elapsed s) then adjLost p.val s else s)

/-- ID_CLAIM: the candidate becomes claimed (R414). -/
def execIdClaim (s : State) : Out :=
  let (_, given, st, id) := fabNow s
  .next (if fabRuns s && !given && st == 1 && decide (4 ≤ s.fab.idAge) && !(dbIds s).contains id then setId 2 id s else s)

/-! ### Topology (R416, R417) -/

/-- The IDs that the database and this part hold are at most 64; of more, the 64 lowest in the tentative and claimed states
stay (R416). -/
def trimDb (s : State) : State :=
  let (_, _, st, own) := fabNow s
  let mine := if st = 0 then [] else [own]
  if ((mine ++ dbIds s).dedup).length ≤ 64 then { s with fab := { s.fab with tooMany := false } }
  else
    let good := ((dbParts s).filter (fun m => m.idState != 3)).map (fun m => m.nodeId.toNat)
    let keep := ((((if st = 3 then [] else mine) ++ good).dedup).insertionSort (· ≤ ·)).take 64
    raiseS evTooMany { s with fab := { s.fab with
      tooMany := true, db := s.fab.db.filter (fun m => m.idState == 0 || (m.idState != 3 && keep.contains m.nodeId.toNat)) } }

/-- A message that no newer one of its origin has preceded enters the database. -/
def putTopo (m : TopoMsg) (s : State) : State :=
  { s with fab := { s.fab with db := s.fab.db.filter (fun x => x.uid != m.uid) ++ [m],
                               dbAt := s.fab.dbAt.filter (fun x => x.1 != m.uid) ++ [(m.uid, eventEl s)] } }

/-- The message is newer than the one held of its origin (R417). -/
def freshTopo (s : State) (m : TopoMsg) : Bool :=
  match s.fab.db.find? (fun x => x.uid == m.uid) with
  | some x => newer16 m.seq x.seq
  | none => true

/-- The message goes on to every fabric link but the one it came by (R417). -/
def floodTopo (p : Nat) (m : TopoMsg) (s : State) : State :=
  (fabLinks s).foldl (fun s q => if q = p then s else sendCtl q (topoFrame q m) s) s

/-- A side consumes a topology message: a newer one enters the database and floods on (R416, R417). -/
def takeTopo (p : Nat) (m : TopoMsg) (s : State) : State :=
  if fabRuns s && fabPort s p && m.uid != Config.uid then
    if freshTopo s m then
      markConflicts (endConflict (judgeId m.uid m.nodeId m.idState m.given (trimDb (floodTopo p m (putTopo m s)))))
    else s
  else s

/-- TOPOLOGY_RX. -/
def execTopologyRx (p : Port) (m : TopoMsg) (s : State) : Out :=
  .next (if consuming s then takeTopo p.val m s else keepFab (.topo p.val m) s)

/-- The hellos and topology messages that waited are consumed, each as of the time of its record (R431). -/
def consumeFab (s : State) : State :=
  if consuming s then
    s.fab.wait.foldl (fun s x => consumeAt x.2 (match x.1 with
      | .hello p y => takeHello p y
      | .topo p m => takeTopo p m) s) { s with fab := { s.fab with wait := [] } }
  else s

/-- Elapsed network time at the last new message of an origin. -/
def heardTopo (s : State) (uid : BitVec 64) : Nat := ((s.fab.dbAt.find? (fun x => x.1 == uid)).map (·.2)).getD 0

/-- TOPOLOGY_AGE_OUT: 350 ms after the origin's last new message (R417). -/
def execTopologyAgeOut (uid : BitVec 64) (s : State) : Out :=
  .next (if consuming s && decide (heardTopo s uid + 350000000 ≤ elapsed s) then
      endConflict { s with fab := { s.fab with db := s.fab.db.filter (fun x => x.uid != uid),
                                               dbAt := s.fab.dbAt.filter (fun x => x.1 != uid) } }
    else s)

/-! ### Routes (R418 to R422) -/

/-- Part `b` lists the link that part `a` lists as `w` (R418). -/
def bothList (a b : TopoMsg) (w : NbrWord) : Bool :=
  w.nbr == b.nodeId && b.nbrs.any (fun v => v.nbr == a.nodeId && v.lport == w.nport && v.nport == w.lport)

/-- Both parts list a link. -/
def linked (a b : TopoMsg) : Bool := a.nbrs.any (bothList a b)

/-- IDs within one more hop of a set. -/
def widen (db : List TopoMsg) (ids : List Nat) : List Nat :=
  ids ++ ((db.filter (fun m => !ids.contains m.nodeId.toNat
    && db.any (fun x => ids.contains x.nodeId.toNat && linked x m))).map (fun m => m.nodeId.toNat)).dedup

/-- Hops from `d` to `a`: `k` is the distance reached so far. -/
def hopsTo (db : List TopoMsg) (a : Nat) : List Nat → Nat → Nat → Option Nat
  | ids, k, 0 => if ids.contains a then some k else none
  | ids, k, n + 1 => if ids.contains a then some k else hopsTo db a (widen db ids) (k + 1) n

/-- The better of two next hops: fewer hops, then the lower node ID, then the lower local port. -/
def betterHop (x y : Nat × Nat × Nat) : Bool :=
  decide (x.1 < y.1) || (x.1 == y.1 && (decide (x.2.1 < y.2.1) || (x.2.1 == y.2.1 && decide (x.2.2 < y.2.2))))

/-- The primary next hop toward `d` from this part: hops, node ID and local port. -/
def primary (db : List TopoMsg) (own : TopoMsg) (d : Nat) : Option (Nat × Nat × Nat) :=
  own.nbrs.foldl (fun best w =>
    if db.any (fun m => bothList own m w) then
      match hopsTo (db.filter (fun m => m.nodeId != own.nodeId)) w.nbr.toNat [d] 0 63 with
      | none => best
      | some k =>
        let c := (k + 1, w.nbr.toNat, w.lport.toNat)
        match best with
        | none => some c
        | some b => if betterHop c b then some c else some b
    else best) none

/-- A route entry from its fields (R419). -/
def routeEntry (isLocal sec : Bool) (pri secPort tc dest priHops secHops : Nat) : BitVec 64 :=
  BitVec.ofNat 64 (1 + b2n isLocal * 2 + b2n sec * 4 + pri * 2 ^ 8 + secPort * 2 ^ 16 + tc * 2 ^ 24 + dest * 2 ^ 32 + priHops * 2 ^ 48
    + secHops * 2 ^ 56)

/-- Two parts of a database can reach each other. -/
def treeReaches (db : List TopoMsg) (a b : Nat) : Bool := (hopsTo db a [b] 0 63).isSome

/-- The database without a part. -/
def without (db : List TopoMsg) (v : Nat) : List TopoMsg := db.filter (fun m => m.nodeId.toNat != v)

/-- Links between two parts that both list. -/
def linksOf (db : List TopoMsg) (a b : Nat) : Nat :=
  ((db.filter (fun m => m.nodeId.toNat == a)).map (fun m =>
    (m.nbrs.filter (fun w => db.any (fun n => n.nodeId.toNat == b && bothList m n w))).length)).sum

/-- Two paths join the parts `a` and `d` that share no part except their ends: for parts with a link between them, a second link or
a way round it; for others, no single part whose loss parts them. A path and itself are no pair. DEDUCED, log entry 125. -/
def hasPair (db : List TopoMsg) (a d : Nat) : Bool :=
  let ids := db.map (fun m => m.nodeId.toNat)
  if linksOf db a d = 0 then treeReaches db a d && ids.all (fun v => v == a || v == d || treeReaches (without db v) a d)
  else decide (2 ≤ linksOf db a d)
    || ids.any (fun w => w != a && w != d && decide (1 ≤ linksOf db a w) && treeReaches (without db a) w d)

/-- The parts on the way from `a` up a tree to its root `d`, at most `n` of them. -/
def climb (tree : List (Nat × Nat)) (d : Nat) : Nat → Nat → Option (List Nat)
  | 0, a => if a = d then some [] else none
  | n + 1, a => if a = d then some []
    else match tree.find? (fun e => e.1 == a) with
      | some e => (climb tree d n e.2).map (e.2 :: ·)
      | none => none

/-- Every step of a way is a link that both ends list. -/
def alongLinks (db : List TopoMsg) : Nat → List Nat → Bool
  | _, [] => true
  | a, b :: r => decide (1 ≤ linksOf db a b) && alongLinks db b r

/-- The ways from `a` up the two trees share no part except their ends. -/
def waysPart (db : List TopoMsg) (x : SecPath) (a : Nat) : Bool :=
  match climb x.first x.dst 63 a, climb x.second x.dst 63 a with
  | some l, some m => alongLinks db a l && alongLinks db a m && l.dropLast.all (fun v => !m.dropLast.contains v)
      && (l != m || decide (2 ≤ linksOf db a x.dst))
  | _, _ => false

/-- The link of this part on a local port leads to part `w`. -/
def portLeads (db : List TopoMsg) (own : TopoMsg) (p w : Nat) : Bool :=
  own.nbrs.any (fun v => v.lport.toNat == p && db.any (fun m => m.nodeId.toNat == w && bothList own m v))

/-- The two trees serve every part that has a pair of ways to their root (R418). -/
def treesServe (db : List TopoMsg) (own : TopoMsg) (x : SecPath) : Bool :=
  db.all (fun m => m.nodeId.toNat == x.dst || !hasPair db m.nodeId.toNat x.dst || waysPart db x m.nodeId.toNat)
  && (!hasPair db own.nodeId.toNat x.dst
      || (match x.second.find? (fun e => e.1 == own.nodeId.toNat) with
          | some e => portLeads db own x.port e.2
          | none => false))

/-- The computation has trees for every destination to which some part has a pair of ways. -/
def treesGood (sec : List SecPath) (s : State) : Bool :=
  let db := allParts s
  (dbIds s).all (fun d => db.all (fun m => m.nodeId.toNat == d || !hasPair db m.nodeId.toNat d)
    || sec.any (fun x => x.dst == d && treesServe db (ownTopo s) x))

/-- The second path of this part to `d`: its port and hops. -/
def secondary (sec : List SecPath) (s : State) (d : Nat) : Option (Nat × Nat) :=
  let own := (ownTopo s).nodeId.toNat
  if hasPair (allParts s) own d then
    match sec.find? (fun x => x.dst == d && treesServe (allParts s) (ownTopo s) x) with
    | some x => (climb x.second d 63 own).map (fun l => (x.port, l.length))
    | none => none
  else none

/-- This part is one of the 64 that the database keeps (R416). -/
def ownKept (s : State) : Bool :=
  let own := (ownTopo s).nodeId.toNat
  !s.fab.tooMany || ((fabNow s).2.2.1 != 3 && (((own :: dbIds s).dedup.insertionSort (· ≤ ·)).take 64).contains own)

/-- The computed table: primaries from the database, secondaries from the trees that the computation chose (R418). -/
def computeRoutes (sec : List SecPath) (s : State) : Tab (BitVec 64) :=
  let own := ownTopo s
  let tc := regFld s .fabCfg [] 2 3
  let t := (dbIds s).foldl (fun t d =>
    if d = own.nodeId.toNat then t
    else match primary (allParts s) own d with
      | none => t
      | some (k, _, p) =>
        let e := match secondary sec s d with
          | some (q, n) => routeEntry false true p q tc 0 k n
          | none => routeEntry false false p 0 tc 0 k 0
        if k ≤ 63 then tset t d e else t) ([] : Tab (BitVec 64))
  dropConflicted s (if own.idState = 0 || !ownKept s then t
    else tset t own.nodeId.toNat (routeEntry true false 0 0 tc (regFld s .fabLocal [] 0 12) 0 0))

/-- ROUTE_COMPUTE: the new table goes to the rim as one set. Which of the trees that R418 allows is the row's choice. DESIGN CHOICE,
log entry 56. -/
def execRouteCompute (sec : List SecPath) (s : State) : Out :=
  .next (if fabRuns s && regFld s .fabCfg [] 1 1 == 0 && treesGood sec s then pushSet [.routeTable (computeRoutes sec s)] s else s)

/-- The entries that a buffer holds, valid ones listed. -/
def routeEntries : Nat → Nat → List Byte → Tab (BitVec 64)
  | _, 0, _ => []
  | i, n + 1, l =>
    let e : BitVec 64 := BitVec.ofNat 64 (leAt l 0 8)
    if e = 0 then routeEntries (i + 1) n (l.drop 8) else (i, e) :: routeEntries (i + 1) n (l.drop 8)

/-- SEC_HOPS and PRI_HOPS of an entry. -/
def rtPriHops (e : BitVec 64) : Nat := bitsN e.toNat 48 8
def rtSecHops (e : BitVec 64) : Nat := bitsN e.toNat 56 8

/-- Faults of one loaded entry (R419, R422). -/
def routeFindings (s : State) (i : Nat) (e : BitVec 64) : List Finding :=
  let own := (fabNow s).2.2.2 == i && (fabNow s).2.2.1 != 0
  when (bitsN e.toNat 3 5 != 0 || bitsN e.toNat 27 5 != 0 || bitsN e.toNat 44 4 != 0 || (!rtLocal e && rtDest e != 0)
    || (!rtSec e && rtSecPort e != 0)) (fParam 0x18)
  ++ when (!rtSec e && rtSecHops e != 0) (fRange 0x18)
  ++ when (rtValid e && (decide (31 < rtPri e) || !fabPort s (rtPri e)
      || (rtSec e && (decide (31 < rtSecPort e) || !fabPort s (rtSecPort e)))
      || (if rtLocal e then rtPriHops e != 0 || rtDest e % 1024 == 0 else rtPriHops e == 0 || decide (63 < rtPriHops e))
      || (rtSec e && (rtSecHops e == 0 || decide (63 < rtSecHops e))))) (fRange 0x18)
  ++ when ((rtLocal e && !own) || (rtValid e && own && !rtLocal e)) (fStateAt 0x18)

def bodyRouteLoad : Body where
  check _ p l s :=
    when (ibLen p 0x18 != par p 0x10 2 * 8) (fParam 0x20)
    ++ (routeEntries 0 (l.length / 8) l).flatMap (fun e => routeFindings s e.1 e.2)
    ++ when (regFld s .fabCfg [] 1 1 == 0) fState
  act _ p l s := .start s (.routeLoad (routeEntries 0 (par p 0x10 2) l)) (routesNow s != routeEntries 0 (par p 0x10 2) l)

/-- FAB_ROUTE_LOAD. -/
def execFabRouteLoad (h : Host) (p : Packet) (ib : ReadEnd) (s : State) : Out := .next (runAdmin csRouteLoad bodyRouteLoad h p ib s)

/-- A fabric port's CTL_FLOW is disabled or attached to another port. -/
def ctlBad (s : State) : Bool :=
  (List.range 32).any (fun p => fabPort s p &&
    (let f := flowOf s (regFld s .fabPortCtl [p] 0 13); !f.en || f.port != p))

/-- The first candidate of a taken ID: CRC-32C of the UID bytes as a frame carries them (R414). DEDUCED, log entry 74. -/
def firstId : Nat := crc32c (beBytes Config.uid.toNat 8) % 4096

def bodyFabSet : Body where
  check _ p _ s :=
    when (par p 0x11 1 == 1 && par p 0x12 2 != 0) (fParam 0x12)
    ++ when (par p 0x10 1 == 1 && (regVal s .fabPorts [] == 0 || ctlBad s)) (fStateAt 0x10)
  act _ p _ s :=
    let en := par p 0x10 1 == 1
    let (given, st, id) := if par p 0x11 1 = 0 then (true, 2, par p 0x12 2) else (false, 1, firstId)
    .done (pushSet [.fabEnable en given st id] { s with fab := { s.fab with idAge := 0, topoDue := en } }) 0
      (fabNow s != (en, given, st, id))

/-- FAB_SET. -/
def execFabSet (h : Host) (p : Packet) (s : State) : Out := .next (runAdmin csFabSet bodyFabSet h p (.data []) s)

/-- FORCE of a pair as the active side holds it. -/
def forceNow (s : State) (k : Nat) : Bool :=
  (waitingWrites s).foldl (fun b w => match w with
    | .bypassForce j on => if j = k then on else b
    | _ => b) (s.fab.force.getLsbD k)

def bodyBypassSet : Body where
  act _ p _ s := .done (pushSet [.bypassForce (par p 0x10 1) (par p 0x11 1 == 1)] s) 0
    (forceNow s (par p 0x10 1) != (par p 0x11 1 == 1))

/-- FAB_BYPASS_SET. -/
def execFabBypassSet (h : Host) (p : Packet) (s : State) : Out := .next (runAdmin csBypassSet bodyBypassSet h p (.data []) s)

/-! ### Registers -/

/-- FAB_STATUS. -/
def fabStatusReg (s : State) : Nat :=
  fieldAt (b2n s.fab.en) 31 1 + fieldAt (b2n s.fab.given) 30 1 + fieldAt s.fab.idState 28 2 + fieldAt s.fab.nodeId 0 12

/-- FAB_TOPO_STAT: the part's own ID counts among those of the database. -/
def fabTopoReg (s : State) : Nat :=
  let own := if s.fab.idState = 0 then [] else [s.fab.nodeId]
  fieldAt (adjPorts s).length 8 6 + fieldAt (min 64 ((own ++ dbIds s).dedup).length) 0 7

/-- FAB_BYP_STAT. -/
def fabBypReg (s : State) : Nat := fieldAt s.fab.fail.toNat 16 8 + fieldAt s.fab.open_.toNat 0 8

/-- FAB_ADJ. -/
def fabAdjReg (s : State) (p : Nat) : Nat :=
  let a := tget {} s.fab.adjs p
  fieldAt (b2n (a.up && fabPort s p)) 31 1 + fieldAt a.idState.toNat 29 2 + fieldAt a.nbrPort.toNat 24 5 + fieldAt a.nbr.toNat 0 12

def bodyFabQuery : Body where
  act _ _ _ s := .done s (fabStatusReg s + fabTopoReg s * 2 ^ 32 + fabBypReg s * 2 ^ 64) false

/-- FAB_QUERY. -/
def execFabQuery (h : Host) (p : Packet) (s : State) : Out := .next (runAdmin csFabQuery bodyFabQuery h p (.data []) s)

/-! ### Rim writes -/

/-- The rim takes EN, GIVEN, ID_STATE and NODE_ID: for the frames that arrive from now on (R65, R72). -/
def rimFabEnable (en given : Bool) (st id : Nat) (s : State) : State :=
  let s := noteKeeps s
  bypDrive { s with fab := { s.fab with en := en, given := given, idState := st, nodeId := id } }

/-- The rim takes FORCE of a pair (R429). -/
def rimBypassForce (k : Nat) (on : Bool) (s : State) : State :=
  let b := BitVec.ofNat 8 (2 ^ k)
  bypDrive { s with fab := { s.fab with force := if on then s.fab.force ||| b else s.fab.force &&& ~~~b } }

/-! ### Bypass (R430) -/

/-- An insertion failed, or its links were lost for too long: the output goes low and a hold-off runs. -/
def bypFailed (k : Nat) (s : State) : State :=
  let b := BitVec.ofNat 8 (2 ^ k)
  if 3 ≤ s.glb.mode && s.glb.mode ≤ 10 && s.glb.mode != 7 && s.fab.open_.getLsbD k
      && !((portOf s (2 * k)).link && (portOf s (2 * k + 1)).link) then
    raise evBypFail (count .fabBypFailCnt [] 0 1 (bypDrive { s with fab := { s.fab with
      fail := s.fab.fail ||| b, holdoff := s.fab.holdoff ||| b, open_ := s.fab.open_ &&& ~~~b } }))
  else s

/-- BYPASS_INSERT_TIMEOUT. -/
def execBypassInsertTimeout (k : Fin 8) (s : State) : Out := .next (bypFailed k.val s)

/-- BYPASS_LINK_LOSS_TIMEOUT. -/
def execBypassLinkLossTimeout (k : Fin 8) (s : State) : Out := .next (bypFailed k.val s)

/-- BYPASS_HOLDOFF_END. -/
def execBypassHoldoffEnd (k : Fin 8) (s : State) : Out :=
  .next (bypDrive { s with fab := { s.fab with holdoff := s.fab.holdoff &&& ~~~(BitVec.ofNat 8 (2 ^ k.val)) } })

/-! ### The transit relay (R423 to R426) -/

/-- EtherType 0x88B5 after the tags and any R-TAG (R410). -/
def isFabric (f : List Byte) : Bool := beAt f (l3Type f) 2 == 0x88B5

/-- Version, TYPE and reserved bits of a fabric header are good (R410). -/
def fabHeaderOk (f : List Byte) : Bool :=
  let o := fabOff f
  byteAt f o / 16 == 1 && decide (byteAt f o % 16 ≤ 2) && decide (byteAt f (o + 1) ≤ 1) && decide (beAt f (o + 2) 2 < 4096)
    && decide (beAt f (o + 4) 2 < 4096) && byteAt f (o + 7) == 0

/-- The relay examines a frame of a fabric port: a fabric header of TYPE 0. -/
def isTransit (s : State) (p : Nat) (f : List Byte) : Bool := fabPort s p && isFabData f

/-- What the relay makes of a good frame. -/
inductive RelayEnd where
  | deliver
  | hops
  | noRoute
  | egress (p : Nat) (fallback : Bool)
  deriving DecidableEq, Repr

/-- The table of R423; a port that is no fabric port relays nothing (R409). DEDUCED, log entry 69. -/
def relayEnd (s : State) (f : List Byte) : RelayEnd :=
  let o := fabOff f
  let d := beAt f (o + 2) 2 % 4096
  let r := routeOf s d
  if !fabHeaderOk f then .noRoute
  else if d = s.fab.nodeId && (s.fab.idState == 1 || s.fab.idState == 2) then .deliver
  else if byteAt f (o + 6) = 0 then .hops
  else if !rtValid r || rtLocal r then .noRoute
  else
    let (e, fallback) := if byteAt f (o + 1) = 1 then (if rtSec r then (rtSecPort r, false) else (rtPri r, true)) else (rtPri r, false)
    if fabPort s e then .egress e fallback else .noRoute

/-- The frame without FCS as it leaves: HOPS less one. -/
def relayBytes (f : List Byte) : List Byte :=
  let b := f.take (f.length - 4)
  patch b (fabOff f + 6) [BitVec.ofNat 8 (byteAt f (fabOff f + 6) - 1)]

/-- From `at_` to the close of class `t`'s window: the first close that has been noted since, or the one to come. -/
def closeAfter (s : State) (p t at_ : Nat) : Option Nat :=
  match ((gateOf s p).hist.filter (fun x => decide (at_ < x.1 * 1000) && !x.2.getLsbD t)).getLast? with
  | some x => some (x.1 * 1000 - at_)
  | none => (closeIn s p t).map (· + (elapsedPs s - at_))

/-- The first 64 bytes of the frame that port `p` receives had arrived: elapsed network time in ps. -/
def first64 (s : State) (p : Nat) : Nat := (portOf s p).rxEl * 1000 + 64 * bytePs (portOf s p).speed

/-- The relay cuts the frame through at `at_`: the conditions of R425. DEDUCED, log entry 131. -/
def cutsThrough (s : State) (p e tc at_ : Nat) (f : List Byte) : Bool :=
  let x := portOf s e
  let g := gateOf s e
  decide (64 ≤ f.length) && x.link && x.en && !x.txOff && !x.txLpi && !x.waking && g.wire.isNone && decide (g.freeAt ≤ at_)
    && (g.cut.isNone || !isPre s e tc) && decide (bytePs (portOf s p).speed ≤ bytePs x.speed)
    && (gatesAt s e (at_ / 1000)).getLsbD tc && admits s e tc (fabLen f) g.fit (closeAfter s e tc at_)
    && (tget [] g.relay tc).isEmpty

/-- A relayed frame of ingress port `p` as the egress port holds it; IDENT is the count before this frame (R109). DESIGN CHOICE,
log entry 104. -/
def relayed (p : Nat) (f : List Byte) (s : State) : Staged :=
  { src := 4, flow := p, bytes := relayBytes f, since := elapsed s
    ref := some (w32 (2 ^ 30 + p * 2 ^ 24 + tget 0 s.fab.relayNo p % 2 ^ 24)) }

/-- One more frame of ingress port `p` is relayed. -/
def countRelayed (p : Nat) (s : State) : State :=
  count .fabCntRelayed [p] 0 1 { s with fab := { s.fab with relayNo := tput 0 s.fab.relayNo p (tget 0 s.fab.relayNo p + 1) } }

/-- The class of a relayed frame. -/
def relayTc (s : State) (f : List Byte) : Nat := rtTc (routeOf s (beAt f (fabOff f + 2) 2 % 4096))

/-- When the relay begins to cut a frame of port `p` through, where it does (R423, R425). -/
def cutAt (s : State) (p : Nat) (f : List Byte) : Option Nat :=
  match relayEnd s f with
  | .egress e _ => if isTransit s p f && cutsThrough s p e (relayTc s f) (first64 s p) f then some (first64 s p) else none
  | _ => none

/-- A frame is cut through to egress port `e` from `at_` on; `bad` says that it is ended with the complement of its FCS (R425, R426). -/
def cutTo (p e tc at_ : Nat) (bad : Bool) (f : List Byte) (s : State) : State :=
  let x := relayed p f s
  let ahead : Int := (at_ : Int) - elapsedPs s + 8 * bytePs (portOf s e).speed
  let w : OnWire := { cls := tc, pre := isPre s e tc, item := x, wire := x.bytes, thru := true, startPs := at_, stomp := bad
                      stampPs := at_ + 8 * bytePs (portOf s e).speed
                      ts := portTs s (regFld s .timePortCorrEgr [e] 0 16) 0 ahead }
  count .fabCntCut [p] 0 1 (countRelayed p (putGate s e { gateOf s e with wire := some w }))

/-- A frame goes on an egress port's wire at once, from `cut` on, or to its lane; without a place in the lane, or room for it in the
packet buffer, it is dropped (R274, R425). -/
def relayTo (p e : Nat) (cut : Option Nat) (f : List Byte) (s : State) : State :=
  let tc := relayTc s f
  match cut with
  | some at_ => cutTo p e tc at_ false f s
  | none =>
    let q := tget [] (gateOf s e).relay tc
    if (portOf s e).link && decide (q.length < 8) && decide (f.length - 4 ≤ sharedFree s) then
      countRelayed p (putGate s e { gateOf s e with relay := tput [] (gateOf s e).relay tc (q ++ [relayed p f s]) })
    else count .fabCntDrop [p] 0 1 s

/-- The relay's handling of a good frame that it does not deliver. -/
def relayGood (p : Nat) (cut : Option Nat) (f : List Byte) (s : State) : State :=
  match relayEnd s f with
  | .deliver => s
  | .hops => count .fabCntHops [p] 0 1 s
  | .noRoute => count .fabCntNoroute [p] 0 1 s
  | .egress e fallback => relayTo p e cut f (if fallback then count .fabCntSecFallback [p] 0 1 s else s)

/-- A frame that was being cut through from `at_` on is stomped (R426). DEDUCED, log entry 74. -/
def relayStomp (p at_ : Nat) (f : List Byte) (s : State) : State :=
  match relayEnd s f with
  | .egress e fallback =>
    let s := if fallback then count .fabCntSecFallback [p] 0 1 s else s
    count .fabCntStomp [p] 0 1 (cutTo p e (relayTc s f) at_ true f s)
  | _ => s

/-- RELAY_HOLD_TIMEOUT: the head of a relay lane has waited longer than HOLD_US of elapsed network time (R425). -/
def execRelayHoldTimeout (p : Port) (t : Cls) (s : State) : Out :=
  let g := gateOf s p.val
  .next (match tget [] g.relay t.val with
    | x :: r =>
      if x.since + regFld s .fabRelayCfg [] 16 16 * 1000 < elapsed s then
        count .fabCntDrop [x.flow] 0 1 (putGate s p.val { g with relay := tput [] g.relay t.val r })
      else s
    | [] => s)

end Sys2Proof.Machine
end

