-- ==== Sys2Proof/Machine/Receive.lean ====
section
/-!
DEFINITION. Machine/Receive.lean: the end of a received frame, the transit relay's row, the classifier and delivery to
receive SQs (R138, R267 to R274, R298, R313, R332, R423, R424).
-/

namespace Sys2Proof.Machine

/-! ### Delivery to a receive SQ (R138, R273) -/

/-- A frame for SQ `q` of host `h` takes the oldest posted buffer; its write is ready now, and waits for a channel in that order
(R162). `source` is R147's SOURCE; `took` counts a frame that takes a buffer and `noQueue` one that finds no receive SQ; `use`
and `n` are the packet-buffer space that the frame holds. -/
def deliverRx (h q source : Nat) (bytes : List Byte) (ts : Ts) (errs : BitVec 4) (bad : Bool) (took noQueue : State → State)
    (use n : Nat) (s : State) : State :=
  match sqOf s h q with
  | some x =>
    if q = 0 || x.rx != some true then freeLater use n (noQueue s)
    else match x.posted with
      | [] => freeLater use n (raiseS (evRxNobuf h) (count .queSqRxnobuf [h, q] 0 1 s))
      | t :: r =>
        let s := putSq (took s) h q { x with posted := r }
        let k := s.que.orderNo
        updOp t (fun o => { o with stage := .waitChan, rxBytes := bytes, rxSource := BitVec.ofNat 16 source, rxErr := errs,
                                   rxBad := bad, ts := ts, held := n, order := k })
          { s with que := { s.que with orderNo := k + 1 } }
  | none => freeLater use n (noQueue s)

/-- The frame of a high-speed port goes to a receive SQ. -/
def deliverPort (p h q : Nat) (bytes : List Byte) (x : RxSum) (s : State) : State :=
  deliverRx h q p bytes x.ts x.errs x.bad (if x.bad then portCountS p 13 1 else id) (portCountS p 14 1) p x.bytes.length s

/-! ### The end of a received frame (R267 to R272, R274) -/

/-- The last four bytes of a frame are not its FCS (R268). -/
def fcsBad (l : List Byte) : Bool := l.drop (l.length - 4) != fcsOf (l.take (l.length - 4))

/-- FCS, RUNT, OVERSIZE and PHY of a frame (R147, R269). -/
def rxErrs (x : PortSt) (f : RxFacts) : BitVec 4 :=
  let l := f.bytes.length
  BitVec.ofNat 4 (b2n (fcsBad f.bytes) + 2 * b2n (decide (l < 64)) + 4 * b2n (decide (x.rxMax + 4 * tagCount f.bytes < l))
    + 8 * b2n f.phyErr)

/-- The counter of a bad frame: the first of PHY, runt, oversize and FCS (R269). -/
def badCounter (e : BitVec 4) : Nat :=
  if e.getLsbD 3 then 8 else if e.getLsbD 1 then 6 else if e.getLsbD 2 then 7 else 5

/-- The size bin of a good frame (R280). -/
def sizeBin (l : Nat) : Nat :=
  if l ≤ 64 then 16 else if l ≤ 127 then 17 else if l ≤ 255 then 18 else if l ≤ 511 then 19
  else if l ≤ 1023 then 20 else if l ≤ 1518 then 21 else 22

/-- Count a good frame (R280). -/
def countGood (p : Nat) (b : List Byte) (s : State) : State :=
  let s := portCount p 1 b.length (portCount p 0 1 s)
  let s := portCount p (if isBroadcast b then 4 else if isGroup b then 3 else 2) 1 s
  portCount p (sizeBin b.length) 1 s

/-- Bad frames of a port are delivered: BADFRAME_DELIVER and a BAD_SQ (R272). -/
def deliversBad (s : State) (p : Nat) : Bool := (portOf s p).bad && regFld s .portRxDefault [p] 16 10 != 0

/-- The reception ends: `keep` bytes of the reservation `r` stay held. -/
def endRx (p r keep : Nat) (s : State) : State :=
  rxPop p (putPort s p { portOf s p with held := (portOf s p).held - r + keep })

/-- The summary of a stored frame goes to both Scoresheets (R26, R390). -/
def summarize (p r : Nat) (errs : BitVec 4) (bad : Bool) (f : RxFacts) (s : State) : State :=
  if nobodyHolds s then endRx p r 0 (portCount p 11 1 s)
  else
  let b := f.bytes.take 16383
  let x := portOf s p
  let ts : Ts := if f.fragments = 0 then x.rxTs else { x.rxTs with tsf := x.rxTs.tsf ||| 4 }
  let y : RxSum := { bytes := b, len := b.length, ts := ts, el := x.rxEl, stamp := stampNow s, bad := bad, errs := if bad then errs else 0 }
  let s := endRx p r b.length s
  record (.rx p y) (putPort s p { portOf s p with sums := (portOf s p).sums ++ [y] })

/-- A bad frame ends (R269, R272, R274). -/
def badEnd (p r : Nat) (errs : BitVec 4) (f : RxFacts) (s : State) : State :=
  let stored := min f.bytes.length 16383
  if !deliversBad s p then endRx p r 0 (portCount p (badCounter errs) 1 s)
  else match reserve p (stored - r) s with
    | some s => summarize p r errs true f (putPort (portCount p (badCounter errs) 1 s) p
        { portOf s p with held := (portOf s p).held - (stored - r) })
    | none => endRx p r 0 (raise evPortRxOvf (portCount p 11 1 s))

/-- An address passes the filter of a port (R272 step 5). -/
def addrPasses (s : State) (p : Nat) (b : List Byte) : Bool :=
  let cfg := regVal s .portRxCfg [p]
  (portOf s p).filters.any (fun e => e.2.toNat == 2 ^ 48 + leAt b 0 6)
  || (isBroadcast b && bitN cfg 0) || (isGroup b && !isBroadcast b && bitN cfg 1) || bitN cfg 2

/-- Link-local destination 01-80-C2-00-00-0E. -/
def isLinkLocal (b : List Byte) : Bool := beAt b 0 6 == 0x0180C200000E

/-- A good frame that the relay leaves, through the steps of R272 that the rim takes; the type is read behind VLAN tags. DESIGN
CHOICE, log entry 112. -/
def goodEnd (p r : Nat) (f : RxFacts) (s : State) : State :=
  let b := f.bytes
  if beAt b (typeOff b) 2 = 0x8808 then endRx p r 0 (portCount p 10 1 s)
  else if isLinkLocal b then summarize p r 0 false f s
  else if isFabric b then
    if fabPort s p && fabHeaderOk b then summarize p r 0 false f s else endRx p r 0 (count .fabCntNoroute [p] 0 1 s)
  else if addrPasses s p b then summarize p r 0 false f s
  else endRx p r 0 (portCount p 9 1 s)

/-- The relay takes a good frame off the port's own path (R423). -/
def relayTakes (s : State) (p : Nat) (b : List Byte) : Bool := isTransit s p b && relayEnd s b != .deliver

/-- A frame that is being cut through ends with a bad FCS or a PHY error, or at a length other than LEN (R426). -/
def stomped (errs : BitVec 4) (b : List Byte) : Bool := errs.getLsbD 0 || errs.getLsbD 3 || b.length != fabLen b

/-- The end of a frame whose reservation is `r`. -/
def frameEnd (p r : Nat) (f : RxFacts) (s : State) : State :=
  let errs := rxErrs (portOf s p) f
  let s := portCount p 15 f.bytes.length s
  match cutAt s p f.bytes with
  | some at_ =>
    let s := endRx p r 0 (if errs = 0 then countGood p f.bytes s else portCount p (badCounter errs) 1 s)
    if stomped errs f.bytes then relayStomp p at_ f.bytes s else relayGood p (some at_) f.bytes s
  | none =>
    if errs != 0 then badEnd p r errs f s
    else
      let s := countGood p f.bytes s
      if relayTakes s p f.bytes then relayGood p none f.bytes (endRx p r 0 s) else goodEnd p r f s

/-- What the rim does with a frame, by the tables as they stood while it arrived (R65, R72). -/
def seen (p : Nat) (f : State → State) (s : State) : State :=
  match (portOf s p).keep with
  | none => f s
  | some _ =>
    let t := f (asSeen p s)
    let fab := { t.fab with routes := s.fab.routes, en := s.fab.en, given := s.fab.given, idState := s.fab.idState,
                            nodeId := s.fab.nodeId }
    putPort { t with fab := fab } p { portOf t p with filters := (portOf s p).filters }

/-- FEC corrections and fragment counts, then the frame unless its fragments broke Clause 99 (R247, R280). -/
def rxEnd (p : Nat) (f : RxFacts) (s : State) : State :=
  match (portOf s p).rx with
  | none => s
  | some r =>
    let s := if regFld s .portPcsCfg [p] 0 2 = 0 then s else portCount p 36 f.fecCorr s
    let s := count .gateCntSmdErr [p] 0 (b2n f.smdErr) (count .gateCntFragRx [p] 0 f.fragments s)
    if f.assyErr then endRx p r 0 (raise evMmAssyErr (count .gateCntAssyErr [p] 0 1 (portCount p 15 f.bytes.length s)))
    else if r = 0 then endRx p 0 0 (portCount p 15 f.bytes.length s)
    else seen p (frameEnd p r f) s

/-- PORT_FRAME_RX_END. -/
def execPortFrameRxEnd (p : Port) (f : RxFacts) (s : State) : Out := .next (rxEnd p.val f s)

/-- TRANSIT_RELAY: a data fabric frame has arrived on a fabric port. Whether it is cut through, State decides: the row's last operand is
not read. -/
def execTransitRelay (p : Port) (f : RxFacts) (_cut : Bool) (s : State) : Out :=
  .next (if isTransit s p.val f.bytes then rxEnd p.val f s else s)

/-! ### Classification (R272 step 6, R298, R313, R424) -/

/-- A frame without its R-TAG, with an FCS computed anew (R313). -/
def stripRtag (b : List Byte) : List Byte :=
  if (rtagOf b).isSome then
    let c := b.take (typeOff b) ++ (b.take (b.length - 4)).drop (typeOff b + 6)
    c ++ fcsOf c
  else b

/-- The receive SQ that claims a frame through the local route entry (R424): host and SQ. -/
def localRoute (s : State) (b : List Byte) : Option (Nat × Nat) :=
  let e := routeOf s (beAt b (fabOff b + 2) 2 % 4096)
  if isFabric b && rtValid e && rtLocal e then some (bitsN (rtDest e) 10 2, rtDest e % 1024) else none

/-- The claims of R272 step 6 other than a stream's own DEST: `out` is the frame as it would be written. -/
def claimRest (p : Nat) (out : List Byte) (x : RxSum) (s : State) : State :=
  match claimOf s p x.bytes with
  | some (i, a) => freeLater p x.bytes.length (claimFrame i a (x.bytes.take (x.bytes.length - 4)) s)
  | none =>
    let d := regVal s .portRxDefault [p]
    match localRoute s x.bytes with
    | some (h, q) => deliverPort p h q out x s
    | none =>
      if bitsN d 0 10 = 0 then freeLater p x.bytes.length (portCountS p 12 1 s)
      else deliverPort p (bitsN d 10 2) (bitsN d 0 10) out x s

/-- A good frame reaches the classifier. -/
def classify (p : Nat) (x : RxSum) (s : State) : State :=
  match identify (tableNow s) p x.bytes with
  | none => claimRest p x.bytes x s
  | some e =>
    let (s, pass) := streamPath e x s
    let out := if entFlag e 2 then stripRtag x.bytes else x.bytes
    if !pass then freeLater p x.bytes.length s
    else if ent e 0x3E 2 % 1024 = 0 then claimRest p out x s
    else deliverPort p (bitsN (ent e 0x3E 2) 10 2) (ent e 0x3E 2 % 1024) out x s

/-- A stored hello or topology message reaches the fabric function of the side (R412, R417, R431). -/
def takeCtl (p : Nat) (b : List Byte) (s : State) : State :=
  let l := b.drop (fabOff b + 12)
  if byteAt b (fabOff b) % 16 = 1 then takeHello p (helloOf l) s else takeTopo p (topoOf l) s

/-- The path of a frame from its summary. -/
def rxPath (p : Nat) (x : RxSum) (s : State) : State :=
  if x.bad then
    let d := regVal s .portRxDefault [p]
    if bitsN d 16 10 = 0 then freeLater p x.bytes.length s
    else deliverPort p (bitsN d 26 2) (bitsN d 16 10) x.bytes x s
  else if isLinkLocal x.bytes then freeLater p x.bytes.length s
  else if isFabric x.bytes && byteAt x.bytes (fabOff x.bytes) % 16 != 0 then freeLater p x.bytes.length (takeCtl p x.bytes s)
  else classify p x s

/-- RX_CLASSIFY: the active side consumes the oldest summary of the port, as of the time of its record (R383). A frame that a scatter claims waits while channel 3 is
halted (R181). -/
def execRxClassify (p : Port) (s : State) : Out :=
  .next (match (portOf s p.val).sums with
    | [] => s
    | x :: r =>
      if consuming s && !((chanOf s 3).halted && (claimOf s p.val x.bytes).isSome) then
        consumeAt x.stamp (rxPath p.val x) (putPort s p.val { portOf s p.val with sums := r })
      else s)

/-- FIELD_RX_DELIVER (R332): the oldest summary of a field port. -/
def execFieldRxDeliver (n : FPort) (s : State) : Out :=
  let x := fldOf s n.val
  .next (match x.sums with
    | [] => s
    | (b, ts, st) :: r =>
      if consuming s then
        let d := setAt x.cfg 0 2
        consumeAt st (deliverRx (bitsN d 10 2) (bitsN d 0 10) (0x100 + n.val) b ts 0 false id id 33 b.length)
          (putFld s n.val { x with sums := r })
      else s)

end Sys2Proof.Machine
end

