-- ==== Sys2Proof/Machine/TimeBase.lean ====
section
/-!
DEFINITION. Machine/TimeBase.lean: network time, steps and rates, PPS, the gPTP slots, transmit timestamp reads and the
commands of group 0x05 (R85 to R118).
-/

namespace Sys2Proof.Machine

/-! ### The tick (R85, R86, R89) -/

/-- Advance of one 2 ns tick in units of 2^-32 ns, and the residue that is carried (R85). DEDUCED, log entry 63. -/
def tickAdvance (t : Time) : Nat × Nat :=
  let n := (2 ^ 33 * 125 + t.adj * 2 ^ 14 + (t.residue : Int)).toNat
  (n / 125, n % 125)

/-- The voter's verdict on three copies: the majority and whether a copy differs; none where no two agree (R86). -/
def vote (a b c : BitVec 96) : Option (BitVec 96 × Bool) :=
  if a = b then some (a, b != c) else if a = c then some (a, true) else if b = c then some (b, true) else none

/-- Operating time counts each whole ms of reference time (R89). -/
def opTick (s : State) : State :=
  if s.time.tick % 500000 = 0 then { s with time := { s.time with optime := (s.time.optime + 1) % 2 ^ 48 } } else s

/-- An advance of `n` from `v` reaches a whole second (R103). -/
def reaches (v : BitVec 96) (n : Nat) : Bool := v.toNat / (1000000000 * 2 ^ 32) != (v.toNat + n) / (1000000000 * 2 ^ 32)

/-- TIME_TICK: `a`, `b` and `c` are the bits that upsets have inverted in the three copies since the last tick. -/
def execTimeTick (a b c : BitVec 96) (s : State) : Out :=
  .next (if !s.glb.porst then s
    else
      let t := s.time
      let (n, r) := tickAdvance t
      let inc := BitVec.ofNat 96 n
      let (ca, cb, cc) := (t.copyA ^^^ a, t.copyB ^^^ b, t.copyC ^^^ c)
      let next := { t with residue := r, elapsed := t.elapsed + inc, tick := t.tick + 1, ppsDue := false }
      match vote ca cb cc with
      | some (v, differs) =>
        let s := opTick { s with time := { next with copyA := v + inc, copyB := v + inc, copyC := v + inc, ppsDue := reaches v n } }
        if differs then raise evTmrFix (count .timeTmrCnt [] 0 1 s) else s
      | none =>
        let s := opTick { s with time := { next with copyA := ca + inc, copyB := cb + inc, copyC := cc + inc, tmrFail := true } }
        if t.tmrFail then s else enterSafe 3 true (setAlarm 1 (raise evTmrFail s)))

/-! ### Steps and rates (R96 to R104) -/

/-- The rim takes a step or a rate change from a set. -/
def rimTimeStep (off : Int) (s : State) : State := { s with time := { s.time with steps := s.time.steps ++ [off] } }
def rimTimeRate (adj : Int) (s : State) : State := { s with time := { s.time with rates := s.time.rates ++ [adj] } }

/-- The rim takes the PPS settings. -/
def rimPps (outEn inEn : Bool) (width : Nat) (s : State) : State :=
  { s with time := { s.time with ppsOut := outEn, ppsIn := inEn, ppsWidth := width } }

/-- The transmit timestamp of a frame that has begun is still to be captured, at its first bit after the start frame delimiter: it
takes the stepped time and the new epoch (R100, R105). -/
def restamp (s : State) (off : Int) (w : OnWire) : OnWire :=
  if elapsedPs s ≤ w.stampPs && w.ts.tsf.getLsbD 0 then
    { w with ts := { w.ts with ns := w.ts.ns + BitVec.ofInt 64 off, epoch := s.time.epoch } }
  else w

/-- One step: the three copies together, the epoch, its saved value, TIME_STEP_DONE and a TIME record (R98, R99, R390). -/
def applyStep (off : Int) (s : State) : State :=
  let t := s.time
  let d := BitVec.ofInt 96 (off * 2 ^ 32)
  let kept := if s.recd.fail0 && s.recd.fail1 then s.recd.epochSaved else t.epoch + 1
  let due := t.ppsDue || (voted s + d).toNat % (1000000000 * 2 ^ 32) == 0
  let t := { t with copyA := t.copyA + d, copyB := t.copyB + d, copyC := t.copyC + d, epoch := t.epoch + 1, ppsDue := due }
  let s := { s with time := t, recd := { s.recd with epochSaved := kept } }
  let s := { s with gate := s.gate.map (fun g => (g.1, { g.2 with wire := g.2.wire.map (restamp s off), cut := g.2.cut.map (restamp s off) })) }
  timeRecord .step (raise evStepDone s)

/-- One rate change. -/
def applyRate (adj : Int) (s : State) : State := timeRecord .step { s with time := { s.time with adj := adj } }

/-- STEP_APPLY: at a whole microsecond of reference time outside a Castling (R98, R104). Steps due together apply one after
another, and rates after them: DESIGN CHOICE, log entry 85. -/
def execStepApply (s : State) : Out :=
  .next (if s.sides.castling.isSome || s.time.tick % 500 != 0 then s
    else
      let t := s.time
      t.rates.foldl (fun s r => applyRate r s) (t.steps.foldl (fun s o => applyStep o s)
        { s with time := { t with steps := [], rates := [] } }))

/-! ### PPS (R103, R118) -/

/-- PPS_OUT_PULSE: network time has reached a whole second with this tick or step: PPS_OUT rises for WIDTH_US, which a later step
does not shorten. -/
def execPpsOutPulse (s : State) : Out :=
  let t := s.time
  .next (if t.ppsOut && t.ppsDue then
      { s with time := { t with ppsPulses := t.ppsPulses + 1, ppsDue := false, ppsUntil := t.tick + t.ppsWidth * 500 } }
    else s)

/-- The level of PPS_OUT. -/
def ppsOutHigh (s : State) : Bool := decide (s.time.tick < s.time.ppsUntil)

/-- PPS_IN_EDGE: a rising edge is captured. -/
def execPpsInEdge (s : State) : Out :=
  .next (if s.time.ppsIn then
      raise evPpsIn (count .timePpsInEpoch [] 31 1
        { s with time := { s.time with ppsCapture := BitVec.ofNat 64 (netNs s), ppsEpoch := s.time.epoch } })
    else s)

/-! ### Domain slots (R91, R92) -/

/-- A slot of the gPTP engine. -/
def slotOf (s : State) (k : Nat) : DomSlot := if k = 0 then s.ptp.slot0 else s.ptp.slot1

/-- Store it. -/
def putSlot (s : State) (k : Nat) (x : DomSlot) : State :=
  if k = 0 then { s with ptp := { s.ptp with slot0 := x } } else { s with ptp := { s.ptp with slot1 := x } }

/-- State of port `p` in slot `k` as it applies: 0 disabled, 1 master, 2 slave, 3 passive. -/
def ptpPortState (s : State) (p k : Nat) : Nat := tget 0 s.ptp.ports (p * 2 + k)

/-- A Sync interval of a slot: what was written to TIME_PTP_PORT and TIME_DOM_CFG applies (R117). -/
def syncInterval (k : Nat) (s : State) : State :=
  let ports := (List.range 32).foldl (fun t p => tput 0 t (p * 2 + k) (regFld s .timePtpPort [p] (8 * k) 2)) s.ptp.ports
  { s with ptp := { s.ptp with ports := ports, cfg := tset s.ptp.cfg k (regVal s .timeDomCfg [k]) } }

/-- TIME_DOM_CFG of a slot as it applies. -/
def domCfg (s : State) (k : Nat) : Nat := tget 0x30D000 s.ptp.cfg k

/-- Sync interval of a slot in ns, and its receipt timeout. -/
def syncNs (s : State) (k : Nat) : Nat :=
  let n := bitsN (domCfg s k) 12 4
  if n = 0 then 1000000000 else 1000000000 / 2 ^ (16 - n)
def receiptNs (s : State) (k : Nat) : Nat := bitsN (domCfg s k) 20 4 * syncNs s k

/-- A port of the slot is in the slave state. -/
def hasSlave (s : State) (k : Nat) : Bool := (List.range 32).any (fun p => ptpPortState s p k == 2)

/-- The state that role and ports give a slot; acquiring, locked and lost stay as they are. Role 1 with no slave port: off.
DESIGN CHOICE, log entry 83. -/
def baseState (s : State) (k : Nat) (x : DomSlot) : Nat :=
  if x.role = 0 then 0
  else if hasSlave s k then (if x.state = 0 || x.state = 4 then 1 else x.state)
  else if x.role = 2 then 4 else 0

/-- Locked, a grandmaster included (R92). -/
def slotLocked (x : DomSlot) : Bool := x.state == 2 || x.state == 4

/-- The selected slot is locked. -/
def selLocked (s : State) : Bool := slotLocked (slotOf s s.ptp.sel.val)

/-- PREF_SLOT. -/
def prefSlot (s : State) : Nat := regFld s .timeCfg [] 0 1

/-- SLEW_PPM in units of ADJ, and SLEW_MAX_NS. -/
def slewUnits (s : State) : Int := ((regFld s .timeCfg [] 8 8 * 65536 / 1000 : Nat) : Int)
def slewMax (s : State) : Nat := regFld s .timeCfg [] 16 16

/-- ADJ's limits (R85). -/
def clampAdj (a : Int) : Int := max (-65536) (min 65536 a)

/-- What the slew in progress adds to the rate (R94). -/
def slewPart (s : State) : Int :=
  if !s.ptp.slewing then 0 else if 0 < s.ptp.slewOff then slewUnits s else -slewUnits s

/-- The side decides a rate. -/
def decideRate (a : Int) (s : State) : State := pushSet [.timeRate (clampAdj a)] s

/-- ADJ as the active side holds it. -/
def sideRate (s : State) : Int :=
  (waitingWrites s).foldl (fun a w => match w with
    | .timeRate b => b
    | _ => a) ((s.time.rates.getLast?).getD s.time.adj)

/-- The rate without a slew's part. -/
def baseRate (s : State) : Int := if s.ptp.slewing then s.ptp.base else sideRate s

/-- A slew in progress ends here: its part leaves the rate. -/
def dropSlew (s : State) : State :=
  if s.ptp.slewing then decideRate s.ptp.base { s with ptp := { s.ptp with slewing := false, slewOff := 0 } } else s

/-- A slot takes over: TIME_DOMAIN_SWITCH, and its offset is slewed or stepped out, in place of an older slew (R94). -/
def domainSwitch (k : Nat) (s : State) : State :=
  let off := if (slotOf s k).state = 4 then 0 else (slotOf s k).offset
  let b := baseRate s
  let s := raiseS evDomainSwitch { s with ptp := { s.ptp with sel := Fin.ofNat 2 k } }
  if off != 0 && decide (off.natAbs ≤ slewMax s) then
    let s := { s with ptp := { s.ptp with slewing := true, slewOff := off, base := b } }
    decideRate (b + slewPart s) s
  else
    let s := dropSlew s
    if off = 0 then s else pushSet [.timeStep off] s

/-- The slot that R93 selects; a locked selected slot stays until PREF_SLOT_RETURN, and one that has stopped being locked beyond 1 µs
stays selected while it acquires, ahead of R93's order (R96). DESIGN CHOICE, log entry 134. -/
def chosenSlot (s : State) : Nat :=
  let f := prefSlot s
  let o := 1 - f
  if selLocked s then s.ptp.sel.val
  else if slotLocked (slotOf s f) then f
  else if slotLocked (slotOf s o) then o
  else if (slotOf s s.ptp.sel.val).regain then s.ptp.sel.val
  else if (slotOf s f).state = 1 then f
  else if (slotOf s o).state = 1 then o
  else s.ptp.sel.val

/-- Select a slot, and enter or leave holdover (R93 to R95). A slot that was only acquiring gives way to a locked one as a locked
one does: DESIGN CHOICE, log entry 84. -/
def reselect (s : State) : State :=
  let k := chosenSlot s
  let s := if k = s.ptp.sel.val then s
    else if slotLocked (slotOf s k) then domainSwitch k s
    else { s with ptp := { s.ptp with sel := Fin.ofNat 2 k } }
  let free := !slotLocked s.ptp.slot0 && !slotLocked s.ptp.slot1
  let t := { s with ptp := { s.ptp with holdover := free } }
  if free && !s.ptp.holdover then raiseS evHoldover t else t

/-- Time Acquisition ends when the selected slot is locked (R92, R443). A Castling that runs ends in the service mode. -/
def acquired (s : State) : State :=
  if selLocked s && (s.glb.mode == 4 || (s.glb.mode == 7 && s.glb.prev == 4)) then pushSet [.mode 5] s else s

/-- A slot in a new state: outside acquiring and locked its count toward lock starts anew, and the times at which it locked and
began to acquire are noted (R92, R94). -/
def atState (s : State) (x : DomSlot) (st : Nat) : DomSlot :=
  let y := { x with state := st }
  let y := if x.state != 0 && x.state != 4 || st != 1 then y else { y with good := 0, heard := eventEl s }
  let y := if st = 0 || st = 4 then { y with good := 0 } else y
  let y := { y with regain := y.regain && st == 1 }
  if slotLocked y && !slotLocked x then { y with lockedAt := eventEl s } else y

/-- A slot takes the state that its role and ports give it. -/
def settleSlot (k : Nat) (s : State) : State := putSlot s k (atState s (slotOf s k) (baseState s k (slotOf s k)))

/-- The engine settles after a change: states of both slots, selection, holdover, the end of Time Acquisition.
DEDUCED, log entry 20. -/
def settlePtp (s : State) : State := acquired (reselect (settleSlot 1 (settleSlot 0 s)))

/-- The selected slot stops being locked at an offset beyond 1 µs (R96). -/
def losing (k : Nat) (off : Int) (s : State) : Bool :=
  s.ptp.sel.val == k && (slotOf s k).state == 2 && decide (1000 < off.natAbs)

/-- A slot takes a measured offset (R92). -/
def measured (s : State) (x : DomSlot) (off rate : Int) : DomSlot :=
  let st := if x.state = 3 then 1 else x.state
  let st := if st = 2 && decide (1000 < off.natAbs) then 1 else st
  let good := if off.natAbs ≤ 100 then min 16 (x.good + 1) else 0
  atState s { x with offset := off, rate := rate, good := good, heard := eventEl s } (if st = 1 && good = 16 then 2 else st)

/-- The servo of the selected slot (R93, R96). -/
def servo (k : Nat) (off adj : Int) (s : State) : State :=
  let x := slotOf s k
  if s.ptp.sel.val != k || !(x.state == 1 || x.state == 2) then s
  else if (x.state == 1 && decide (1000 < off.natAbs)) || (!s.ptp.everSet && s.glb.mode == 4) then
    pushSet [.timeStep off] { s with ptp := { s.ptp with everSet := true } }
  else decideRate (adj + slewPart s) { s with ptp := { s.ptp with base := adj } }

/-- The servo of a slot takes one Sync interval. -/
def takeSync (f : SyncFacts) (s : State) : State :=
  let k := f.slot.val
  if (slotOf s k).role != 0 then
    let s := settleSlot k (syncInterval k s)
    if hasSlave s k then
      let x := measured s (slotOf s k) f.offset f.rate
      servo k f.offset f.adj (settlePtp (putSlot s k { x with regain := x.regain || losing k f.offset s }))
    else settlePtp s
  else s

/-- A received time-sync message is kept until a side consumes it (R113). -/
def keepPtp (x : PtpIn) (s : State) : State :=
  if nobodyHolds s then s else { s with ptp := { s.ptp with rxWait := s.ptp.rxWait ++ [(x, stampNow s)] } }

/-- SYNC_RX: the servo of a slot takes one Sync interval, in a Castling once its inputs are replayed (R113). -/
def execSyncRx (f : SyncFacts) (s : State) : Out := .next (if consuming s then takeSync f s else keepPtp (.sync f) s)

/-- SYNC_RECEIPT_TIMEOUT: a slot that acquires or is locked has heard no Sync for its receipt timeout (R92). -/
def execSyncReceiptTimeout (slot : Fin 2) (s : State) : Out :=
  let x := slotOf s slot.val
  .next (if consuming s && (x.state == 1 || x.state == 2) && decide (x.heard + receiptNs s slot.val ≤ elapsed s) then
      settlePtp (syncInterval slot.val (putSlot s slot.val { x with state := 3, good := 0 }))
    else s)

/-- SLEW_END: the offset has been removed. -/
def execSlewEnd (s : State) : Out := .next (if consuming s then dropSlew s else s)

/-- PREF_SLOT_RETURN: PREF_SLOT has been locked again for 1 s. -/
def execPrefSlotReturn (s : State) : Out :=
  let x := slotOf s (prefSlot s)
  .next (if consuming s && s.ptp.sel.val != prefSlot s && slotLocked x && decide (x.lockedAt + 1000000000 ≤ elapsed s) then
      acquired (domainSwitch (prefSlot s) s)
    else s)

/-! ### Messages of the gPTP engine (R91, R193) -/

/-- The engine sends on the ports of a slot that are in state `st`. -/
def sendPtp (ty k seq st : Nat) (s : State) : State :=
  (List.range 32).foldl (fun s p => if ptpPortState s p k = st then stagePtp p ty k seq none s else s) s

/-- An interval of `n` ns has elapsed since a message was last sent. DESIGN CHOICE, log entry 150: the first one waits for nothing. -/
def intervalPast (n : Nat) (sent : Option Nat) (s : State) : Bool :=
  match sent with
  | some t => decide (t + n ≤ elapsed s)
  | none => true

/-- The Pdelay_Req interval of a slot in ns (R91, R117). -/
def pdelayNs (s : State) (k : Nat) : Nat :=
  let v := bitsN (domCfg s k) 16 4
  if v < 8 then 1000000000 * 2 ^ v else 1000000000 / 2 ^ (16 - v)

/-- SYNC_TRANSMIT: the Sync interval of a slot has elapsed, and side `d` sends Sync on its master ports; each Follow_Up follows its
departure (R23, R91). -/
def execSyncTransmit (slot : Fin 2) (sequenceId : BitVec 16) (s : State) (d : SideId := .white) : Out :=
  .next (byGate d (fun s =>
    let x := slotOf s slot.val
    if consuming s && x.role != 0 && intervalPast (syncNs s slot.val) x.sentAt s then
      sendPtp 0 slot.val sequenceId.toNat 1
        (settlePtp (syncInterval slot.val (putSlot s slot.val { x with sentAt := some (elapsed s) })))
    else s) s)

/-- PDELAY_REQ_TRANSMIT, by side `d`: the request interval of the port has elapsed (R91). -/
def execPdelayReqTransmit (slot : Fin 2) (p : Port) (sequenceId : BitVec 16) (s : State) (d : SideId := .white) : Out :=
  .next (byGate d (fun s =>
    let x := delayOf s p.val slot.val
    if consuming s && (slotOf s slot.val).role != 0 && ptpPortState s p.val slot.val != 0
        && intervalPast (pdelayNs s slot.val) x.sentAt s then
      stagePtp p.val 2 slot.val sequenceId.toNat none (putDelay s p.val slot.val { x with sentAt := some (elapsed s) })
    else s) s)

/-- The reception time of a message on a port (R105). -/
def rxStamp (s : State) (p : Nat) : Ts := portTs s (regFld s .timePortCorrIng [p] 0 16) 0 0

/-- A response of the peer enters the exchange that its sequence ID names; the follow-up ends it with the link delay (R91). -/
def takeResponse (m : PtpMsg) (ts : Ts) (s : State) : State :=
  let x := delayOf s m.port.val m.slot.val
  if m.sequenceId.toNat != x.seq || x.t1.isNone then s
  else if m.messageType = 3 then
    putDelay s m.port.val m.slot.val { x with t2 := some m.time.toNat, t4 := some ts.ns.toNat }
  else match x.t1, x.t2, x.t4 with
    | some a, some b, some d =>
      putDelay s m.port.val m.slot.val { seq := x.seq, delay := some (((d : Int) - a - (m.time.toNat - b)) / 2) }
    | _, _, _ => s

/-- A side processes a peer-delay message that the rim received at `ts`. -/
def takePdelay (m : PtpMsg) (ts : Ts) (s : State) : State :=
  if (slotOf s m.slot.val).role != 0 && ptpPortState s m.port.val m.slot.val != 0 then
    if m.messageType = 2 then stagePtp m.port.val 3 m.slot.val m.sequenceId.toNat (some ts) s
    else if m.messageType = 3 || m.messageType = 10 then takeResponse m ts s
    else s
  else s

/-- PDELAY_RX: a Pdelay_Req is answered with the time of its reception; a response and its follow-up give the link delay. One that
comes in a Castling is stamped at once and processed in the replay (R113). -/
def execPdelayRx (m : PtpMsg) (s : State) : Out :=
  let ts := rxStamp s m.port.val
  .next (if consuming s then takePdelay m ts s else keepPtp (.pdelay m ts) s)

/-- The side consumes the time-sync messages that have waited, each as of the time of its record (R366). -/
def consumePtp (s : State) : State :=
  if consuming s then
    s.ptp.rxWait.foldl (fun s x => consumeAt x.2 (match x.1 with
      | .sync f => takeSync f
      | .pdelay m ts => takePdelay m ts) s) { s with ptp := { s.ptp with rxWait := [] } }
  else s

/-! ### Transmit timestamp queues (R110) -/

/-- A reader's number: 0 to 3 the hosts, 4 firmware (GLB_READER, R537). -/
def whoOf : Reader → Nat
  | .host h => h.val
  | .firmware => 4

/-- The data that a reader's read returned. -/
def putRead (r : Reader) (v : W32) (s : State) : State := { s with rdData := tput 0 s.rdData (whoOf r) v }

/-- Key of a reader's latch for the word at `addr`. -/
def latchKey (r : Reader) (addr : Nat) : Nat := whoOf r * 2 ^ 32 + addr

/-- Load a reader's latch. -/
def latchPut (r : Reader) (addr : Nat) (v : Nat) (s : State) : State := { s with latch := tput 0 s.latch (latchKey r addr) (w32 v) }

/-- TXTS_POP0: the named reader removes the oldest entry, and its own latch takes the rest of it; another reads 0 (R110, R116). -/
def txtsPop (r : Reader) (p : Nat) (s : State) : State × W32 :=
  if regFld s .timeTxtsCfg [p] 0 3 = whoOf r then
    let (s, e) := popTxts p s
    let s := latchPut r (regAddr .timeTxtsPop1 [p]) (e.ns.toNat / 2 ^ 32) s
    let s := latchPut r (regAddr .timeTxtsPop2 [p]) (e.epoch.toNat + e.tsf.toNat * 2 ^ 16) s
    (latchPut r (regAddr .timeTxtsPop3 [p]) e.ref.toNat s, w32 e.ns.toNat)
  else (s, 0)

/-- TXTS_POP0_READ. -/
def execTxtsPop0Read (r : Reader) (p : Port) (s : State) : Out :=
  .next (let (s, v) := txtsPop r p.val s; putRead r v s)

/-! ### Registers -/

/-- TIME_STATUS. HOLDOVER reads its reset value 0 until the time base's first tick. DEDUCED, log entry 31. -/
def timeStatusReg (s : State) : Nat :=
  fieldAt s.time.epoch.toNat 16 16 + fieldAt (b2n s.ptp.slewing) 3 1 + fieldAt (b2n (selLocked s)) 2 1
    + fieldAt (b2n (s.ptp.holdover && decide (0 < s.time.tick))) 1 1 + fieldAt s.ptp.sel.val 0 1

/-- TIME_DOM_STAT, TIME_DOM_OFFSET (saturating) and TIME_DOM_RATE: network time is the domain time of a grandmaster's slot
(R92). -/
def timeDomStatReg (s : State) (k : Nat) : Nat := fieldAt (slotOf s k).domain 8 8 + fieldAt (slotOf s k).state 0 3
def timeDomOffsetReg (s : State) (k : Nat) : Nat :=
  if (slotOf s k).state = 4 then 0 else twosN (max (-(2 ^ 31)) (min (2 ^ 31 - 1) (slotOf s k).offset)) 32
def timeDomRateReg (s : State) (k : Nat) : Nat :=
  if (slotOf s k).state = 4 then 0 else twosN (max (-(2 ^ 31)) (min (2 ^ 31 - 1) (slotOf s k).rate)) 32

/-- TIME_TXTS_STAT. -/
def timeTxtsStatReg (s : State) (p : Nat) : Nat :=
  fieldAt (b2n (txtsOf s p).ovf) 31 1 + fieldAt (txtsOf s p).entries.length 0 8

/-! ### Commands -/

/-- The servo owns the time base (R97). -/
def servoOwns (s : State) : Bool :=
  let x := slotOf s s.ptp.sel.val
  (hasSlave s s.ptp.sel.val && (x.state == 1 || x.state == 2)) || s.ptp.slewing

/-- A change of ROLE or DOMAIN starts the slot anew: unlocked, offset and rate 0. DESIGN CHOICE, log entry 103. -/
def bodyDomainSet : Body where
  act _ p _ s :=
    let k := par p 0x10 1
    let x : DomSlot := { domain := par p 0x11 1, role := par p 0x12 1 }
    if (slotOf s k).domain = x.domain && (slotOf s k).role = x.role then .done s 0 false
    else .done (settlePtp (putSlot s k x)) 0 true

/-- TIME_DOMAIN_SET. -/
def execTimeDomainSet (h : Host) (p : Packet) (s : State) : Out := .next (runAdmin csDomainSet bodyDomainSet h p (.data []) s)

/-- Network time as the active side holds it, with the steps that wait (R68, R97). -/
def sideNs (s : State) : Int :=
  (waitingWrites s).foldl (fun a w => match w with
    | .timeStep o => a + o
    | _ => a) ((cmdNs s : Int) + s.time.steps.sum)

def bodyTimeStep : Body where
  check _ p _ s :=
    let n := sideNs s + signedN (par p 0x10 8) 64
    when (servoOwns s) fState ++ when (decide (n < 0) || decide ((2 ^ 64 : Nat) ≤ n)) (fRange 0x10)
  act _ p _ s :=
    if par p 0x10 8 = 0 then .done s 0 false
    else .done (pushSet [.timeStep (signedN (par p 0x10 8) 64)] s) 0 true

/-- TIME_STEP. -/
def execTimeStep (h : Host) (p : Packet) (s : State) : Out := .next (runAdmin csTimeStep bodyTimeStep h p (.data []) s)

def bodyRateSet : Body where
  check _ p _ s :=
    when (servoOwns s) fState ++ when (decide (65536 < (signedN (par p 0x10 4) 32).natAbs)) (fRange 0x10)
  act _ p _ s := .done (pushSet [.timeRate (signedN (par p 0x10 4) 32)] s) 0 (sideRate s != signedN (par p 0x10 4) 32)

/-- TIME_RATE_SET. -/
def execTimeRateSet (h : Host) (p : Packet) (s : State) : Out := .next (runAdmin csRateSet bodyRateSet h p (.data []) s)

/-- The PPS settings as the active side holds them. -/
def sidePps (s : State) : Bool × Bool × Nat :=
  (waitingWrites s).foldl (fun x w => match w with
    | .pps o i u => (o, i, u)
    | _ => x) (s.time.ppsOut, s.time.ppsIn, s.time.ppsWidth)

def bodyPpsSet : Body where
  act _ p _ s := .done (pushSet [.pps (bitN (par p 0x10 1) 0) (bitN (par p 0x10 1) 1) (par p 0x12 2)] s) 0
    (sidePps s != (bitN (par p 0x10 1) 0, bitN (par p 0x10 1) 1, par p 0x12 2))

/-- TIME_PPS_SET. -/
def execTimePpsSet (h : Host) (p : Packet) (s : State) : Out := .next (runAdmin csPpsSet bodyPpsSet h p (.data []) s)

def bodyTimeQuery : Body where
  act _ _ _ s :=
    .done s (cmdNs s + (cmdEpoch s).toNat * 2 ^ 64 + (timeStatusReg s % 256) * 2 ^ 80
      + (s.ptp.slot0.state + s.ptp.slot1.state * 16) * 2 ^ 88) false

/-- TIME_QUERY. -/
def execTimeQuery (h : Host) (p : Packet) (s : State) : Out := .next (runAdmin csTimeQuery bodyTimeQuery h p (.data []) s)

end Sys2Proof.Machine
end

