-- ==== Sys2Proof/Machine/Recorder.lean ====
section
/-!
DEFINITION. Machine/Recorder.lean: the event recorder and the commands of group 0x08 (R79, R461 to R481), and the journal
summary (R403).
-/

namespace Sys2Proof.Machine

/-! ### Records and space (R461, R463, R467 to R470) -/

/-- Length of a record with its header. -/
def recLen (r : Rec) : Nat := 16 + r.payload.length

/-- Bytes of a list of records. -/
def recBytesOf (l : List Rec) : Nat := (l.map recLen).sum

/-- Records in the order of their numbers (R464). -/
def inSeq (l : List Rec) : List Rec := l.insertionSort (fun a b => !newer32 a.seq b.seq)

/-- Records that the recorder holds where it writes now, the queued ones counted (R469). -/
def recHeld (s : State) : List Rec := inSeq ((if s.recd.volatile then s.recd.ring else s.recd.store) ++ s.recd.queue)

/-- Every record that the recorder holds, in the store, the ring and the queue. -/
def allHeld (s : State) : List Rec := inSeq (s.recd.store ++ s.recd.ring ++ s.recd.queue)

/-- Capacity for records of ordinary kinds: bytes. -/
def recCap (s : State) : Nat := if s.recd.volatile then 65536 else 8318976

/-- Free space for records of ordinary kinds. -/
def recFree (s : State) : Nat := recCap s - recBytesOf ((recHeld s).filter (fun r => !r.kept))

/-- Kinds that use the kept space of R461. -/
def isKeptKind (k : Nat) : Bool := k == 0x0A || k == 0x0B

/-- Eligible for removal by a record of severity `sev` (R469). -/
def evictable (sev : Nat) (r : Rec) : Bool := r.sev != 3 && (sev == 3 || decide (r.sev ≤ sev))

/-- The walk of R469: sequence numbers to remove so that `need` bytes are free. -/
def walkOld (sev need : Nat) : List Rec → Nat → List W32 → Option (List W32)
  | l, free, acc =>
    if need ≤ free then some acc
    else match l with
      | [] => none
      | r :: rs => if evictable sev r then walkOld sev need rs (free + recLen r) (acc ++ [r.seq]) else walkOld sev need rs free acc

/-- Remove records by number, counting them. -/
def evict (l : List W32) (s : State) : State :=
  let keep := fun (r : Rec) => !l.contains r.seq
  count .recOverwritten [] 0 l.length { s with recd := { s.recd with
    store := if s.recd.volatile then s.recd.store else s.recd.store.filter keep
    ring := s.recd.ring.filter keep
    queue := s.recd.queue.filter keep } }

/-- The record enters the write queue: number, stamps (R464). -/
def keepRecord (r : RecIn) (kept : Bool) (s : State) : State :=
  let x : Rec := { seq := s.recd.nextSeq, pwr := w32 s.time.pwrCycles, optime := s.time.optime, sev := r.sev, kind := r.kind,
                   payload := r.payload, kept := kept }
  { s with recd := { s.recd with queue := s.recd.queue ++ [x], nextSeq := s.recd.nextSeq + 1 } }

/-- The write queue has room (R467, R468). -/
def queueRoom (s : State) (sev n : Nat) : Bool :=
  decide (recBytesOf s.recd.queue + n ≤ (if sev = 3 then 32768 else 28672))

/-- The rim takes or refuses a record (R468 to R470). -/
def takeRecord (r : RecIn) (s : State) : State :=
  let n := 16 + r.payload.length
  if !queueRoom s r.sev n then raise evRecRefused (count .recRefused [] 16 1 s)
  else if n ≤ recFree s then keepRecord r false s
  else if isKeptKind r.kind && !s.recd.volatile then keepRecord r true s
  else match walkOld r.sev n (recHeld s) (recFree s) [] with
    | some l => keepRecord r false (evict l s)
    | none => raise evRecRefused (count .recRefused [] 0 1 s)

/-- RECORD_TAKE: the oldest record offered; one that arrives during the rebuild is queued too (R464, R479). -/
def execRecordTake (s : State) : Out :=
  .next (match s.recd.offered with
    | [] => s
    | r :: rs => takeRecord r { s with recd := { s.recd with offered := rs } })

/-- The first queued record is written. -/
def writeFirst (s : State) : State :=
  match s.recd.queue with
  | [] => s
  | r :: rs =>
    if s.recd.volatile then { s with recd := { s.recd with queue := rs, ring := s.recd.ring ++ [r] } }
    else { s with recd := { s.recd with queue := rs, store := s.recd.store ++ [r] } }

/-- RECORD_WRITE_DONE: the first queued record is written to every working bank, or to the ring; not during the rebuild (R479).
`retries` of its read-backs failed and were written again, at most two in each bank (R477, R480). -/
def execRecordWriteDone (s : State) (retries : Fin 5 := 0) : Out :=
  .next (if !s.recd.ready || s.recd.queue.isEmpty then s
    else writeFirst (if s.recd.volatile then s else count .recBankStat [] 16 retries.val s))

/-! ### Banks (R477, R478) -/

/-- The BANK_FAIL record. -/
def bankRecord (b cause : Nat) (seq : W32) : RecIn :=
  { sev := 3, kind := 0x0A, payload := leBytes b 1 ++ leBytes cause 1 ++ [0, 0] ++ leBytes seq.toNat 4 }

/-- A bank is marked failed. -/
def markBank (b cause : Nat) (s : State) : State :=
  if b = 0 then { s with recd := { s.recd with fail0 := true, cause0 := cause } }
  else { s with recd := { s.recd with fail1 := true, cause1 := cause } }

/-- Writing goes to the volatile ring. -/
def goVolatile (s : State) : State := setAlarm 5 (raise evRecLost { s with recd := { s.recd with volatile := true } })

/-- The BANK_FAIL record of bank `b` goes ahead of what is queued, behind that of a lower bank (R477, R478). -/
def bankFirst (b : Nat) (x : Rec) : List Rec → List Rec
  | y :: l => if y.kind = 0x0A && byteAt y.payload 0 < b then y :: x :: l else x :: y :: l
  | [] => [x]

/-- The BANK_FAIL record is taken at once: it is the first one written after the failure (R477). -/
def takeBank (b cause : Nat) (seq : W32) (s : State) : State :=
  let t := takeRecord (bankRecord b cause seq) s
  match t.recd.queue.getLast? with
  | some x => if x.seq = s.recd.nextSeq then { t with recd := { t.recd with queue := bankFirst b x t.recd.queue.dropLast } } else t
  | none => t

/-- BANK_FAIL: the record whose write exposed the failure stands in the other bank, and the BANK_FAIL record follows it; where no bank
works any more it begins the volatile ring (R477, R478). -/
def execBankFail (b : Fin 2) (cause : Fin 5) (s : State) : Out :=
  .next (if cause.val = 0 || (if b.val = 0 then s.recd.fail0 else s.recd.fail1) then s
    else
      let seq := match s.recd.queue with
        | r :: _ => r.seq
        | [] => 0xFFFFFFFF
      let s := raise evBankFail (markBank b.val cause.val s)
      takeBank b.val cause.val seq (if s.recd.fail0 && s.recd.fail1 then goVolatile s else if s.recd.ready then writeFirst s else s))

/-! ### The rebuild (R478, R479, R90, R403) -/

/-- Bytes of a journal summary (R462). -/
def summaryBytes (x : Nat × List Nat × Bool) : List Byte :=
  leBytes x.1 4 ++ leBytes ((x.2.1.getD 0 0) % 2 ^ 18 + b2n x.2.2 * 2 ^ 23) 3 ++ leBytes ((x.2.1.getD 1 0) % 2 ^ 18) 3
    ++ leBytes ((x.2.1.getD 2 0) % 2 ^ 18) 3 ++ leBytes ((x.2.1.getD 3 0) % 2 ^ 18) 3

/-- Accepted work was lost: WORK_LOST and JRN_WORK_LOST (R403). Without a summary the record of a requested cold start holds zeros.
DEDUCED, log entry 123. -/
def checkLost (s : State) : State :=
  let x := s.jrn.summaries.head?.getD (0, [], false)
  if s.recd.asked || (x.2.1.any (fun n => n != 0) && !x.2.2) then
    let r : RecIn := { sev := 3, kind := 0x07, payload := summaryBytes x ++ leBytes (b2n s.recd.asked) 8 }
    raise evWorkLost (offer r { s with recd := { s.recd with asked := false } })
  else s

/-- Operating time of the newest record. -/
def newestOptime (s : State) : Nat := ((allHeld s).getLast?.map (·.optime)).getD 0

/-- A bank found bad at the rebuild. -/
def rebuildBank (b : Nat) (s : State) : State := takeBank b 3 0xFFFFFFFF (raise evBankFail (markBank b 3 s))

/-- No bank works: numbers, operating time, power cycles and epoch start from 0, and no earlier record and no summary can be read (R464,
R478). -/
def startAnew (s : State) : State :=
  goVolatile { s with time := { s.time with optime := 0, pwrCycles := 0, epoch := 0 }, glb := { s.glb with startBegan := 0 }
                      recd := { s.recd with nextSeq := 0, store := [], ring := [], queue := [] }, jrn := { s.jrn with summaries := [] } }

/-- A record that was queued during the rebuild is counted anew. DESIGN CHOICE, log entry 148. -/
def takeAnew (s : State) (r : Rec) : State := takeRecord { sev := r.sev, kind := r.kind, payload := r.payload } s

/-- A cold start has reached step `k`, which is the rim's, on both sides (R439, R459). -/
def rimStep (k : Nat) (s : State) : State :=
  let up := fun (r : SideRec) => { r with step := max k r.step }
  if s.glb.mode = 1 then { s with sides := { s.sides with white := up s.sides.white, black := up s.sides.black } } else s

/-- RECORDER_REBUILD_END: `bad0` and `bad1` are banks found bad in their system area or index (R477). -/
def execRecorderRebuildEnd (bad0 bad1 : Bool) (s : State) : Out :=
  .next (if s.recd.ready then s
    else
      let lost := (s.recd.fail0 || bad0) && (s.recd.fail1 || bad1)
      let queue := s.recd.queue
      let s := if lost then startAnew s else s
      let s := if bad0 && !s.recd.fail0 then rebuildBank 0 s else s
      let s := if bad1 && !s.recd.fail1 then rebuildBank 1 s else s
      let s := rimStep 2 { s with recd := { s.recd with ready := true } }
      let power := s.recd.powerUp
      let s :=
        if lost then queue.foldl takeAnew s
        else
          let s := clearAlarm 5 { s with recd := { s.recd with volatile := false } }
          if power.isSome then
            let t := max s.time.optimeSaved (newestOptime s) + 1
            { s with time := { s.time with optime := t }, glb := { s.glb with startBegan := s.glb.startBegan + t - s.time.optime } }
          else s
      let s := checkLost s
      match power with
      | some c =>
        let r : RecIn := { kind := 0x01, payload := leBytes c.toNat 4 ++ leBytes s.recd.store.length 4 }
        offer r { s with recd := { s.recd with powerUp := none } }
      | none => s)

/-- OPTIME_SAVE: once per second of operating time (R90). -/
def execOptimeSave (s : State) : Out :=
  .next (if s.recd.volatile || !s.glb.porst || !s.recd.ready || decide (s.time.optime < s.time.optimeSaved + 1000) then s
    else { s with time := { s.time with optimeSaved := s.time.optime } })

/-- Tags held by each host. -/
def hostTags (s : State) : List Nat := [0, 1, 2, 3].map (fun h => tagsHeld s h)

/-- Write a journal summary over the oldest of the 64 (R403). -/
def writeSummary (flushed : Bool) (s : State) : State :=
  if s.recd.volatile then s
  else { s with jrn := { s.jrn with summaries := ((s.jrn.committed.getD 0, hostTags s, flushed) :: s.jrn.summaries).take 64 } }

/-- A flush stands that no side has resumed from. -/
def flushStands (s : State) : Bool :=
  s.sides.holder.isNone && (match s.jrn.summaries with
    | x :: _ => x.2.2
    | [] => false)

/-- JOURNAL_SUMMARY_WRITE: once per ms of operating time. -/
def execJournalSummaryWrite (s : State) : Out := .next (if s.recd.ready then writeSummary (flushStands s) s else s)

/-! ### Reading (R471 to R473) -/

/-- A reader's index. -/
def readerNum : Reader → Nat
  | .host h => h.val
  | .firmware => 4

/-- One reader's registers. -/
def readerOf (s : State) (r : Reader) : RecReader := tget {} s.recd.readers (readerNum r)

/-- Store them. -/
def putReader (s : State) (r : Reader) (x : RecReader) : State :=
  { s with recd := { s.recd with readers := tput {} s.recd.readers (readerNum r) x } }

/-- The bytes of a record in a window. -/
def recBytes (r : Rec) : List Byte :=
  let size := if r.damaged then 0 else r.payload.length / 8
  leBytes r.seq.toNat 4 ++ leBytes r.pwr.toNat 4 ++ leBytes r.optime 6 ++ leBytes (size % 64 + r.sev * 64) 1
    ++ leBytes (if r.damaged then 255 else r.kind) 1 ++ (if r.damaged then [] else r.payload)

/-- The records of a source: the store or the volatile ring, queued ones with the one that is written now. -/
def recSource (s : State) (ring : Bool) : List Rec :=
  inSeq (if ring then s.recd.ring ++ (if s.recd.volatile then s.recd.queue else [])
    else s.recd.store ++ (if s.recd.volatile then [] else s.recd.queue))

/-- SEQ of the oldest record held; the next number when none is. -/
def oldestSeq (s : State) : W32 := ((allHeld s).head?.map (·.seq)).getD s.recd.nextSeq

/-- `a` is at or after `b`. -/
def atOrAfter (a b : W32) : Bool := !newer32 b a

/-- Whole records from the front that fit in `room` bytes. -/
def fitWindow : List Rec → Nat → List Rec
  | [], _ => []
  | r :: rs, room => let n := (recBytes r).length; if n ≤ room then r :: fitWindow rs (room - n) else []

/-- The records of severity MIN_SEV or higher. -/
def matching (s : State) (x : RecReader) : List Rec := (recSource s x.source).filter (fun r => decide (x.minSev ≤ r.sev))

/-- Both copies of the records of the store with these numbers have an uncorrectable error (R473). -/
def markDamaged (l : List W32) (s : State) : State :=
  { s with recd := { s.recd with store := s.recd.store.map (fun r => if l.contains r.seq then { r with damaged := true } else r) } }

/-- REC_WINDOW_LOAD_END: the reader's window is loaded (R472). `damaged` are the numbers of records whose two copies in the banks the load
has found with uncorrectable errors (R473). DEDUCED, log entry 67. -/
def execRecWindowLoadEnd (r : Reader) (s : State) (damaged : List W32 := []) : Out :=
  let x := readerOf s r
  .next (if x.busy && s.recd.ready then
      let s := if x.source then s else markDamaged damaged s
      let l := matching s x
      let first := oldestSeq s
      let v := if x.ask = 0 then x.cursor else first
      let w := if x.ask = 2 then (fitWindow l.reverse 4096).reverse else fitWindow (l.filter (fun r => atOrAfter r.seq v)) 4096
      let last := w.getLast?.map (·.seq)
      putReader s r { x with
        busy := false
        firstSeq := (w.head?.map (·.seq)).getD v
        window := w.flatMap recBytes
        count := w.length
        endFlag := last.isNone || last == (l.getLast?.map (·.seq))
        gap := x.ask == 0 && newer32 first v
        next := match last with
          | some q => q + 1
          | none => v }
    else s)

/-- A load begins: 0 from the cursor, 1 from the oldest record, 2 the newest. -/
def startLoad (r : Reader) (ask : Nat) (v : W32) (s : State) : State :=
  putReader s r { readerOf s r with busy := true, ask := ask, cursor := v }

/-! ### Registers -/

/-- REC_STATUS. -/
def recStatusReg (s : State) : Nat :=
  fieldAt (b2n s.recd.ready) 31 1 + fieldAt (b2n s.recd.volatile) 30 1 + fieldAt (b2n s.recd.fail1) 29 1
    + fieldAt (b2n s.recd.fail0) 28 1

/-- REC_FILL and REC_CRIT_FILL: the store, queued records counted; REC_COUNT: every record held. -/
def recFillReg (s : State) : Nat := recBytesOf (recSource s false)
def recCountReg (s : State) : Nat := (allHeld s).length
def recCritReg (s : State) : Nat := recBytesOf ((recSource s false).filter (fun r => r.sev == 3))

/-- REC_VOL_FILL. -/
def recVolReg (s : State) : Nat := recBytesOf (recSource s true)

/-- REC_BANK_STAT. -/
def recBankReg (s : State) : Nat := fieldAt s.recd.cause1 4 4 + fieldAt s.recd.cause0 0 4

/-- REC_RD_CFG. -/
def recRdCfgReg (x : RecReader) : Nat := fieldAt (b2n x.source) 4 1 + fieldAt x.minSev 0 2

/-- REC_WIN_STAT. -/
def recWinStatReg (x : RecReader) : Nat :=
  fieldAt (b2n x.busy) 31 1 + fieldAt (b2n x.endFlag) 30 1 + fieldAt (b2n x.gap) 29 1 + fieldAt x.count 13 9
    + fieldAt x.window.length 0 13

/-- REC_WIN: 0 while the window loads. -/
def recWinReg (x : RecReader) (o : Nat) : Nat := if x.busy then 0 else leAt x.window o 4

/-! ### Rim writes (R475) -/

/-- The clear: every record below the floor goes, and REC_CLEARED is offered ahead of what waits. -/
def rimClearFloor (host : Nat) (s : State) : State :=
  let n := (recSource s false).length + (recSource s true).length
  let r : RecIn := { sev := 3, kind := 0x0B, payload := leBytes host 4 ++ leBytes n 4 }
  let s := { s with recd := { s.recd with store := [], ring := [], queue := [], floor := s.recd.nextSeq } }
  raise evRecCleared (takeRecord r s)

/-! ### Commands of group 0x08 -/

/-- PAYLOAD of a REC_NOTE. -/
def noteBytes (p : Packet) : List Byte := parBytes p 0x18 (par p 0x11 1)

def bodyNote : Body where
  check _ p _ s :=
    let n := par p 0x11 1
    when (decide (n ≤ 40) && par p (0x18 + n) (40 - n) != 0) (fParam (0x18 + n))
    ++ when (decide (2 ≤ s.cmd.notesInMove)) fNoResource
  act who p _ s :=
    let n := par p 0x11 1
    let r : RecIn := { sev := par p 0x10 1, kind := 0x10
                       payload := leBytes who.host 1 ++ leBytes n 1 ++ leBytes 0 6 ++ padTo (noteBytes p) (divUp n 8 * 8) }
    .done (pushSet [.record r] { s with cmd := { s.cmd with notesInMove := s.cmd.notesInMove + 1 } }) 0 true

/-- REC_NOTE. -/
def execRecNote (h : Host) (p : Packet) (s : State) : Out := .next (runAdmin csNote bodyNote h p (.data []) s)

def bodyChallenge : Body where
  act _ _ _ s :=
    let (d, s) := draw s
    let n := Config.nonceDraw d
    .done { s with cmd := { s.cmd with nonce := some (n, cmdOp s) } } n.toNat true

/-- REC_CLEAR_CHALLENGE. -/
def execRecClearChallenge (h : Host) (p : Packet) (s : State) : Out := .next (runAdmin csChallenge bodyChallenge h p (.data []) s)

/-- Flash address of a slot (R540). -/
def slotBase (slot : Nat) : Nat := 0x1000000 + slot * 0x1000000

/-- Bytes of a slot. PRESUMED, log entry 34. -/
def slotBytes (f : Flash) (slot off n : Nat) : List Byte := readCells 0xFF f.cells (slotBase slot + off) n

/-- The recorder-clear key: RECCLR_KEY of the holder's running image (R79, R542). -/
def clearKey (s : State) : List Byte :=
  match s.sides.holder with
  | some d => slotBytes (flashOf s d) (flashOf s d).running 0xB1 97
  | none => []

/-- The nonce is the one in force (R79). DEDUCED, log entry 12. -/
def nonceOk (s : State) (n : Nat) : Bool :=
  match s.cmd.nonce with
  | some (x, t) => x.toNat == n && decide (cmdOp s ≤ t + 10000)
  | none => false

def bodyRecClear : Body where
  check _ p l s :=
    let n := par p 0x10 8
    when (ibLen p 0x20 != 96) (fParam 0x28)
    ++ when (!nonceOk s n || !p384Verify (clearKey s) (sha384 (leBytes n 8)) l) fAuth
  act who _ _ s := .start { s with cmd := { s.cmd with nonce := none } } (.recClear who.host true)

/-- REC_CLEAR. -/
def execRecClear (h : Host) (p : Packet) (ib : ReadEnd) (s : State) : Out := .next (runAdmin csRecClear bodyRecClear h p ib s)

def bodyRecQuery : Body where
  act _ _ _ s := .done s (recStatusReg s + recCountReg s * 2 ^ 32 + s.recd.nextSeq.toNat * 2 ^ 64) false

/-- REC_QUERY. -/
def execRecQuery (h : Host) (p : Packet) (s : State) : Out := .next (runAdmin csRecQuery bodyRecQuery h p (.data []) s)

end Sys2Proof.Machine
end

