-- ==== Sys2Proof/Machine/Sides.lean ====
section
/-!
DEFINITION. Machine/Sides.lean: heartbeats, Flag Fall, the Chess Clock, Castling, Lockstep, self-test and
resynchronization (R349 to R381, R387 to R396, R404 to R408), and the commands of group 0x06.
-/

namespace Sys2Proof.Machine

/-! ### The class L commands of group 0x06 and FW_ACTIVATE -/

/-- The outcome of a SIDE_CASTLE, which fixes RESULT byte 0 as well: the side `d` that holds the Clock after it; or of a SIDE_SELFTEST
whose Castling has not been made (R363, R365). -/
def castleOutcome (status : Nat) (d : SideId) (s : State) : State :=
  match workOf s 5 with
  | some (.castle none) => putWork 5 (.castle (some (status, sideNum d))) s
  | some (.selftest d t false none) => if status = stOk then s else putWork 5 (.selftest d t false (some status)) s
  | _ => s

/-! ### Commits (R387 to R389) -/

/-- A side holds Move `n`, whole in the slot whose turn it is, and its state region takes it (R389, R447). -/
def takeMove (n : Nat) (r : SideRec) : SideRec :=
  let r := if r.newer then { r with slot0 := some n } else { r with slot1 := some n }
  { r with move := n, jrnValid := true, newer := !r.newer, region := some n }

/-- A side that makes commits takes Move `n`; a stopped one does not (R353). -/
def moveOf (n : Nat) (r : SideRec) : SideRec := if (r.state = 5 || r.state = 7) && r.healthy then takeMove n r else r

/-- The Move at whose end Lockstep ended commits on the journals of both sides (R376). -/
def exitCommit (n : Nat) (s : State) : State :=
  match s.sides.holder with
  | some h => if s.sides.exitMove = some n && (sideOf s (other h)).state = 4 then updSide (other h) (takeMove n) s else s
  | none => s

/-- Offset of the indirect-buffer reference of an opcode (R56). -/
def ibufAt (opcode : Nat) : Nat :=
  ([csFldAggLoad, csTapeLoad, csIdLoad, csRouteLoad, csRecClear, csFwWrite].find? (fun c => c.opcode == opcode)).bind (·.ibuf) |>.getD 0x18

/-- The counter key is that of a port counter (R276). -/
def isPortCnt (key : Nat) : Bool :=
  let a := key / 32
  decide (0x1000000 ≤ a) && decide (a < 0x1200000) && decide (0x1000 ≤ a % 0x10000) && decide (a % 0x10000 < 0x1130)

/-- The rim subtracts what firmware read of a port counter in a Move once the Move commits (R278). -/
def subRead (t : Tab Five) (x : Nat × Nat × Nat) : Tab Five :=
  let f := tget {} t x.2.1
  tput {} t x.2.1 { f with fw := f.fw - x.2.2 }

/-- The port counters at the commit of Move `n`: firmware's reads are subtracted, and its readings stand anew (R278). -/
def commitCounters (n : Nat) (s : State) : State :=
  let s := accrueAll s
  let (gone, rest) := s.fwRead.partition (fun x => decide (x.1 ≤ n))
  let ctrs := gone.foldl subRead s.ctrs
  { s with ctrs := ctrs, fwRead := rest
           snap := (ctrs.filter (fun x => isPortCnt x.1 && x.2.fw != 0)).map (fun x => (x.1, x.2.fw)) }

/-- The journal at the commit of Move `n`: the records up to CONSUMED are freed, and a full Scoresheet takes inputs again once it has
room (R387, R391). -/
def commitJrn (n : Nat) (j : Jrn) : Jrn :=
  let k := freeSheet (j.token.consumed + 1) j
  { k with committed := some n, pending := none, pendDelta := [], since := j.since.filter (fun x => decide (n < x.1)),
           full := j.full && sheetFull k, rewrite := false, replayed := false }

/-- The journal holds the Move that channel 6 writes (R161, R389). -/
def slotEnd (s : State) : State :=
  if chanBusy (chanOf s 6) then pchDone 6 (128 * (s.jrn.pendDelta.map (·.count)).sum) s else s

/-- Move `n` is committed: what waits for a commit may go on, and its delta counts (R388, R408). -/
def commitMove (n : Nat) (s : State) : State :=
  let s := countMax .sideJrnDelta [] 0 s.jrn.token.flits s
  let s := exitCommit n (updSide .black (moveOf n) (updSide .white (moveOf n) (slotEnd s)))
  let j := s.jrn
  let s := { s with jrn := commitJrn n j,
                    cmd := { s.cmd with ibCmds := s.cmd.ibCmds.filter (fun x => decide (n < x.move)),
                                        gensMark := s.cmd.gensMark.filter (fun x => decide (n < x.1)),
                                        gensDone := ((s.cmd.gensMark.find? (fun x => x.1 == n)).map (·.2)).getD s.cmd.gensDone },
                    dma := { s.dma with sent := s.dma.sent.filter (fun x => decide (n < x.1)) } }
  dmaGo (settleDirect (commitCounters n (freeCommitted (if j.rewrite then rewriteAll s else s))))

/-- A Move that does not commit: the replay makes its delta again, as part of the next one (R394, R396). -/
def undoPending (s : State) : State :=
  { (if chanBusy (chanOf s 6) then freeChan 6 s else s) with jrn := { s.jrn with pending := none, delta := s.jrn.pendDelta ++ s.jrn.delta, pendDelta := [] } }

/-- A Move whose token the standby has accepted is committed; another is not. `d` is the side whose journal counts. -/
def settlePending (d : SideId) (s : State) : State :=
  match s.jrn.pending with
  | some (n, _) => if (sideOf s d).move = n then commitMove n s else undoPending s
  | none => s

/-! ### States -/

/-- A live copy ends before its side is in step (R407). -/
def abortResync (s : State) : State :=
  raise evResyncAbort (count .sideResyncCnt [] 16 1 { s with sides := { s.sides with phase := 0 } })

/-- An interruption begins, if none runs (R362). -/
def beginIntr (tick : Nat) (s : State) : State :=
  if s.sides.intrFrom.isSome then s else { s with sides := { s.sides with intrFrom := some tick } }

/-- The interruption is over: SIDE_LAST_INTR in ns (R362). -/
def endIntr (s : State) : State :=
  match s.sides.intrFrom with
  | some t => { s with sides := { s.sides with intrFrom := none, lastIntr := 2 * (s.time.tick - t) } }
  | none => s

/-- The Move whose token the standby can no longer acknowledge commits on the holder's own slot write (R388). -/
def soloCommit (h : SideId) (s : State) : State :=
  match s.jrn.pending with
  | some (n, true) => if (sideOf s h).healthy then commitMove n s else s
  | _ => s

/-- A planned Castling whose standby has gone ends with the holder as it was (R365). -/
def endHandover (h : SideId) (s : State) : State :=
  if s.sides.handover = .armed || s.sides.handover = .sent then
    let s := if s.sides.handover = .sent then endIntr s else s
    castleOutcome stState h { s with sides := { s.sides with handover := .none } }
  else s

/-- A side that does not hold the Clock leaves its state: its copy, its test, its token and its handover end (R365, R378,
R388, R407). `status` is that of a test it runs. -/
def leaveState (d : SideId) (status : Nat) (s : State) : State :=
  let st := (sideOf s d).state
  if st = 3 then abortResync s
  else if st = 6 then testOutcome status { s with sides := { s.sides with stRunning := false } }
  else if st = 4 || st = 7 then endHandover (other d) (soloCommit (other d) s)
  else s

/-- A side reaches STANDBY or ACTIVE: an unconfirmed slot is confirmed, and the fused minimum rises (R544, R545). -/
def confirmBoot (d : SideId) (s : State) : State :=
  let f := flashOf s d
  let f := if f.confirmed then f else { f with confirmed := true, gen := f.gen + 1 }
  let min := f.svnMin.getD (Config.svnFuse d)
  putFlash s d (if f.svnCommit && min.toNat < f.svn.toNat && f.raises < 64 then { f with svnMin := some f.svn, raises := f.raises + 1 }
    else f)

/-- The side that does not hold the Clock enters RESYNC (R404, R405): the copy begins at phase 1. -/
def enterResync (d : SideId) (s : State) : State :=
  let (n, s) := draw s
  let s := updSide d (fun r => { r with state := 3, jrnValid := false, press := false, mustLoop := false }) s
  followSides { s with sides := { s.sides with mlOk := true, mlFails := [], phase := 1, pass := 0, rsSide := d == .black,
                                               rsInUse := Config.stateInUse n, rsCopied := 0, rsDirty := 0, rsDirtied := 0,
                                               rsStart := s.time.optime } }

/-- A side that waits in BOOT enters RESYNC once another side holds the Clock (R350, R441, R447). -/
def admitWaiting (s : State) : State :=
  match s.sides.holder with
  | some h =>
    let d := other h
    if (sideOf s d).state = 1 && (sideOf s d).ready && s.glb.mode != 1 && s.glb.mode != 7 then enterResync d s else s
  | none => s

/-- A start ends (R449). -/
def endStart (s : State) : State :=
  { s with glb := { s.glb with startBusy := false, startKind := 0, startTime := s.time.optime - s.glb.startBegan } }

/-- HOLD_N is low when a start ends: Safe-Hold (R436, R449). -/
def safeFromStart (s : State) : State :=
  goSafe false { s with glb := { s.glb with safeCause := s.glb.safeCause ||| 1 } }

/-- A cold start fails: Bypass mode, every port disabled and every field port in role 0 (R434, R440). -/
def bypassFail (s : State) : State :=
  let s := endStart (toMode 0 true (setAlarm 2 (raise evStartFail { s with glb := { s.glb with cfgLoad := false } })))
  fieldsOff ((s.port.map (·.1)).foldl (fun s p => rimPortEnable p false s) s)

/-- The feed of a side is present (R501). -/
def feedUp (s : State) : SideId → Bool
  | .white => s.glb.feedA
  | .black => s.glb.feedB

/-! ### Flag Fall (R354, R356) -/

/-- The Flag Fall record (R466). -/
def fallRecord (s : State) (d : SideId) : RecIn :=
  { sev := 2, kind := 3, payload := leBytes (sideNum d) 1 ++ [0, 0, 0] ++ leBytes (sideOf s d).move 4 }

/-- A side has lost the Clock: its reads are discarded when they complete (R154, R184). -/
def loseClock (s : State) : State := dropTurns (dropReads s)

/-- What every Flag Fall does. -/
def declareFall (d : SideId) (s : State) : State :=
  let s := offer (fallRecord s d) (raise evFlagFall (count .sideFlagCnt [] (16 * sideNum d) 1 s))
  goOut d (timeRecord .fall (updSide d (fun r => { r with flag := true, alive := false }) s))

/-- No side can take over (R356, R407): Safe-Hold in modes 3 to 11; in a start the side that fell begins its steps again after its reset
(R449, R453). DEDUCED, log entry 142. -/
def noTaker (d : SideId) (s : State) : State :=
  let o := other d
  let st := (sideOf s o).state
  let s := { s with sides := { s.sides with holder := none, disp := .none, castling := none, handover := .none, intrFrom := none } }
  let s := undoPending s
  let s := testOutcome stResetAbort s
  let s := if st = 3 || st = 6 then goOut o (leaveState o stResetAbort s) else s
  if s.glb.mode = 1 then { s with glb := { s.glb with cfgLoad := false } }
  else if 3 ≤ s.glb.mode then enterSafe 2 true s
  else s

/-- The LS_VERDICT record. -/
def verdictRecord (s : State) (v : Nat) : RecIn :=
  { sev := 2, kind := 4, payload := leBytes v 1 ++ leBytes s.sides.lsKind 1 ++ leBytes s.sides.lsOutput 1 ++ [0]
      ++ leBytes (s.jrn.committed.getD 0) 4 }

/-- A Lockstep check ends with a verdict: 1 White failed, 2 Black, 3 both passed, 4 both failed (R374, R380). -/
def endCheck (v : Nat) (s : State) : State :=
  offer (verdictRecord s v) (raise evLsCheckDone { s with sides := { s.sides with lsHold := false, lsVerdict := v % 4 } })

/-- A forced interruption is measured from the failed side's last toggle, whatever ran before it (R362). -/
def forcedIntr (d : SideId) (s : State) : State := { s with sides := { s.sides with intrFrom := some (sideOf s d).toggle } }

/-- The holder falls: a forced Castling, the Lockstep check, or nobody takes over. The interruption counts from its last toggle
(R362). -/
def holderFell (d : SideId) (s : State) : State :=
  let check := s.sides.disp == .check
  let s := forcedIntr d (loseClock s)
  let st := (sideOf s (other d)).state
  if st = 4 then
    let s := castleOutcome stOk (other d) (count .sideCastleCnt [] 16 1 s)
    toMode 7 false { s with sides := { s.sides with holder := none, disp := .none, castling := some true, handover := .none } }
  else if st = 7 then
    toMode 7 false { s with sides := { s.sides with holder := none, disp := .check, castling := some true, handover := .none,
                                                    lsHold := true } }
  else noTaker d (if check then endCheck 4 s else s)

/-- The other side falls while a side holds the Clock, or while none does. -/
def otherFell (d : SideId) (s : State) : State :=
  if s.sides.holder.isSome then followSides s
  else if s.sides.disp = .check then s
  else
    let st := (sideOf s (other d)).state
    if st = 4 || st = 7 || s.glb.mode = 11 then s else noTaker d s

/-- The Chess Clock declares the Flag Fall of a side. -/
def flagFall (d : SideId) (s : State) : State :=
  if s.sides.holder = some d then holderFell d (declareFall d s)
  else otherFell d (declareFall d (leaveState d stState s))

/-- States with an alive pulse (R352). -/
def pulses (r : SideRec) : Bool := decide (3 ≤ r.state) && decide (r.state ≤ 7)

/-- FLAG_FALL: 4 µs without a toggle. DESIGN CHOICE, log entry 3. -/
def execFlagFall (d : SideId) (s : State) : Out :=
  .next (if pulses (sideOf s d) && !(sideOf s d).alive then flagFall d s else s)

/-- The clock whose loss a health condition names (R46). -/
def loseLock (d : SideId) (c : HealthCause) (s : State) : State :=
  match c, d with
  | .coreClock, .white => { s with glb := { s.glb with lockCoreW := false } }
  | .coreClock, .black => { s with glb := { s.glb with lockCoreB := false } }
  | .schClock, .white => { s with glb := { s.glb with lockSchW := false } }
  | .schClock, .black => { s with glb := { s.glb with lockSchB := false } }
  | _, _ => s

/-- ALIVE_PULSE_STOP: the side's writes, requests, commits and acknowledgements stop with the pulse (R353). A clock that has
lost lock shows so in any state (R46). -/
def execAlivePulseStop (d : SideId) (c : HealthCause) (s : State) : Out :=
  let s := loseLock d c s
  .next (if pulses (sideOf s d) then updSide d (fun r => { r with alive := false, healthy := false }) s else s)

/-- The heartbeat flit of a side (R352). -/
def beatOf (r : SideRec) (health : BitVec 16) : Beat := { state := r.state, move := r.move, health := health }

/-- HEARTBEAT_SEND: the flit goes out, and the alive pulse toggles while the side is healthy (R352, R353). -/
def execHeartbeatSend (d : SideId) (s : State) : Out :=
  .next (if pulses (sideOf s d) then
      let (n, s) := draw s
      let s := updSide d (fun r => { r with beat := some (beatOf r (Config.healthWord n)) }) s
      if (sideOf s d).healthy then updSide d (fun r => { r with alive := true, toggle := s.time.tick }) s else s
    else s)

/-! ### A failed Mirror Link (R31, R355, R368, R369) -/

/-- The replay makes the data writes of the Moves that were not committed again, with the same bytes, and issues again their reads
that had completed (R174, R187, R393). -/
def writeAgain (s : State) : State :=
  let ok := fun (t : Tlp) => match t with | .memWrite h _ _ _ => hostOk s h | .memRead h _ _ => hostOk s h | _ => false
  { s with bus := s.bus ++ (s.dma.sent.map (·.2)).filter ok }

/-- A replay begins (R392, R393). -/
def beginReplay (s : State) : State :=
  writeAgain { s with sides := { s.sides with disp := .replay }, jrn := { s.jrn with rewrite := true, replayed := true } }

/-- Entry into Lockstep: both sides restore the last Move that the standby applied, and replay, which issues their reads again (R369,
R393). -/
def enterLockstep (h : SideId) (s : State) : State :=
  let s := beginIntr s.time.tick (dropReads (settlePending (other h) s))
  let s := castleOutcome stState h (updSide (other h) (fun r => { r with state := 7 }) s)
  let s := { s with sides := { s.sides with handover := .none, loopRuns := 0, lsExit := false } }
  followSides (raise evLsEnter (beginReplay s))

/-- The holder goes on without the state-copy path. -/
def linkFailed (h : SideId) (s : State) : State :=
  let o := sideOf s (other h)
  if o.state = 4 && o.alive && (sideOf s h).alive && regFld s .sideCfg [] 0 1 = 1 then enterLockstep h s
  else if o.state = 3 || o.state = 4 || o.state = 6 then
    followSides (goOut (other h) (leaveState (other h) stState s))
  else s

/-- The state-copy path is declared failed: ML_FAIL. -/
def mlFail (s : State) : State :=
  let s := timeRecord .mlFail (raise evMlFail { s with sides := { s.sides with mlOk := false, mlFails := [] } })
  match s.sides.holder with
  | some h => linkFailed h s
  | none => s

/-- HEARTBEAT_MISS: side `d` has received no flit for 4 µs while the other's pulse is present. -/
def execHeartbeatMiss (d : SideId) (s : State) : Out :=
  .next (if pulses (sideOf s d) && (sideOf s (other d)).alive && s.sides.mlOk then mlFail s else s)

/-- Sends in a row of a flit of side `d` that have failed. -/
def flitFails (s : State) (d : SideId) (flit : Nat) : Nat := tget 0 s.sides.mlFails (flit * 2 + sideNum d)

/-- ML_FLIT_CRC_FAIL: a send of the flit of number `flit` from side `d` has failed. It is sent again, which SIDE_ML_STAT counts;
the third failure in a row of one flit fails the path (R31, R380). -/
def execMlFlitCrcFail (s : State) (flit : Nat := 0) (d : SideId := .white) : Out :=
  .next (if !s.sides.mlOk then s
    else
      let n := flitFails s d flit + 1
      let s := { s with sides := { s.sides with mlFails := tput 0 s.sides.mlFails (flit * 2 + sideNum d) n } }
      if 3 ≤ n then mlFail s else count .sideMlStat [] 16 1 s)

/-! ### Tokens and acknowledgements (R386 to R389) -/

/-- The token that the standby has is the one that was sent: the sideband CRC guards it (R31, R386). -/
def tokenSent (t : Token) (s : State) : Bool :=
  let k := s.jrn.token
  w32 t.move == k.move && w32 t.base == k.base && t.flits == k.flits && t.handover == k.handover && t.cutover == k.cutover

/-- COMMIT_TOKEN_RX: the standby checks the token that was sent and applies the Move, or the path fails (R387). A CUTOVER token
reaches the side that is being brought into step (R405). -/
def execCommitTokenRx (t : Token) (s : State) : Out :=
  .next (match s.sides.holder, s.jrn.pending with
    | some h, some (n, true) =>
      let o := other h
      if !tokenSent t s || (sideOf s o).state != 4 || !(sideOf s h).healthy || !(sideOf s o).healthy || t.move % 2 ^ 32 != n % 2 ^ 32
        || t.cutover then s
      else if t.base % 2 ^ 32 = (sideOf s o).move % 2 ^ 32 && t.flits = t.flitsSeen && t.crcGood then
        updSide o (takeMove n) s
      else mlFail s
    | some h, _ =>
      let o := other h
      if !tokenSent t s then s
      else if t.cutover && (sideOf s o).state = 3 && s.sides.phase = 3 && t.flits = t.flitsSeen && t.crcGood then
        updSide o (takeMove t.move) { s with sides := { s.sides with phase := 4 } }
      else if t.cutover && (sideOf s o).state = 3 && s.sides.phase = 3 then mlFail s
      else s
    | none, _ => s)

/-- COMMIT_ACK. -/
def execCommitAck (s : State) : Out :=
  .next (match s.sides.holder, s.jrn.pending with
    | some h, some (n, true) =>
      if (sideOf s (other h)).move = n && (sideOf s h).healthy then
        commitMove n s
      else s
    | _, _ => s)

/-- COMMIT_ACK_TIMEOUT: 2 µs after the token (R388). -/
def execCommitAckTimeout (s : State) : Out :=
  .next (match s.sides.holder, s.jrn.pending with
    | some h, some (n, true) =>
      if !(sideOf s h).healthy then s
      else if (sideOf s (other h)).alive then mlFail s
      else commitMove n s
    | _, _ => s)

/-- MOVE_SLOT_WRITE_DONE: a side's slot holds the Move `move`; alone, the holder commits it so (R389). -/
def execMoveSlotWriteDone (move : Nat) (s : State) : Out :=
  .next (match s.sides.holder, s.jrn.pending with
    | some h, some (n, false) => if (sideOf s h).healthy && n = move then commitMove n s else s
    | _, _ => s)

/-! ### The Chess Clock (R357 to R361) -/

/-- A side may press now (R357, R358, R363, R365, R441, R447); under CLOCK_PATH it makes a press that is refused (R377). -/
def mayPress (s : State) (d : SideId) : Bool :=
  let r := sideOf s d
  let held := match s.sides.handover with
    | .released x => x == d && ((sideOf s (other d)).state == 4 || (sideOf s (other d)).state == 7)
    | _ => false
  let tests := match workOf s 5 with
    | some (.selftest x t true none) => x == d && bitN t 6
    | _ => false
  match s.sides.holder with
  | some _ => r.state == 4 || (r.state == 6 && tests)
  | none => ((r.state == 4 || r.state == 7) && !held && s.sides.disp != .check)
      || (r.state == 1 && r.ready && (s.glb.mode == 1 || (s.glb.mode == 2 && r.jrnValid)))

/-- CHESS_CLOCK_PRESS. -/
def execChessClockPress (d : SideId) (s : State) : Out :=
  .next (if mayPress s d && !(sideOf s d).press then
      updSide d (fun r => { r with press := true, pressTick := s.time.tick, step := if r.state = 1 then 7 else r.step }) s
    else s)

/-- PRESS_REFUSED: the holder's pulse toggled (R358). -/
def execPressRefused (d : SideId) (s : State) : Out :=
  .next (match s.sides.holder with
    | some h =>
      if h != d && (sideOf s d).press && (sideOf s h).alive then
        raise evClaimRefused (count .sideClaimCnt [] 0 1 (updSide d (fun r => { r with press := false }) s))
      else s
    | none => s)

/-- The press that the arbiter grants: the earlier, White's in the same cycle (R359). -/
def pressWinner (s : State) : Option SideId :=
  let w := s.sides.white
  let b := s.sides.black
  if w.press && (!b.press || w.pressTick ≤ b.pressTick) then some .white else if b.press then some .black else none

/-- The end of a Castling's command where no dispatch restart follows or the Clock came back (R363 to R365). -/
def handedOver (d : SideId) (s : State) : State :=
  match s.sides.handover with
  | .released x =>
    let s := { s with sides := { s.sides with handover := .none } }
    if x = d then castleOutcome stState d s
    else
      let s := castleOutcome stOk d (count .sideCastleCnt [] 0 1 s)
      if (flashOf s d).stateFmt = (flashOf s x).stateFmt + 1 && (sideOf s x).state = 4 then goOut x s else s
  | _ => s

/-- The tests of SIDE_SELFTEST begin on the side that does not hold the Clock (R377, R378). -/
def startTests (d : SideId) (s : State) : State :=
  let s := leaveState d stState s
  let s := updSide d (fun r => { r with state := 6, jrnValid := false }) s
  followSides { s with sides := { s.sides with stRunning := true, stSide := d == .black } }

/-- A SIDE_SELFTEST that waited for its Castling begins its tests. -/
def beginPending (s : State) : State :=
  match workOf s 5 with
  | some (.selftest d t false none) =>
    if s.sides.holder = some (other d) && ((sideOf s d).state = 4 || (sideOf s d).state = 7) then
      putWork 5 (.selftest d t true none) (startTests d s)
    else testOutcome stState s
  | _ => s

/-- The mode after an interruption (R435): Safe-Hold if HOLD_N asked for it, the mode that MODE_CONFIG_ENTER or MODE_CONFIG_EXIT gave
meanwhile, Configuration or Time Acquisition if a Castling left it, else the mode of R351. DEDUCED, log entry 60. -/
def leaveCastling (s : State) : State :=
  if s.glb.mode != 7 then followSides s
  else if s.glb.holdReq then enterSafe 0 false { s with glb := { s.glb with holdReq := false } }
  else match s.glb.castleMode with
    | some m => acquired (toMode m false { s with glb := { s.glb with tacqDone := false, acqFrom := s.time.optime } })
    | none =>
      if s.glb.prev = 3 then toMode 3 false s
      else if s.glb.prev = 4 && !s.glb.tacqDone then toMode 4 false s
      else toMode (serviceMode s) false { s with glb := { s.glb with tacqDone := false } }

/-- The express lane's entries that no side has accepted leave nothing: tag, place, staged frame and replicas (R39, R156). -/
def warmLane (s : State) : State :=
  let mine := fun (x : Sq) => (x.entries.filter (fun e => !e.accepted)).filterMap (·.lane)
  let ts := s.que.sqs.flatMap (fun x => mine x.2)
  let out := fun (y : Staged) => match y.tag with | some t => !ts.contains t | none => true
  let resv := fun (k : Nat) => (s.que.sqs.filter (fun x => x.1 / 1024 == k / 1024 && x.2.cqid == k % 1024)).map (fun x => (mine x.2).length)
  let s := { s with
    que := { s.que with
      ops := s.que.ops.filter (fun o => !ts.contains o.1)
      sqs := s.que.sqs.map (fun x => (x.1, { x.2 with live := x.2.live.filter (fun t => !ts.contains t) }))
      cqs := s.que.cqs.map (fun c => (c.1, { c.2 with resv := c.2.resv - (resv c.1).sum })) }
    txHeld := s.txHeld - ((s.que.ops.filter (fun o => ts.contains o.1)).map (fun o => o.2.held)).sum
    gate := s.gate.map (fun g => (g.1, { g.2 with staged := g.2.staged.map (fun l => (l.1, l.2.filter out)) })) }
  if ts.isEmpty then s else (s.sch.flows.map (fun f => f.1)).foldl (dropFlow ts) s

/-- The rings after a warm start: PI stands at AI + 1, and pushes and slots that are not accepted are gone (R156). -/
def warmSq (x : Sq) : Sq :=
  { x with pi := x.ai + 1, taken := x.ai + 1, push := none, turn := none, stalled := false, entries := x.entries.filter (·.accepted) }

/-- An operation whose transmit copy takes its space in the packet buffer while it runs (R274). -/
def copiesIn (o : Op) : Bool := o.kind == .frame || o.kind == .stream

/-- The engine after a warm start: every chain starts again from its first descriptor and first byte, firmware chains have ended
with RESET_ABORT, and DMA_CH_STAT and the latches are clear (R188). -/
def warmDma (s : State) : State :=
  let back := (s.que.ops.filter (fun o => match o.2.stage with | .onChan _ => copiesIn o.2 | _ => false)).map (fun o => o.2.held)
  let again := fun (o : Nat × Op) => match o.2.stage with
    | .onChan _ =>
      let y := { o.2 with stage := OpStage.waitChan }
      (o.1, if copiesIn y then { y with held := 0, payload := [] } else y)
    | _ => o
  { s with que := { s.que with ops := s.que.ops.map again }, txHeld := s.txHeld - back.sum
           dma := { s.dma with chans := [], stopped := false, auto := false, multi := false, cand := 0, err := {}, turns := 0,
                               xferTurns := 0, sent := [] } }

/-- Received frames that no side has consumed are not delivered; their space is free (R402). -/
def warmRx (s : State) : State :=
  let n := (s.port.map (fun x => x.2.sums.length)).sum + (s.fld.ports.map (fun x => x.2.sums.length)).sum
  let size := fun (x : PortSt) => (x.sums.map (fun y => y.bytes.length)).sum
  let fsize := (s.fld.ports.map (fun x => (x.2.sums.map (fun y => y.1.length)).sum)).sum
  let ports := s.port.map (fun x => x.1)
  let s := ports.foldl (fun s p => putPort s p { portOf s p with sums := [], held := (portOf s p).held - size (portOf s p) }) s
  let fports := s.fld.ports.map (fun x => x.1)
  let s := fports.foldl (fun s f => putFld s f { fldOf s f with sums := [] }) s
  { s with fld := { s.fld with held := s.fld.held - fsize }, jrn := { s.jrn with rxDropped := n } }

/-- One departure after the base Move that its side had consumed is taken back: its operation is not done (R402). -/
def takeBack (x : Staged) (s : State) : State :=
  match x.tag.bind (fun t => (opOf s t).map (fun o => (t, o))) with
  | none => s
  | some (t, o) =>
    let o' := { o with copies := o.copies + 1, count := if o.kind = .stream then o.count - 1 else o.count,
                       stage := if o.stage = .done then .staged else o.stage }
    let s := putOp s t o'
    if o.stage = .done then
      let s := match sqOf s o.host o.sq with
        | some q => putSq s o.host o.sq { q with live := if q.live.contains t then q.live else q.live ++ [t] }
        | none => s
      { s with jrn := { s.jrn with dueCqe := s.jrn.dueCqe.filter (fun d => d.tag != t) } }
    else s

/-- Frames that left after the base Move are staged again, ahead of what is staged, in their order; past 16 of a class they wait
for a place (R209, R402, R399). -/
def warmTx (s : State) : State :=
  let late := (s.jrn.departs.filter (fun d => d.2.2.2.1)).length
  let known := s.jrn.since.take (s.jrn.since.length - late)
  let s := known.foldl (fun s x => takeBack x.2.2.2 s) s
  let again := s.jrn.since.filter (fun x => x.2.2.2.src != 3)
  let restage := fun (x : Nat × Nat × Nat × Staged) (s : State) =>
    let g := gateOf s x.2.1
    let q := { x.2.2.2 with again := true } :: tget [] g.staged x.2.2.1
    putGate s x.2.1 { g with staged := tset g.staged x.2.2.1 (q.take 16)
                             back := tput [] g.back x.2.2.1 (q.drop 16 ++ tget [] g.back x.2.2.1) }
  let s := again.foldr restage s
  { s with jrn := { s.jrn with departs := s.jrn.departs.filter (fun d => !d.2.2.2.1), since := [], txAgain := again.length } }

/-- What a warm start restores, and what the flush did not keep (R156, R188, R402). A gather or scatter whose chain has ended is
accepted work: it runs again (R397). -/
def warmRestore (s : State) : State :=
  let s := warmTx (warmRx (warmDma (warmLane s)))
  let s := if someBuilds s then fwStart 2 s else s
  let s := if someScatters s then fwStart 3 s else s
  { s with que := { s.que with sqs := s.que.sqs.map (fun x => (x.1, warmSq x.2)) }, jrn := { s.jrn with triggers := [] } }

/-- What the new holder does first: the configuration load of a cold start, nothing to replay after a planned Castling in
Lockstep, else the replay (R364, R366, R402, R442). -/
def grantTo (d : SideId) (s : State) : State :=
  let lock := (sideOf s d).state = 7 && s.sides.castling = some false
  let r := sideOf s d
  let s := updSide (other d) (fun x => { x with press := false }) (putSide s d { r with state := 5, press := false, alive := r.healthy })
  let s := timeRecord .grant { s with sides := { s.sides with holder := some d, lastGrant := BitVec.ofNat 64 (netNs s) } }
  let s := confirmBoot d (handedOver d (if lock then s else settlePending d s))
  let s := if s.glb.mode = 1 || s.glb.mode = 2 then updSide d (fun r => { r with step := 8 }) s else s
  if s.glb.mode = 1 then
    let s := { s with cmd := { s.cmd with running := s.cmd.running.filter (fun r => !r.2.cfg) } }
    caughtUp { s with sides := { s.sides with disp := .running },
                      glb := { s.glb with cfgLoad := true, cfgNext := 0, locked := false } }
  else if lock then
    dmaGo (beginPending (leaveCastling (endIntr (caughtUp { s with
      sides := { s.sides with disp := .running, castling := none }, jrn := { s.jrn with rewrite := true } }))))
  else
    let s := if s.glb.mode = 2 then warmRestore s else if s.glb.mode = 11 || s.glb.mode = 7 then s else followSides s
    beginReplay { s with sides := { s.sides with lsHold := false } }

/-- The level of ACT_W or ACT_B (R357). -/
def actPin (s : State) (d : SideId) : Bool := s.sides.holder == some d

/-- CHESS_CLOCK_GRANT. -/
def execChessClockGrant (s : State) : Out :=
  .next (if s.sides.holder.isSome then s
    else match pressWinner s with
      | some d => grantTo d s
      | none => s)

/-! ### Planned Castling (R363 to R365) -/

/-- The active side releases the Clock: the gates close and mode 7 begins. -/
def releaseClock (h : SideId) (s : State) : State :=
  let s := updSide h (fun r => { r with state := if (sideOf s (other h)).state = 7 then 7 else 4 }) (timeRecord .release (loseClock s))
  toMode 7 false { s with sides := { s.sides with holder := none, disp := .none, castling := some false, handover := .released h } }

/-- HANDOVER_ACK: the standby has applied the Move. -/
def execHandoverAck (s : State) : Out :=
  .next (match s.sides.holder with
    | some h =>
      if s.sides.handover = .sent && (sideOf s h).healthy && (sideOf s (other h)).state = 4
          && (sideOf s (other h)).move + 1 = s.jrn.move then
        releaseClock h (settlePending (other h) s)
      else s
    | none => s)

/-- HANDOVER_TIMEOUT: 2 µs without the acknowledgement. -/
def execHandoverTimeout (s : State) : Out :=
  .next (match s.sides.handover, s.sides.holder with
    | .sent, some h =>
      let t := mlFail (castleOutcome stState h { s with sides := { s.sides with handover := .none } })
      if t.sides.disp = .running then endIntr t else t
    | _, _ => s)

/-! ### Replay and dispatch restart (R366, R392 to R395) -/

/-- One case of R395. -/
def divergeCase (s : State) (t : Nat) : State :=
  let h := ((opOf s t).map (·.host)).getD 0
  let r : RecIn := { sev := 1, kind := 5
                     payload := leBytes (t % 2 ^ 17 + h * 2 ^ 17) 4 ++ leBytes (s.jrn.committed.getD 0) 4 }
  count .sideJrnReplay [] 16 1 (pushSet [.record r, .raise evJrnDiverge] s)

/-- The WARM_SUMMARY record (R399). -/
def warmRecord (s : State) : RecIn :=
  { kind := 6, payload := leBytes s.jrn.txAgain 2 ++ leBytes s.jrn.rxDropped 2 ++ leBytes (s.jrn.committed.getD 0) 4 }

/-- A warm MODE_START ends with the start: RESULT byte 0 holds the mode entered (R449). -/
def warmDone (s : State) : State :=
  match workOf s 9 with
  | some .startWarm => endLong 9 stOk s.glb.mode s
  | _ => s

/-- The mode that follows a warm start. -/
def warmMode (s : State) : State :=
  let s := endStart (pushSet [.record (warmRecord s)] s)
  let back := s.glb.fromSafe
  let s := { s with glb := { s.glb with fromSafe := false, holdReq := false, safePin := false } }
  if !s.glb.holdN then safeFromStart s
  else if back then toMode 11 false s
  else if s.glb.safeCause != 0 then goSafe (faultCause s) s
  else if selLocked s then toMode (serviceMode s) false s
  else toMode 4 false s

/-- A warm start ends (R436, R448, R449). -/
def endWarm (s : State) : State := warmDone (warmMode s)

/-- The side consumes what has waited for it: departures, time-sync messages, hellos and topology messages (R366). -/
def consumeInputs (s : State) : State := consumeFab (consumePtp (consumeDeparts s))

/-- DISPATCH_RESTART_END: the interruption ends; its length is measured on the reference time that State holds (R362). -/
def execDispatchRestartEnd (_interruptNs : Nat) (s : State) : Out :=
  .next (if s.sides.disp = .restart && s.sides.holder.isSome then
      let wasCastling := s.sides.castling.isSome
      let s := dmaGo (settleDirect (endIntr (caughtUp { s with sides := { s.sides with disp := .running, castling := none } })))
      let s := if wasCastling then raise evCastleDone s else s
      let s := if s.glb.mode = 2 then endWarm (admitWaiting s) else leaveCastling s
      let s := match s.sides.holder with
        | some h => if !s.sides.mlOk && (sideOf s (other h)).state = 4 then linkFailed h s else s
        | none => s
      consumeInputs (beginPending (admitWaiting s))
    else s)

/-! ### Lockstep (R370 to R376) -/

/-- SIDE_LS_STAT.OUTPUT of an output. -/
def lsCode : LsOutput → Nat
  | .staging => 0
  | .rimSet => 1
  | .hostTlp => 2
  | .fieldEnqueue => 3

/-- A mismatch: the outputs are held and both sides check themselves (R373). -/
def mismatch (kind : Nat) (o : LsOutput) (s : State) : State :=
  match s.sides.holder with
  | some h =>
    if (sideOf s (other h)).state = 7 && s.sides.disp != .check then
      raise evLsMismatch (count .sideLsStat [] 16 1 (beginIntr s.time.tick
        { s with sides := { s.sides with lsHold := true, lsKind := kind, lsOutput := lsCode o, disp := .check } }))
    else s
  | none => s

/-- LS_OUTPUT_MISMATCH: the rim compares the two sides' outputs in one place of their orders, in all that R371 names. -/
def execLsOutputMismatch (o : LsOutput) (s : State) (white : SideOut := {}) (black : SideOut := { data := [0] }) : Out :=
  .next (if white = black then s else mismatch 1 o s)

/-- LS_PARTNER_WAIT_TIMEOUT. -/
def execLsPartnerWaitTimeout (o : LsOutput) (s : State) : Out := .next (mismatch 2 o s)

/-- The side that goes on after a check takes or keeps the Clock (R374). -/
def lsContinue (d : SideId) (s : State) : State :=
  let keep := s.sides.holder = some d
  let s := castleOutcome (if keep then stState else stOk) d { s with sides := { s.sides with handover := .none } }
  let o := (sideOf s (other d)).state
  let s := if o = 2 || o = 0 then s else goOut (other d) (leaveState (other d) stState s)
  if keep then followSides (beginReplay (dropReads (settlePending d s)))
  else
    let s := loseClock { s with sides := { s.sides with holder := none, disp := .none } }
    updSide d (fun r => { r with press := true, pressTick := s.time.tick }) s

/-- A side is still in step (R349). -/
def inStep (r : SideRec) : Bool := r.state == 5 || r.state == 7

/-- A side that failed its check becomes OUT; one that its reset holds stays OFF (R349, R374). -/
def failCheck (d : SideId) (s : State) : State := if (sideOf s d).state = 0 then s else goOut d s

/-- LS_SELF_CHECK_END: a side that fell or was reset meanwhile has failed. -/
def execLsSelfCheckEnd (whitePass blackPass : Bool) (s : State) : Out :=
  .next (if s.sides.disp != .check then s
    else
      let w := whitePass && inStep s.sides.white
      let b := blackPass && inStep s.sides.black
      let v := if w && b then 3 else if b then 1 else if w then 2 else 4
      let s := endCheck v s
      if w then lsContinue .white s
      else if b then lsContinue .black s
      else
        let h := s.sides.holder.getD .white
        let s := failCheck .black (failCheck .white s)
        let s := { s with sides := { s.sides with holder := none, disp := .none, castling := none, intrFrom := none } }
        let s := castleOutcome stState h s
        enterSafe 2 true (loseClock (undoPending s)))

/-- ML_SELFTEST_RUN: ten clean runs in a row end Lockstep at the next Move end, and let a side that left Lockstep for its tests
return (R376, R378). -/
def execMlSelftestRun (clean : Bool) (s : State) : Out :=
  .next (match s.sides.holder with
    | some h =>
      let n := if clean then min 10 (s.sides.loopRuns + 1) else 0
      if (sideOf s (other h)).state = 7 then { s with sides := { s.sides with loopRuns := n, lsExit := n == 10 } }
      else if (sideOf s (other h)).state = 2 && (sideOf s (other h)).mustLoop then
        if n = 10 then enterResync (other h) { s with sides := { s.sides with loopRuns := 0 } }
        else { s with sides := { s.sides with loopRuns := n } }
      else s
    | none => s)

/-- The part returns from Lockstep to Duplex, unless a check runs (R373, R376). -/
def exitLockstep (s : State) : State :=
  match s.sides.holder with
  | some h =>
    if s.sides.lsExit && (sideOf s (other h)).state = 7 && s.sides.disp != .check then
      let s := updSide (other h) (fun r => { r with state := 4 }) s
      let m := s.jrn.pending.map (fun x => x.1)
      followSides (raise evLsExit { s with sides := { s.sides with lsExit := false, exitMove := m, loopRuns := 0, mlOk := true, mlFails := [] } })
    else s
  | none => s

/-! ### Self-test (R377, R378) -/

/-- What the DDR5 tests leave: DDR_PATTERN moves on to another 1 GiB, and a DDR_RETRAIN that passed stores new values (R377, R400). -/
def testDdr (d : SideId) (ran good : BitVec 7) (s : State) : State :=
  let s := if ran.getLsbD 3 then updSide d (fun r => { r with patternGib := r.patternGib + 1 }) s else s
  if good.getLsbD 4 then
    match d with
    | .white => { s with ddrW := { s.ddrW with stored := s.ddrW.stored + 1 } }
    | .black => { s with ddrB := { s.ddrB with stored := s.ddrB.stored + 1 } }
  else s

/-- SELFTEST_END: `passed` are the tests that the side passed. -/
def execSelftestEnd (passed : BitVec 7) (s : State) : Out :=
  .next (match workOf s 5 with
    | some (.selftest d t true none) =>
      if (sideOf s d).state != 6 then s
      else
        let all := BitVec.ofNat 7 t
        let good := passed &&& all
        let bad := all &&& ~~~passed
        let s := testDdr d all good s
        let s := testOutcome stOk { s with sides := { s.sides with stRunning := false, stPassed := good, stFailed := bad } }
        if bad != 0 then raiseS evStFail (followSides (goOut d s))
        else if s.sides.mlOk || good.getLsbD 5 then enterResync d s
        else followSides (updSide d (fun r => { r with mustLoop := true }) (goOut d s))
    | _ => s)

/-! ### Resynchronization (R404 to R407) -/

/-- RESYNC_PHASE_END: `granules` are dirty. Phase 3 lasts until the token with CUTOVER, which 64 granules or fewer allow; in each of its
Moves at most 100 are copied (R405). -/
def execResyncPhaseEnd (granules : Nat) (s : State) : Out :=
  let x := s.sides
  .next (match x.holder with
    | none => s
    | some h =>
      if (sideOf s (other h)).state != 3 then s
      else if x.phase = 1 then
        { s with sides := { x with phase := 2, rsCopied := 1024 * x.rsInUse, rsDirty := granules, rsDirtied := granules } }
      else if x.phase = 2 then
        let y := { x with pass := x.pass + 1, rsCopied := x.rsCopied + x.rsDirty, rsDirty := granules,
                          rsDirtied := x.rsDirtied + granules }
        if granules ≤ 4096 || 16 ≤ x.pass + 1 then { s with sides := { y with phase := 3 } } else { s with sides := y }
      else if x.phase = 3 then
        let sent := min (100 - x.rsMoved) x.rsDirty
        { s with sides := { x with rsCopied := x.rsCopied + sent, rsMoved := x.rsMoved + sent, rsDirty := granules,
                                   rsDirtied := x.rsDirtied + (granules - (x.rsDirty - sent)) } }
      else s)

/-- RESYNC_LOAD_END: the returning side is in step. -/
def execResyncLoadEnd (s : State) : Out :=
  .next (match s.sides.holder with
    | none => s
    | some h =>
      let d := other h
      if (sideOf s d).state = 3 && s.sides.phase = 4 then
        let s := updSide d (fun r => { r with state := 4, move := s.jrn.committed.getD 0 }) s
        let s := { s with sides := { s.sides with phase := 0, rsDirty := 0, rsLast := s.time.optime - s.sides.rsStart } }
        let s := raise evResyncDone (count .sideResyncCnt [] 0 1 s)
        let fell := (flashOf s d).fallback
        followSides (activateOutcome d (if fell then stIntegrity else stOk) (confirmBoot d s))
      else s)

/-! ### Registers (R380, R408) -/

/-- SIDE_STATUS. -/
def sideStatusReg (s : State) : Nat :=
  let x := s.sides
  fieldAt (b2n x.lsHold) 15 1 + fieldAt (b2n x.mlOk) 14 1 + fieldAt x.black.state 8 3 + fieldAt x.white.state 4 3
    + (match x.holder with | none => 0 | some .white => 1 | some .black => 2)

/-- One side's half of SIDE_ALIVE. -/
def aliveBits (r : SideRec) : Nat := fieldAt (b2n r.press) 2 1 + fieldAt (b2n r.alive) 1 1 + fieldAt (b2n r.flag) 0 1

/-- SIDE_ALIVE. -/
def sideAliveReg (s : State) : Nat := aliveBits s.sides.black * 16 + aliveBits s.sides.white

/-- SIDE_LS_STAT without MISMATCHES. -/
def sideLsReg (s : State) : Nat :=
  fieldAt s.sides.lsVerdict 10 2 + fieldAt s.sides.lsKind 8 2 + fieldAt s.sides.lsOutput 0 2

/-- SIDE_ST_STAT. -/
def sideStReg (s : State) : Nat :=
  let x := s.sides
  fieldAt (b2n x.stRunning) 31 1 + fieldAt (b2n x.stSide) 30 1 + fieldAt x.stFailed.toNat 8 7 + fieldAt x.stPassed.toNat 0 7

/-- SIDE_RESYNC_STAT. -/
def resyncStatReg (s : State) : Nat :=
  fieldAt s.sides.phase 29 3 + fieldAt s.sides.pass 24 5 + fieldAt (b2n s.sides.rsSide) 0 1

/-- SIDE_JRN_SS: what the Scoresheet takes in the spill region, in MiB rounded up, and in the ring, in KiB rounded up (R408). DEDUCED,
log entry 121. -/
def jrnSsReg (s : State) : Nat := fieldAt (divUp s.jrn.spill 1048576) 16 16 + fieldAt (divUp s.jrn.ondie 1024) 0 16

/-! ### Commands of group 0x06 -/

/-- The other side can take the Clock. -/
def takerReady (s : State) : Bool := standbyState s == 4 || standbyState s == 7

def bodyCastle : Body where
  check _ _ _ s := when (!takerReady s) fState
  act _ _ _ s := .start { s with sides := { s.sides with handover := .armed } } (.castle none)

/-- SIDE_CASTLE: the handover is armed for the end of this Move. -/
def execSideCastle (h : Host) (p : Packet) (s : State) : Out := .next (runAdmin csCastle bodyCastle h p (.data []) s)

def bodySelftest : Body where
  check _ p _ s :=
    let t := par p 0x14 4
    let st := (sideOf s (sideFrom (par p 0x10 1))).state
    when (t == 0 || decide (128 ≤ t)) (fParam 0x14)
    ++ when (!(st == 4 || st == 5 || st == 7) || (st == 5 && !takerReady s)) (fStateAt 0x10)
  act _ p _ s :=
    let d := sideFrom (par p 0x10 1)
    let t := par p 0x14 4
    if (sideOf s d).state = 5 then .start { s with sides := { s.sides with handover := .armed } } (.selftest d t false none)
    else .start (startTests d s) (.selftest d t true none)

/-- SIDE_SELFTEST: a named side that holds the Clock is castled first. -/
def execSideSelftest (h : Host) (p : Packet) (s : State) : Out := .next (runAdmin csSelftest bodySelftest h p (.data []) s)

def bodyResetStandby : Body where
  act _ _ _ s := .done (pushSet [.resetStandby] s) 0 true

/-- SIDE_RESET_STANDBY: the rim applies the reset from the set that follows the commit (R379). -/
def execSideResetStandby (h : Host) (p : Packet) (s : State) : Out :=
  .next (runAdmin csResetStandby bodyResetStandby h p (.data []) s)

/-- SIDE_LS_STAT as the active side reads it. -/
def sideLsFull (s : State) : Nat :=
  sideLsReg s + fieldAt ((tget ({} : Five) s.ctrs (ckey .sideLsStat [] 16)).fw) 16 16

def bodySideQuery : Body where
  act _ _ _ s := .done s (sideStatusReg s + sideAliveReg s * 2 ^ 32 + sideLsFull s * 2 ^ 64) false

/-- SIDE_QUERY. -/
def execSideQuery (h : Host) (p : Packet) (s : State) : Out := .next (runAdmin csSideQuery bodySideQuery h p (.data []) s)

end Sys2Proof.Machine
end

