-- ==== Sys2Proof/Machine/Journal.lean ====
section
/-!
DEFINITION. Machine/Journal.lean: Move markers, the 1 ms tick, the throttle and the full Scoresheet (R382 to R391).
-/

namespace Sys2Proof.Machine

/-- SQ_AI of each CQE decided in the Move that ends is fixed (R147). -/
def fixAi (s : State) : State :=
  { s with jrn := { s.jrn with dueCqe := s.jrn.dueCqe.map (fun d =>
      if d.aiDone then d
      else
        let ai := match sqOf s d.host d.sq with
          | some x => x.ai
          | none => d.cqe.ai
        { d with aiDone := true, cqe := { d.cqe with ai := ai } }) } }

/-- The holder commits the Move that ends: its dispatch runs, and it is healthy (R353, R394). -/
def commits (s : State) : Bool :=
  match s.sides.holder with
  | some h => s.sides.disp == .running && (sideOf s h).healthy
  | none => false

/-- The Move goes to the standby by token: it is in STANDBY with its pulse present, and the state-copy path works (R387, R388). -/
def byToken (s : State) : Bool :=
  match s.sides.holder with
  | some h => (sideOf s (other h)).state == 4 && (sideOf s (other h)).alive && s.sides.mlOk
  | none => false

/-- Flits of the delta that a marker ends: one Move's, or that of every Move whose marker a replay passed, which goes to the holder's
own 4 MiB Move slot alone (R384, R385, R394). -/
def markerFlits (s : State) : Nat := if s.jrn.replayed && !byToken s then min 32768 (deltaFlits s.jrn.delta) else flitsOf s.jrn.delta

/-- The commit token of Move `n` (R386): HANDOVER while a handover flit follows, CUTOVER where 64 dirty granules or fewer are left
(R405), BASE the last Move committed (R394). -/
def commitToken (s : State) (n : Nat) : CommitTok :=
  { throttled := s.jrn.capped, handover := s.sides.handover == .armed && byToken s
    cutover := s.sides.phase == 3 && decide (s.sides.rsDirty ≤ 64)
    move := w32 n, base := if s.jrn.replayed then w32 (s.jrn.committed.getD 0) else w32 n - 1
    flits := markerFlits s, consumed := s.jrn.consumed - 1, crc := Config.deltaCrc s.jrn.seq }

/-- Channel 6 writes the Move into its journal slot (R161, R389). DESIGN CHOICE, log entry 149. -/
def slotStart (s : State) : State := if (chanOf s 6).halted then s else fwStart 6 s

/-- The Move that ends awaits its commit when the holder's dispatch runs, and the rest of its delta goes out with its token; else its
delta stays, for the first commit after the dispatch restart (R384, R386, R389, R394). -/
def offerCommit (s : State) : State :=
  let n := s.jrn.move
  let s := { s with jrn := sendLines s.jrn }
  if commits s then
    let j := { s.jrn with move := n + 1, pending := some (n, byToken s), token := commitToken s n, pendDelta := s.jrn.delta, delta := [] }
    { slotStart s with jrn := j }
  else { s with jrn := { s.jrn with move := n + 1 } }

/-- A Castling that was armed in the Move begins (R363, R364); a Lockstep check that runs ends it first (R373). -/
def beginCastling (s : State) : State :=
  match s.sides.holder with
  | some h =>
    if s.sides.handover = .armed && s.sides.disp != .check then
      let st := (sideOf s (other h)).state
      if st = 4 then beginIntr s.time.tick { s with sides := { s.sides with handover := .sent } }
      else if st = 7 then releaseClock h (beginIntr s.time.tick s)
      else castleOutcome stState h { s with sides := { s.sides with handover := .none } }
    else s
  | none => s

/-- HOLD_N low takes effect at the marker in modes 3 to 10 but 7 (R454). -/
def holdAtMarker (s : State) : State :=
  if s.glb.holdReq && decide (3 ≤ s.glb.mode) && decide (s.glb.mode ≤ 10) && s.glb.mode != 7 then
    enterSafe 0 false { s with glb := { s.glb with holdReq := false } }
  else s

/-- An entry that has waited over a whole Move with the side consuming waits for something else than its record, which then decides
when it starts. DEDUCED, log entry 130. -/
def notLate (s : State) : State :=
  { s with que := { s.que with sqs := s.que.sqs.map (fun x => (x.1, { x.2 with entries := x.2.entries.map (fun e => { e with late := false }) })) } }

/-- MOVE_MARKER. -/
def execMoveMarker (s : State) : Out :=
  .next (if !s.glb.porst then s
    else
      let s := offerCommit (fixAi (timeRecord .marker (if consuming s then notLate s else s)))
      let s := { s with cmd := { s.cmd with shortInMove := 0, notesInMove := 0,
                                            gensMark := s.cmd.gensMark ++ [(s.jrn.move - 1, s.cmd.gens)] }
                        jrn := { s.jrn with throttled := false, capped := false, markEl := elapsed s }
                        sides := { s.sides with rsMoved := 0 } }
      let s := if consuming s then caughtUp s else s
      dmaGo (holdAtMarker (beginCastling (exitLockstep (consumeInputs s)))))

/-- The recovery functions that the 1 ms check finds due reset (R311). -/
def frerCheck (s : State) : State :=
  (s.strm.recs.map (·.1)).foldl (fun s r => if frerDue (recOf s r) (eventEl s) then frerReset r s else s) s

/-- MS_TIME_EVENT: the 1 ms tick, at which a side checks the recovery functions and stages what waits (R390, R311). -/
def execMsTimeEvent (s : State) : Out :=
  .next (if !s.glb.porst then s
    else
      let s := timeRecord .ms s
      if consuming s then settleDuePtp (frerCheck s) else s)

/-- The 1 KiB granules of 8 lines that a delta dirties (R405). -/
def granulesOf (l : List DeltaRun) : List (Nat × Nat) :=
  (l.flatMap (fun x => (List.range x.count).map (fun k => (x.region, (x.first + k) / 8)))).dedup

/-- The Move is throttled: no further record is consumed until its marker, and SIDE_JRN_THROTTLE counts it (R385, R405). -/
def throttle (s : State) : State := count .sideJrnThrottle [] 0 1 { s with jrn := { s.jrn with throttled := true } }

/-- JRN_THROTTLE: the flits of the Move's delta have reached 7,680 (R385), or 32 granules of a cut-over Move are newly dirty, which
raises nothing (R405). DEDUCED, log entry 46. -/
def execJrnThrottle (s : State) : Out :=
  .next (if !consuming s then s
    else if 7680 ≤ flitsOf s.jrn.delta then raiseS evJrnThrottle (throttle { s with jrn := { s.jrn with capped := true } })
    else if s.sides.phase = 3 && decide (32 ≤ (granulesOf s.jrn.delta).length) then throttle s
    else s)

/-- SCORESHEET_FULL: ring and spill are full (R391). -/
def execScoresheetFull (s : State) : Out :=
  .next (if s.jrn.full || !sheetFull s.jrn then s else raise evSsFull { s with jrn := { s.jrn with full := true } })

end Sys2Proof.Machine
end

