-- ==== Sys2Proof/Machine/Modes.lean ====
section
/-!
DEFINITION. Machine/Modes.lean: resets, starts, boots, pins and the commands of group 0x0A (R434 to R460, R401, R545,
R554).
-/

namespace Sys2Proof.Machine

/-! ### Status packets that a start writes first (R450) -/

/-- Write the due status packets that need no further commit. -/
def writeDue : List DueStatus → State → State
  | [], s => s
  | d :: r, s =>
    if d.mon || committed s d.move then
      let s := if hostOk s d.host then writeItem d.host 0 { body := .status d.pkt, noIrq := d.pkt.noIrq } s else s
      writeDue r s
    else writeDue r s

/-! ### Cold start (R439, R157, R216, R227, R289, R316, R346, R431, R479, R492) -/

/-- Every pending message of a coalescer is sent, and PENDING is cleared (R492). -/
def drainVecs (s : State) : State :=
  s.evt.vecs.foldl (fun s v =>
    if v.2.pending = 0 then s
    else
      let x := msgDue (v.1 / 64) (v.1 % 64) false s
      if x.2 then raiseBlocked x.1 else x.1) s

/-- The ports after a cold start: a frame on the wire completes (R289). -/
def coldPorts (s : State) : Tab PortSt × Tab GateP :=
  (List.range 32).foldl (fun (t : Tab PortSt × Tab GateP) p =>
    let g := gateOf s p
    if g.wire.isSome || g.cut.isSome then
      let x : PortSt := { link := (portOf s p).link }
      (tput {} t.1 p x, tput {} t.2 p { wire := g.wire, cut := g.cut })
    else t) ([], [])

/-- A side in the reset that begins a cold start. -/
def coldSide (r : SideRec) : SideRec := { autoResets := r.autoResets }

/-- The state in which a cold start begins: what the rim keeps, and everything else at its reset value. `cause` is its bit
of GLB_RESET_CAUSE. DEDUCED, log entry 11. -/
def coldReset (cause : Nat) (s : State) : State :=
  let z : State := {}
  let epoch := s.time.epoch + 1
  let kept := if s.recd.fail0 && s.recd.fail1 then s.recd.epochSaved else epoch
  let pg := coldPorts s
  let glb : Glb := { s.glb with
    startBusy := true, startKind := 1, startBegan := s.time.optime, cfgIndex := 0xFFFF, cfgNext := 0, cfgLoad := false,
    resetCause := s.glb.resetCause ||| BitVec.ofNat 32 cause, safeCause := 0, fromSafe := false, holdReq := false, safePin := false, locked := true,
    privCopy := 0, alarm := s.glb.alarm &&& 0x21, lockCoreW := false, lockSchW := false, lockCoreB := false, lockSchB := false,
    tacqDone := false }
  let time : Time := { z.time with epoch := epoch, tick := s.time.tick, optime := s.time.optime,
                                   optimeSaved := s.time.optimeSaved, pwrCycles := s.time.pwrCycles, refUnsure := s.time.refUnsure }
  let recd : Recorder := { s.recd with ready := false, epochSaved := kept, readers := [] }
  let sides : Sides := { z.sides with white := coldSide s.sides.white, black := coldSide s.sides.black }
  bypDrive (toMode 1 false (drainVecs { z with
    glb := glb, time := time, recd := recd, sides := sides, port := pg.1, gate := pg.2, evt := { z.evt with vecs := s.evt.vecs }
    fld := { z.fld with viof := s.fld.viof }, jrn := { z.jrn with summaries := s.jrn.summaries }
    pcie := s.pcie, flashW := s.flashW, flashB := s.flashB, bus := s.bus, free := s.free, pending := s.pending }))

/-- The status of a command that a cold start ends: ST_RESET_ABORT, but for a FW_ACTIVATE, whose side does not reach STANDBY (R67,
R547). -/
def abortStatus : LongOp → Nat
  | .fwActivate _ _ _ _ => stState
  | _ => stResetAbort

/-- A command that a cold start ends before its commit point: one that runs (R67). -/
def abortRunning (s : State) : State := s.cmd.running.foldl (fun s r => endLong r.1 (abortStatus r.2.op) 0 s) s

/-- The same of an accepted command that has not executed (R51, R67). -/
def abortWaiting : List (Nat × Packet × Stamp) → State → State
  | [], s => s
  | (h, p, _) :: l, s =>
    let s := { s with cmd := { s.cmd with waiting := s.cmd.waiting.tail } }
    let s := putAq s h { aqOf s h with head := (aqOf s h).head + 1 }
    abortWaiting l (reply { host := h, mon := true } p (some { rank := 10, status := stResetAbort }) 0 s)

/-- The same of one whose Move has not committed, but for what its status packet refuses, and for a SIDE_RESET_STANDBY, which a
reset never aborts (R67, R379). GEN is that of the last commit. -/
def abortDue (s : State) (d : DueStatus) : DueStatus :=
  if d.mon || committed s d.move || d.pkt.status != stOk || d.pkt.opcode.toNat == csResetStandby.opcode then { d with mon := true }
  else
    let g := if 0x100 ≤ d.pkt.opcode.toNat then tget 0 s.cmd.gensDone (d.pkt.opcode.toNat / 256 - 1) else d.pkt.gen
    { d with mon := true, pkt := { d.pkt with status := stResetAbort, result := 0, gen := g } }

/-- Every accepted command has its status packet before a cold start that the rim survives (R51, R67, R450). DEDUCED, log
entry 101. -/
def abortStatuses (s : State) : State :=
  let s := { s with cmd := { s.cmd with dueStatus := s.cmd.dueStatus.map (abortDue s) } }
  let s := abortWaiting s.cmd.waiting (abortRunning s)
  let s := writeDue (s.cmd.dueStatus.map (fun d => { d with mon := true })) s
  { s with cmd := { s.cmd with dueStatus := [] } }

/-- A cold MODE_START begins: its status goes out first, with those of the commands that it ends (R67, R81, R450). DEDUCED, log
entry 59. -/
def beginCold (s : State) : State :=
  let asked := decide (1 < tagsHeld s 0 + tagsHeld s 1 + tagsHeld s 2 + tagsHeld s 3)
  let s := endLong 9 stOk 0 { s with recd := { s.recd with asked := s.recd.asked || asked } }
  let s := match s.cmd.dueStatus.reverse with
    | d :: l => { s with cmd := { s.cmd with dueStatus := l.reverse ++ [{ d with mon := true }] } }
    | [] => s
  coldReset 0x40 (abortStatuses s)

/-! ### The end of the configuration load (R442) -/

/-- The configuration load ends: `m` is the mode that follows, or Safe-Hold where HOLD_N is low or a cause came meanwhile (R435,
R455). -/
def endLoad (m : Nat) (s : State) : State :=
  let s := endStart { s with glb := { s.glb with cfgLoad := false } }
  let s := if !s.glb.holdN then safeFromStart s else if s.glb.safeCause != 0 then goSafe (faultCause s) s else toMode m false s
  admitWaiting (acquired s)

/-- A refused item stops the load. -/
def refuseItem (s : State) : State :=
  endLoad 3 (raise evStartFail { s with glb := { s.glb with cfgIndex := s.glb.cfgNext } })

/-- A class L command ends; one that the configuration load started ends its item (R442). -/
def finishLong (g status result : Nat) (s : State) : State :=
  let cfg := ((tfind s.cmd.running g).map (·.cfg)).getD false
  let s := endLong g status result s
  if !cfg then s
  else if status = stOk then { s with glb := { s.glb with cfgNext := s.glb.cfgNext + 1 } }
  else refuseItem s

/-! ### Resets of a side (R379, R401, R451, R452) -/

/-- The class L commands that a side's reset ends (R67, R378). -/
def abortWork (d : SideId) (s : State) : State :=
  let s := match workOf s 8 with
    | some (.fwWrite x _ _ _) => if x = d then finishLong 8 stResetAbort 0 s else s
    | some (.fwVerify x _) => if x = d then finishLong 8 stResetAbort 0 s else s
    | _ => s
  match workOf s 5 with
  | some (.selftest x _ true none) => if x = d then testOutcome stResetAbort s else s
  | _ => s

/-- A flush keeps a record: PUSH, FETCH, DOORBELL, CQ_CI and REG (R401). -/
def flushed (x : SsRec) : Bool := decide (ssKind x.body ≤ 5)

/-- A side in reset (R349): a side that was at work flushes its records after CONSUMED of the last committed Move while its feed is up; a
flush that runs goes on. A start in progress makes no new flush, and the flush area keeps the first one (R401, R449). -/
def heldSide (s : State) (d : SideId) (r : SideRec) : SideRec :=
  let new := feedUp s d && decide (2 ≤ r.state) && decide (3 ≤ s.glb.mode)
  { r with state := 0, alive := false, press := false, ready := false, inReset := true
           flushing := feedUp s d && (new || r.flushing), flush := if new then s.jrn.sheet.filter flushed else r.flush
           flushWhole := r.flushWhole && !new, step := if s.glb.mode ≤ 2 then 2 else 1, failCause := 0
           fullBoot := r.fullBoot || s.glb.mode == 1, mustLoop := false }

/-- One side's reset is asserted: its Flag Fall at once, then the flush (R452). -/
def resetSide (d : SideId) (cause : Nat) (s : State) : State :=
  let r := sideOf s d
  let s := abortWork d s
  let act := workOf s 8
  let s := if pulses r then flagFall d s else s
  let s := match act with
    | some (.fwActivate x n k o) => putWork 8 (.fwActivate x n k o) s
    | _ => s
  let r' := { sideOf s d with state := r.state }
  let s := putSide s d (heldSide s d r')
  followSides { s with sides := { s.sides with mlOk := false }, glb := { s.glb with resetCause := s.glb.resetCause ||| BitVec.ofNat 32 cause } }

/-- The Flag Fall that the first of two side pins made is no cause of Safe-Hold (R554). -/
def pinCause (s : State) : State :=
  if s.glb.safePin then
    let s := { s with glb := { s.glb with safePin := false, safeCause := s.glb.safeCause &&& ~~~4#5 } }
    if faultCause s then s else clearAlarm 3 s
  else s

/-- A warm start of the part begins: both sides are reset together, without a Flag Fall (R445, R446, R554). A side that its reset holds
already goes on with its flush.
DEDUCED, log entry 58. -/
def warmStart (cause : Nat) (s : State) : State :=
  if s.glb.mode < 3 then s
  else
    let s := { s with glb := { s.glb with startBusy := true, startKind := 2, startBegan := s.time.optime, fromSafe := s.glb.mode == 11,
                                          resetCause := s.glb.resetCause ||| BitVec.ofNat 32 cause } }
    let s := { s with glb := { s.glb with fromSafe := s.glb.fromSafe && (pinCause s).glb.safeCause != 0 } }
    let s := match s.sides.holder with
      | some h => settlePending (other h) s
      | none => s
    let s := if s.sides.phase = 0 then s else abortResync s
    let s := castleOutcome stResetAbort (s.sides.holder.getD .white) (abortWork .white (abortWork .black (loseClock s)))
    let hold := fun (d : SideId) (s : State) => if (sideOf s d).inReset then s else putSide s d (heldSide s d (sideOf s d))
    let s := hold .black (hold .white s)
    let s := undoPending (pinCause s)
    toMode 2 false { s with
      sides := { s.sides with holder := none, disp := .none, castling := none, handover := .none, lsHold := false, mlOk := false,
                              stRunning := false, intrFrom := none } }

/-- The DDR5 of a side enters or leaves self-refresh. -/
def selfRefresh (d : SideId) (on : Bool) (s : State) : State :=
  match d with
  | .white => { s with ddrW := { s.ddrW with selfRefresh := on } }
  | .black => { s with ddrB := { s.ddrB with selfRefresh := on } }

/-- FLUSH_END: the records stand in the flush area with the mark, the side's DDR5 is in self-refresh, and the rim writes a summary (R401,
R403). -/
def execFlushEnd (d : SideId) (s : State) : Out :=
  .next (if (sideOf s d).flushing then
      let s := updSide d (fun r => { r with flushing := false, step := 2, flushWhole := true }) s
      writeSummary true (selfRefresh d true s)
    else s)

/-- The boot ROM's choice of a slot from the boot record (R545). -/
def chooseSlot (f : Flash) : Flash :=
  if f.confirmed then { f with running := f.active }
  else if f.tries = 0 then { f with tries := 1, gen := f.gen + 1, running := f.active }
  else { f with active := f.prev, confirmed := true, gen := f.gen + 1, running := f.prev }

/-- A warm start of one side: it returns while no side holds the Clock (R436, R445, R448). -/
def oneSideWarm (s : State) : State :=
  if s.glb.mode = 11 && s.sides.holder.isNone then
    toMode 2 false { s with glb := { s.glb with startBusy := true, startKind := 3, startBegan := s.time.optime, fromSafe := true } }
  else s

/-- The level of a side's reset pin. -/
def putPin (d : SideId) (on : Bool) (s : State) : State :=
  { s with glb := match d with
      | .white => { s.glb with rstW := on }
      | .black => { s.glb with rstB := on } }

/-- SIDE_RESET_RELEASE: the side boots. -/
def execSideResetRelease (d : SideId) (s : State) : Out :=
  .next (if !s.glb.porst then putPin d true s
    else if (sideOf s d).inReset && !(sideOf s d).flushing && feedUp s d then
      let s := updSide d (fun r => { r with state := 1, inReset := false, flag := false, healthy := true, step := 3 }) s
      let s := putPin d true { s with glb := { s.glb with safePin := false } }
      let f := { chooseSlot (flashOf s d) with fallback := false, version := 0, svn := 0, stateFmt := 0, svnCommit := false }
      oneSideWarm (putFlash (selfRefresh d false s) d f)
    else s)

/-! ### The end of a boot (R439 to R441, R446, R447, R545) -/

/-- The image that a side runs. -/
def runImage (f : Flash) (slot : Nat) (fell : Bool) (i : ImageFacts) : Flash :=
  { f with running := slot, fallback := fell, version := i.version, svn := i.svn, stateFmt := i.stateFmt, svnCommit := i.svnCommit }

/-- The image that boots: the chosen slot's, or the other's (R545). -/
def bootImage (f : Flash) (active other : ImageFacts) : Option Flash :=
  if active.verifies then some (runImage f f.running false active)
  else if other.verifies then some (runImage f (1 - f.running) true other)
  else none

/-- What training shows of a channel (R519). -/
def trainedDdr (d : SideId) : Ddr :=
  let w := (Config.ddrModule d).toNat
  { present := true, trained := true, capGib := bitsN w 16 8, ranks := bitsN w 8 2, speed := bitsN w 0 8 }

/-- Store a side's DDR5 facts. -/
def putDdr (s : State) (d : SideId) (x : Ddr) : State :=
  match d with
  | .white => { s with ddrW := x }
  | .black => { s with ddrB := x }

/-- The step at which a cause stops a boot (R439, R446). -/
def failStep (full : Bool) (cause : Nat) : Nat :=
  if full then (if cause = 1 then 3 else if cause = 2 then 4 else if cause = 3 then 5 else 6)
  else if cause = 6 then 3 else if cause = 1 then 4 else if cause = 4 then 5 else 6

/-- The side's clocks are locked. -/
def lockSide (d : SideId) (s : State) : State :=
  { s with glb := match d with
      | .white => { s.glb with lockCoreW := true, lockSchW := true }
      | .black => { s.glb with lockCoreB := true, lockSchB := true } }

/-- A side can still reach the end of its boot steps. -/
def bootsStill (s : State) (d : SideId) : Bool :=
  let r := sideOf s d
  feedUp s d && (r.state == 0 || (r.state == 1 && !r.ready))

/-- A side has ended its boot with a journal that serves. -/
def journalReady (s : State) (d : SideId) : Bool := (sideOf s d).state == 1 && (sideOf s d).ready && (sideOf s d).jrnValid

/-- A warm start gives way to a cold start once no present side can bring a journal (R447). -/
def giveUpWarm (s : State) : State :=
  let bad := fun d => (sideOf s d).state == 1 && (sideOf s d).ready && !(sideOf s d).jrnValid
  if s.glb.mode = 2 && s.sides.holder.isNone && !bootsStill s .white && !bootsStill s .black && !journalReady s .white
      && !journalReady s .black && (bad .white || bad .black) then
    let keep := fun (r : SideRec) (c : SideRec) => { c with failCause := r.failCause }
    let s := match workOf s 9 with
      | some .startWarm => endLong 9 stResetAbort 0 s
      | _ => s
    let t := coldReset 0 (abortStatuses s)
    { t with sides := { t.sides with white := keep s.sides.white t.sides.white, black := keep s.sides.black t.sides.black } }
  else s

/-- A boot fails (R440). -/
def bootFailed (d : SideId) (cause : Nat) (s : State) : State :=
  let full := (sideOf s d).fullBoot
  let s := goOut d (updSide d (fun r => { r with step := failStep full cause, failCause := cause, fullBoot := false }) s)
  if s.glb.mode = 1 then
    let o := other d
    if s.sides.holder.isNone && ((sideOf s o).state = 2 || !feedUp s o) then bypassFail s else s
  else giveUpWarm (followSides s)

/-- A boot ends well: the side is ready to press, waits, or enters RESYNC (R441, R447, R448, R350). -/
def bootReady (d : SideId) (s : State) : State :=
  let full := (sideOf s d).fullBoot
  let s := if full then putDdr s d (trainedDdr d) else s
  let good := !full && (sideOf s d).jrnValid && (sideOf s d).flushWhole && s.jrn.committed == some (sideOf s d).move
  let s := oneSideWarm (lockSide d s)
  if s.glb.mode = 2 && s.sides.holder.isNone then
    giveUpWarm (updSide d (fun r => { r with ready := true, fullBoot := false, step := 6, jrnValid := good,
                                             failCause := if good then 0 else 5 }) s)
  else
    admitWaiting (updSide d (fun r => { r with ready := true, fullBoot := false, step := if full then 6 else 5, jrnValid := false }) s)

/-- SIDE_BOOT_END: `active` and `other` are what the boot read of the chosen slot and of the other one. `bufFault`: the rim's test of the
packet buffer beside a cold start's step 5 has found a fault that the spare rows cannot repair, and the start fails (R439, R440). -/
def execSideBootEnd (d : SideId) (e : BootEnd) (active other : ImageFacts) (s : State) (bufFault : Bool := false) : Out :=
  .next (if (sideOf s d).state != 1 || (sideOf s d).ready then s
    else if bufFault && s.glb.mode == 1 then bypassFail s
    else match e with
      | .failed cause => bootFailed d cause s
      | .ready => match bootImage (flashOf s d) active other with
        | some f => bootReady d (putFlash s d f)
        | none => bootFailed d 4 s)

/-! ### The configuration load and Time Acquisition (R442, R443) -/

/-- TIME_ACQ_TIMEOUT: TACQ_MS ms of operating time have passed in Time Acquisition. -/
def execTimeAcqTimeout (s : State) : Out :=
  let n := regFld s .glbStartCfg [] 0 16
  .next (if n = 0 || s.time.optime < s.glb.acqFrom + n then s
    else if s.glb.mode = 4 then toMode (serviceMode s) false (raise evTacqTimeout s)
    else if s.glb.mode = 7 && s.glb.prev = 4 && !s.glb.tacqDone then
      raise evTacqTimeout { s with glb := { s.glb with tacqDone := true } }
    else s)

/-! ### Pins (R451 to R454, R515) -/

/-- What the store holds after a reset of the rim: the queued records are written still, but the volatile ring and what waits for it are
gone (R467, R478). DEDUCED, log entry 147. -/
def storeKept (r : Recorder) : List Rec := if r.volatile then r.store else r.store ++ r.queue

/-- The loss of both feeds loses some of the queued records, and their numbers with them: the next number stands with the last record
written (R464, R467). -/
def loseQueued (s : State) : State :=
  let (n, s) := draw s
  let k := Config.recKept n % (s.recd.queue.length + 1)
  let kept := s.recd.queue.take k
  let next := match (s.recd.queue.drop k).head?, kept.getLast? with
    | some x, some y => if newer32 y.seq x.seq then y.seq + 1 else x.seq
    | some x, none => x.seq
    | none, _ => s.recd.nextSeq
  { s with recd := { s.recd with queue := kept, nextSeq := next } }

/-- The rim is in reset: everything is at its reset value but what the recorder, the flash, the fuses and the board hold.
DEDUCED, log entry 41. -/
def porstReset (s : State) : State :=
  let z : State := {}
  let glb : Glb := { z.glb with
    porst := false, startBusy := false, startKind := 0, rstW := s.glb.rstW, rstB := s.glb.rstB, holdN := s.glb.holdN, tempW := s.glb.tempW,
    tempB := s.glb.tempB, tempRim := s.glb.tempRim, therm := s.glb.therm, feedA := s.glb.feedA, feedB := s.glb.feedB,
    selCore := s.glb.selCore, selSram := s.glb.selSram, selIo := s.glb.selIo, ref0 := s.glb.ref0, ref1 := s.glb.ref1,
    qual0 := s.glb.qual0, qual1 := s.glb.qual1, alarm := s.glb.alarm &&& 0x20 }
  let time : Time := { z.time with optime := s.time.optime, optimeSaved := s.time.optimeSaved, pwrCycles := s.time.pwrCycles }
  let recd : Recorder := { z.recd with store := storeKept s.recd, nextSeq := s.recd.nextSeq, floor := s.recd.floor, fail0 := s.recd.fail0,
                                       fail1 := s.recd.fail1, cause0 := s.recd.cause0, cause1 := s.recd.cause1,
                                       volatile := s.recd.volatile, epochSaved := s.recd.epochSaved, powerUp := none }
  bypDrive { z with
    glb := glb, time := time, recd := recd, fld := { z.fld with viof := s.fld.viof }, jrn := { z.jrn with summaries := s.jrn.summaries }
    flashW := { s.flashW with version := 0, svn := 0, stateFmt := 0, svnCommit := false }
    flashB := { s.flashB with version := 0, svn := 0, stateFmt := 0, svnCommit := false }
    bus := s.bus, free := s.free, pending := s.pending }

/-- PORST_N_ASSERT. -/
def execPorstNAssert (s : State) : Out := .next (porstReset s)

/-- The part leaves reset: Cold Start, or Bypass with HOLD_N low; network time starts from 0 under a new epoch (R87, R89, R99).
DEDUCED, log entry 38. -/
def releasePorst (s : State) : State :=
  let cold := s.glb.holdN
  let epoch := s.recd.epochSaved + 1
  bypDrive { s with
    glb := { s.glb with porst := true, relHeld := false, mode := if cold then 1 else 0, startBusy := cold
                        startKind := if cold then 1 else 0, startBegan := s.time.optime, resetCause := 1, refSel := !s.glb.ref0 }
    time := { s.time with epoch := epoch, pwrCycles := (s.time.pwrCycles + 1) % 2 ^ 32 }
    recd := { s.recd with epochSaved := epoch, powerUp := some 1 } }

/-- PORST_N_RELEASE: one made while no reference is present is held inside the part (R515). -/
def execPorstNRelease (s : State) : Out :=
  .next (if s.glb.porst || !(s.glb.feedA || s.glb.feedB) then s
    else if !(s.glb.ref0 || s.glb.ref1) then { s with glb := { s.glb with relHeld := true } }
    else releasePorst s)

/-- One side pin is low: the Flag Fall that the reset makes is a cause of Safe-Hold only while the other pin stays high (R554). -/
def pinReset (d : SideId) (cause : Nat) (s : State) : State :=
  let t := resetSide d cause s
  if t.glb.safeCause.getLsbD 2 && !s.glb.safeCause.getLsbD 2 then { t with glb := { t.glb with safePin := true } } else t

/-- SIDE_RESET_PIN_ASSERT: one pin goes low; with the other low already, the part starts warm (R451, R554). While PORST_N is low it has no
further effect than its level. -/
def execSideResetPinAssert (d : SideId) (s : State) : Out :=
  let bit := if d = .white then 2 else 4
  let t := putPin d false s
  .next (if !s.glb.porst then t
    else
      let both := if d = .white then !s.glb.rstB else !s.glb.rstW
      if both && decide (3 ≤ s.glb.mode) then warmStart bit t else pinReset d bit t)

/-- BOTH_SIDE_PINS_LOW: a warm start of the part; in a start in progress each side begins its steps again (R445, R449). -/
def execBothSidePinsLow (s : State) : Out :=
  let t := putPin .black false (putPin .white false s)
  .next (if !s.glb.porst then t
    else
      if 3 ≤ s.glb.mode then warmStart 6 t else resetSide .black 4 (resetSide .white 2 t))

/-- HOLD_N_LOW: in modes 3 to 10 it asks for Safe-Hold; in mode 11 it is one more cause (R454, R455). -/
def execHoldNLow (s : State) : Out :=
  let s := { s with glb := { s.glb with holdN := false } }
  .next (if !s.glb.porst then s
    else if 3 ≤ s.glb.mode && s.glb.mode ≤ 10 then { s with glb := { s.glb with holdReq := true } }
    else if s.glb.mode = 11 then enterSafe 0 false s
    else s)

/-- HOLD_N_HIGH: a request that has not taken effect is gone; Safe-Hold stands (R454). -/
def execHoldNHigh (s : State) : Out := .next { s with glb := { s.glb with holdN := true, holdReq := false } }

/-- AUTO_MAX. -/
def autoMax (s : State) : Nat := regFld s .glbStartCfg [] 28 4

/-- AUTO_RESET: a side has been OUT for AUTO_RESET_MS; past the limit it stays OUT (R453). -/
def execAutoReset (d : SideId) (s : State) : Out :=
  let r := sideOf s d
  .next (if r.state != 2 || regFld s .glbStartCfg [] 16 8 = 0 || !s.glb.porst then s
    else if r.autoResets < autoMax s then
      raise evAutoReset (resetSide d (16 * (1 + sideNum d)) (updSide d (fun r => { r with autoResets := r.autoResets + 1 }) s))
    else if r.limited then s
    else
      let x : RecIn := { sev := 2, kind := 8, payload := leBytes (sideNum d) 1 ++ leBytes (autoMax s) 1 ++ leBytes 0 6 }
      setAlarm 4 (offer x (updSide d (fun r => { r with limited := true }) s)))

/-! ### Registers (R459) -/

/-- GLB_MODE. DEDUCED, log entry 37. -/
def glbModeReg (s : State) : Nat :=
  fieldAt (b2n s.glb.startBusy) 31 1 + fieldAt s.glb.startKind 29 2 + fieldAt s.glb.prev 8 4 + fieldAt s.glb.mode 0 4

/-- GLB_AUTO_RESET_CNT. -/
def autoCntReg (s : State) : Nat :=
  fieldAt (min 0xFFFF s.sides.black.autoResets) 16 16 + fieldAt (min 0xFFFF s.sides.white.autoResets) 0 16

/-- GLB_PIN_STAT. -/
def pinStatReg (s : State) : Nat := fieldAt (b2n s.glb.holdN) 2 1 + fieldAt (b2n s.glb.rstB) 1 1 + fieldAt (b2n s.glb.rstW) 0 1

/-! ### Commands of group 0x0A -/

def bodyModeQuery : Body where
  act _ _ _ s := .done s (glbModeReg s + startStat s * 2 ^ 32 + s.glb.safeCause.toNat * 2 ^ 64) false

/-- MODE_QUERY. -/
def execModeQuery (h : Host) (p : Packet) (s : State) : Out := .next (runAdmin csModeQuery bodyModeQuery h p (.data []) s)

/-- A start is marked as in progress. -/
def markStart (kind : Nat) (s : State) : State :=
  { s with glb := { s.glb with startBusy := true, startKind := kind, startBegan := s.time.optime } }

/-- A warm start's own MODE_START ends because a cold start takes its place (R81, R449). -/
def dropWarm (s : State) : State :=
  let s := { s with jrn := { s.jrn with sets := s.jrn.sets.map (fun x => { x with writes := x.writes.filter (· != .startWarm) }) } }
  match workOf s 9 with
  | some .startWarm => endLong 9 stResetAbort 0 s
  | _ => s

/-- MODE_START with KIND 0. -/
def bodyStartCold : Body where
  check _ _ _ s := when (s.glb.startBusy && decide (s.glb.startKind ≤ 1)) fBusy ++
    when ((workOf s 9).isSome && workOf s 9 != some .startWarm) fBusy
  act who _ _ s :=
    let s := markStart 1 (dropWarm s)
    .start (if who.mon then s else pushSet [.startCold] s) .startCold

/-- MODE_START with KIND 1. -/
def bodyStartWarm : Body where
  check _ _ _ s := when (s.glb.mode == 0) fState ++ when (s.glb.startBusy || (workOf s 9).isSome) fBusy
  act _ _ _ s := .start (pushSet [.startWarm] (markStart 2 s)) .startWarm

/-- KIND of a MODE_START is 1. -/
def wantsWarm (p : Packet) : Bool := p.opcode == 0x0A02 && par p 0x10 1 == 1

/-- MODE_START_COLD: under the start monitor the start begins at once (R52, R450). DEDUCED, log entry 61. -/
def execModeStartCold (h : Host) (p : Packet) (s : State) : Out :=
  .next (if wantsWarm p then s
    else
      let t := runAdmin csModeStart bodyStartCold h p (.data []) s
      if monitor s && workOf s 9 != some .startCold && workOf t 9 == some .startCold then beginCold t else t)

/-- MODE_START_WARM. -/
def execModeStartWarm (h : Host) (p : Packet) (s : State) : Out :=
  .next (if wantsWarm p then runAdmin csModeStart bodyStartWarm h p (.data []) s else s)

def bodyConfigEnter : Body where
  act _ _ _ s := .start (pushSet [.lock false, .mode 3] s) (.waitSet (nextSet s))

/-- MODE_CONFIG_ENTER. -/
def execModeConfigEnter (h : Host) (p : Packet) (s : State) : Out :=
  .next (runAdmin csConfigEnter bodyConfigEnter h p (.data []) s)

def bodyConfigExit : Body where
  act _ _ _ s := .start (pushSet [.lock true, .mode 4] s) (.waitSet (nextSet s))

/-- MODE_CONFIG_EXIT. -/
def execModeConfigExit (h : Host) (p : Packet) (s : State) : Out := .next (runAdmin csConfigExit bodyConfigExit h p (.data []) s)

def bodySafeHold : Body where
  act _ _ _ s := .done (pushSet [.safeHold] s) 0 (modeSeen s != 11)

/-- MODE_SAFE_HOLD. -/
def execModeSafeHold (h : Host) (p : Packet) (s : State) : Out := .next (runAdmin csSafeHold bodySafeHold h p (.data []) s)

/-- Every rim clock is locked. -/
def rimLocked (s : State) : Bool := s.glb.lockTime && s.glb.lockField && s.glb.lockBuf && s.glb.lockHost

/-- Every cause of Safe-Hold allows MODE_RESUME, and HOLD_N is high (R455, R457). -/
def mayResume (s : State) : Bool :=
  s.glb.holdN && !s.glb.safeCause.getLsbD 3 && (!s.glb.safeCause.getLsbD 4 || rimLocked s)

def bodyResume : Body where
  check _ _ _ s := when (!mayResume s) fState
  act _ _ _ s := .start (pushSet [.resume s.glb.safeCause] s) (.waitSet (nextSet s))

/-- MODE_RESUME. -/
def execModeResume (h : Host) (p : Packet) (s : State) : Out := .next (runAdmin csResume bodyResume h p (.data []) s)

end Sys2Proof.Machine
end

