-- ==== Sys2Proof/Machine/Power.lean ====
section
/-!
DEFINITION. Machine/Power.lean: feeds, supplies, references, island clocks, temperature, field bank supplies and the host
ports' links (R500 to R518, R524, R47, R88, R488).
-/

namespace Sys2Proof.Machine

/-! ### Feeds and supplies (R500 to R504) -/

/-- The side on a feed. -/
def feedSide : Feed → SideId
  | .a => .white
  | .b => .black

/-- Set the presence of a feed. -/
def putFeed (f : Feed) (on : Bool) (s : State) : State :=
  match f with
  | .a => { s with glb := { s.glb with feedA := on } }
  | .b => { s with glb := { s.glb with feedB := on } }

/-- A side without power: its clocks are unlocked (R46). -/
def loseLocks (d : SideId) (s : State) : State := loseLock d .coreClock (loseLock d .schClock s)

/-- A side whose DDR5 has lost its contents: Move slots, flush area and all (R451). -/
def lostDdr (r : SideRec) : SideRec :=
  { r with fullBoot := true, jrnValid := false, slot0 := none, slot1 := none, flush := [], flushWhole := false }

/-- The loss of a feed is declared: its side is held in reset, and its DDR5 loses its contents (R451, R501). -/
def feedLost (f : Feed) (s : State) : State :=
  let d := feedSide f
  let s := resetSide d (if f = .a then 0x100 else 0x200) (putFeed f false s)
  let s := putDdr (updSide d lostDdr (loseLocks d s)) d {}
  raise (if f = .a then evFeedALoss else evFeedBLoss) (count .glbPwrCnt [] (if f = .a then 0 else 16) 1 s)

/-- FEED_LOSS. -/
def execFeedLoss (f : Feed) (s : State) : Out :=
  .next (if !feedUp s (feedSide f) then s else if s.glb.porst then feedLost f s else putFeed f false s)

/-- FEED_PRESENT: the side on the feed may be released (R501, R503). -/
def execFeedPresent (f : Feed) (s : State) : Out := .next (putFeed f true s)

/-- RIM_SUPPLY_FAIL: both feeds have failed, and the rim acts as if PORST_N were asserted (R504). -/
def execRimSupplyFail (s : State) : Out := .next (porstReset (loseQueued (putFeed .a false (putFeed .b false s))))

/-- SUPPLY_SELECTOR_SWITCH: 1 feed A, 2 feed B, 3 both (R500). -/
def execSupplySelectorSwitch (r : Rail) (source : Fin 4) (s : State) : Out :=
  .next (if source = 0 then s
    else match r with
      | .vcore => { s with glb := { s.glb with selCore := source.val } }
      | .vsram => { s with glb := { s.glb with selSram := source.val } }
      | .vio18 => { s with glb := { s.glb with selIo := source.val } })

/-! ### References (R511 to R513, R88) -/

/-- A reference is present. -/
def refHere (s : State) (r : Nat) : Bool := if r = 0 then s.glb.ref0 else s.glb.ref1

/-- A reference is qualified; one that is not in use only while its frequency has stayed within 200 ppm of the one in use (R511). -/
def refQual (s : State) (r : Nat) : Bool := if r = 0 then s.glb.qual0 else s.glb.qual1

/-- The reference in use. -/
def refUsed (s : State) : Nat := b2n s.glb.refSel

/-- Set presence and qualification. -/
def putRef (r : Nat) (here qual : Bool) (s : State) : State :=
  { s with glb := if r = 0 then { s.glb with ref0 := here, qual0 := qual } else { s.glb with ref1 := here, qual1 := qual } }

/-- The part switches to the other reference: for 100 ms timestamps carry HOLDOVER. -/
def switchRef (s : State) : State :=
  let s := { s with glb := { s.glb with refSel := !s.glb.refSel }, time := { s.time with refUnsure := s.time.tick + 50000000 } }
  raise evRefSwitch (count .glbClkStat [] 16 1 s)

/-- The reference in use is gone and the other one serves. -/
def mustSwitch (s : State) : Bool := !refHere s (refUsed s) && refQual s (1 - refUsed s)

/-- REF_LOST. -/
def execRefLost (r : Fin 2) (s : State) : Out :=
  let s := putRef r.val false false s
  .next (if s.glb.porst && mustSwitch s then switchRef s else s)

/-- The island clocks regain lock on a qualified reference after the loss of both; those of a side while its feed is present (R513). -/
def regainLocks (s : State) : State :=
  if s.glb.noClock && refQual s (refUsed s) then
    clearAlarm 0 { s with glb := { s.glb with
      noClock := false, lockTime := true, lockField := true, lockBuf := true, lockHost := true, lockCoreW := s.glb.feedA, lockSchW := s.glb.feedA
      lockCoreB := s.glb.feedB, lockSchB := s.glb.feedB } }
  else s

/-- REF_QUALIFIED: a switch that waited for it, the return to REFCLK0 under GLB_CLK_CFG.REVERT, or the lock that both references' loss
took. With `qual` false the reference is present and not qualified: not yet, or no longer (R511). A release of PORST_N that waited for a
reference takes place (R515). -/
def execRefQualified (r : Fin 2) (s : State) (qual : Bool := true) : Out :=
  let s := putRef r.val true qual s
  .next (if s.glb.relHeld then releasePorst s
    else if !s.glb.porst then s
    else regainLocks (if mustSwitch s || (qual && r = 0 && s.glb.refSel && regFld s .glbClkCfg [] 0 1 = 1) then switchRef s else s))

/-- A rim island clock is unlocked: ALARM_N, CLK_RIM_UNLOCK and Safe-Hold (R47, R455). -/
def rimUnlock (s : State) : State := enterSafe 4 true (raise evClkRimUnlock (setAlarm 0 s))

/-- REF_HOLD_EXPIRY: every island clock loses lock at the same moment (R513). -/
def execRefHoldExpiry (s : State) : Out :=
  .next (if s.glb.ref0 || s.glb.ref1 || !s.glb.porst then s
    else
      let s := { s with glb := { s.glb with noClock := true, lockTime := false, lockField := false, lockBuf := false, lockHost := false,
                                            lockCoreW := false, lockSchW := false, lockCoreB := false, lockSchB := false } }
      let stop := fun (r : SideRec) => if pulses r then { r with alive := false, healthy := false } else r
      rimUnlock (updSide .black stop (updSide .white stop s)))

/-- The lock of a rim island clock. -/
def rimLock (s : State) : RimIsland → Bool
  | .time => s.glb.lockTime
  | .field => s.glb.lockField
  | .buffer => s.glb.lockBuf
  | .hostIsland => s.glb.lockHost

/-- Store it. -/
def putLock (i : RimIsland) (on : Bool) (s : State) : State :=
  match i with
  | .time => { s with glb := { s.glb with lockTime := on } }
  | .field => { s with glb := { s.glb with lockField := on } }
  | .buffer => { s with glb := { s.glb with lockBuf := on } }
  | .hostIsland => { s with glb := { s.glb with lockHost := on } }

/-- RIM_CLOCK_UNLOCK. -/
def execRimClockUnlock (i : RimIsland) (s : State) : Out :=
  .next (if rimLock s i && s.glb.porst then rimUnlock (putLock i false s) else s)

/-- RIM_CLOCK_RELOCK: with every rim clock locked the cause of ALARM_N is gone. No clock locks without a reference (R513). DEDUCED, log
entry 39. -/
def execRimClockRelock (i : RimIsland) (s : State) : Out :=
  let t := putLock i true s
  .next (if !s.glb.porst || s.glb.noClock || !(s.glb.ref0 || s.glb.ref1) then s else if rimLocked t then rimStep 1 (clearAlarm 0 t) else t)

/-! ### Temperature (R524, R525) -/

/-- The register of a sensor. -/
def sensorReg : Sensor → Reg
  | .white => .glbThermW
  | .black => .glbThermB
  | .rim => .glbThermRim

/-- Store a sensor's reading, in units of 1/16 °C. -/
def putTemp (n : Sensor) (t : BitVec 16) (s : State) : State :=
  match n with
  | .white => { s with glb := { s.glb with tempW := t } }
  | .black => { s with glb := { s.glb with tempB := t } }
  | .rim => { s with glb := { s.glb with tempRim := t } }

/-- Every reading satisfies `p`. -/
def allTemps (s : State) (p : Int → Bool) : Bool := p s.glb.tempW.toInt && p s.glb.tempB.toInt && p s.glb.tempRim.toInt

/-- The level of THERM_N after a reading. -/
def thermLevel (s : State) : Bool :=
  let limit : Int := regFld s .glbThermCfg [] 0 8
  let hyst : Int := regFld s .glbThermCfg [] 8 8
  if !allTemps s (fun t => decide (t < 16 * limit)) then false
  else if allTemps s (fun t => decide (t ≤ 16 * (limit - hyst))) then true
  else s.glb.therm

/-- THERM_CROSS: a sensor reads `temp`. DEDUCED, log entry 45. -/
def execThermCross (n : Sensor) (temp : BitVec 16) (s : State) : Out :=
  let s := putTemp n temp s
  let s := if 0 < temp.toInt then countMax (sensorReg n) [] 16 temp.toNat s else s
  .next { s with glb := { s.glb with therm := thermLevel s } }

/-! ### Field bank supplies (R506) -/

/-- Store the sense of a bank. -/
def putViof (k : Nat) (v : BitVec 2) (s : State) : State := { s with fld := { s.fld with viof := tput 0 s.fld.viof k v } }

/-- The ports of a bank that State lists. -/
def bankPorts (k : Nat) (s : State) : List Nat := (s.fld.ports.map (·.1)).filter (fun n => n / 32 == k)

/-- VIOF_FAULT: the sense reads above 2.5 V where `v3v3` says so. The bank's signals are at high impedance: a frame on the bus leaves it
and stays queued, and one that is received ends early. -/
def execViofFault (k : Fin 15) (s : State) (v3v3 : Bool := false) : Out :=
  let v := tget 0 s.fld.viof k.val
  .next (if v.getLsbD 1 then
      raise evViofFault ((bankPorts k.val s).foldl (fun s n => cutField n s) (putViof k.val (BitVec.ofNat 2 (b2n v3v3)) s))
    else putViof k.val (BitVec.ofNat 2 (b2n v3v3)) s)

/-- VIOF_RECOVER: the signals resume, and what is queued may go on the bus. -/
def execViofRecover (k : Fin 15) (v3v3 : Bool) (s : State) : Out :=
  .next ((bankPorts k.val s).foldl (fun s n => startField n s) (putViof k.val (if v3v3 then 3 else 2) s))

/-! ### Host links (R488, R517, R518) -/

/-- Store a host's link. -/
def putLink (h : Nat) (l : Link) (s : State) : State := { s with pcie := tput {} s.pcie h l }

/-- A host's link changes. -/
def changeLink (h : Nat) (up : Bool) (s : State) : State :=
  if (linkOf s h).up = up then s else dmaGo (raise evHostLink (putLink h { linkOf s h with up := up } s))

/-- HOST_LINK_CHANGE. -/
def execHostLinkChange (h : Host) (up : Bool) (s : State) : Out := .next (if s.glb.porst then changeLink h.val up s else s)

/-- BUS_MASTER_ENABLE_CHANGE: the host writes its port's configuration space. DESIGN CHOICE, log entry 32. -/
def execBusMasterEnableChange (h : Host) (x : PcieCtl) (bars : Bars) (s : State) : Out :=
  .next (if (linkOf s h.val).up then dmaGo (putLink h.val { linkOf s h.val with cfg := x, bars := bars } s) else s)

/-- A vector is unmasked: the message of a Pending Bit is sent, or is blocked (R488). -/
def unmask (h v : Nat) (s : State) : State :=
  let x := vecOf s h v
  let t := putVec s h v { x with masked := false, pba := false, pbaPlain := false }
  if !x.pba then t
  else if msixBlocked s h then
    let t := count .evtBlocked [] (8 * h) 1 t
    if x.pbaPlain then raiseBlocked t else t
  else { t with bus := t.bus ++ [msixTlp h v x] }

/-- MSIX_UNMASK: a write of BAR4, which waits while the Scoresheets are full (R391). -/
def execMsixUnmask (h : Host) (v : Fin 64) (s : State) : Out := .next (if s.jrn.full then s else unmask h.val v.val s)

/-! ### The MSI-X table and the Pending Bit Array in BAR4 (R526) -/

/-- A DWORD of BAR4: entry v of the table holds the address, the data and the mask bit, as PCI Express has them; other offsets
read 0. PRESUMED, log entry 76. -/
def msixWord (s : State) (h a : Nat) : Nat :=
  let x := vecOf s h (a / 16)
  if a < 0x400 then
    if a % 16 = 0 then x.addr.toNat % 2 ^ 32
    else if a % 16 = 4 then x.addr.toNat / 2 ^ 32
    else if a % 16 = 8 then x.data.toNat
    else if a % 16 = 12 then b2n x.masked
    else 0
  else if a = 0x8000 then ((List.range 32).map (fun v => fieldAt (b2n (vecOf s h v).pba) v 1)).sum
  else if a = 0x8004 then ((List.range 32).map (fun v => fieldAt (b2n (vecOf s h (32 + v)).pba) v 1)).sum
  else 0

/-- A DWORD of a host port's configuration space: identity, BAR bases, the command bit of Bus Master Enable and the MSI-X
capability, at the offsets of PCI Express, the capability at 0x40; other offsets read 0. PRESUMED, log entry 114. -/
def configWord (s : State) (h a : Nat) : Nat :=
  let l := linkOf s h
  let i := l.ident
  let base := fun (b : BitVec 64) => b.toNat + 4
  match a with
  | 0x00 => i.deviceId.toNat * 2 ^ 16 + Config.vendorId.toNat
  | 0x04 => fieldAt (b2n l.cfg.bme) 2 1
  | 0x08 => i.classCode.toNat * 2 ^ 8 + i.revision.toNat
  | 0x10 => base l.bars.bar0 % 2 ^ 32
  | 0x14 => base l.bars.bar0 / 2 ^ 32
  | 0x18 => base l.bars.bar2 % 2 ^ 32
  | 0x1C => base l.bars.bar2 / 2 ^ 32
  | 0x20 => base l.bars.bar4 % 2 ^ 32
  | 0x24 => base l.bars.bar4 / 2 ^ 32
  | 0x34 => 0x40
  | 0x40 => 0x11 + i.msix.tableSize.toNat * 2 ^ 16 + fieldAt (b2n l.cfg.msix) 31 1
  | 0x44 => i.msix.tableAt + i.msix.tableBir.toNat
  | 0x48 => i.msix.pbaAt + i.msix.pbaBir.toNat
  | _ => 0

/-- The bytes of a DWORD whose byte enables are set take new values. -/
def mergeBytes (enables : BitVec 4) (old v : W32) : W32 :=
  let m := w32 (((List.range 4).map (fun k => if enables.getLsbD k then 0xFF * 2 ^ (8 * k) else 0)).sum)
  (old &&& ~~~m) ||| (v &&& m)

/-- A DWORD written to BAR4: clearing the mask bit of an entry unmasks its vector; other offsets ignore writes (R488, R526).
PRESUMED, log entry 76. -/
def writeMsix (h a : Nat) (enables : BitVec 4) (v : W32) (s : State) : State :=
  let n := a / 16
  let x := vecOf s h n
  let w := mergeBytes enables (w32 (msixWord s h a)) v
  if 0x400 ≤ a || a % 4 != 0 then s
  else if a % 16 = 0 then putVec s h n { x with addr := BitVec.ofNat 64 (x.addr.toNat / 2 ^ 32 * 2 ^ 32 + w.toNat) }
  else if a % 16 = 4 then putVec s h n { x with addr := BitVec.ofNat 64 (x.addr.toNat % 2 ^ 32 + w.toNat * 2 ^ 32) }
  else if a % 16 = 8 then putVec s h n { x with data := w }
  else if w.getLsbD 0 then putVec s h n { x with masked := true }
  else unmask h n s

/-! ### PERSTn_N (R517) -/

/-- Addresses of a host's CMD and QUE registers. -/
def hostBlock (h a : Nat) : Bool :=
  let at_ := fun base size => decide (base + h * size ≤ a) && decide (a < base + (h + 1) * size)
  at_ 0x100000 0x100 || at_ 0x400000 0x40 || at_ 0x410000 0x4000 || at_ 0x420000 0x4000

/-- A staged frame of an operation in `ts` goes on without it. -/
def untag (ts : List Nat) (x : Staged) : Staged :=
  match x.tag with
  | some t => if ts.contains t then { x with tag := none } else x
  | none => x

/-- The DMA channels, flow queues, staging queues and functions let the operations `ts` go. -/
def dropWork (ts : List Nat) (s : State) : State :=
  let chans := (s.dma.chans.filter (fun c => decide (8 ≤ c.1) && chanBusy c.2 && ts.contains c.2.tag)).map (·.1)
  let s := chans.foldl (fun s c => freeChan c s) s
  let s := (s.sch.flows.map (fun x => x.1)).foldl (dropFlow ts) s
  let wire := fun (w : OnWire) => { w with item := untag ts w.item }
  let gates := s.gate.map (fun g => (g.1, { g.2 with
    staged := g.2.staged.map (fun l => (l.1, l.2.map (untag ts))), back := g.2.back.map (fun l => (l.1, l.2.map (untag ts)))
    wire := g.2.wire.map wire, cut := g.2.cut.map wire }))
  let named := fun (t : Option Nat) => match t with
    | some k => ts.contains k
    | none => false
  let aggs := s.fld.aggs.map (fun a => (a.1, { a.2 with
    building := a.2.building.filter (fun b => !named b.tag), scattered := a.2.scattered.filter (fun b => !named b.tag) }))
  { s with gate := gates, fld := { s.fld with aggs := aggs }
           jrn := { s.jrn with departs := s.jrn.departs.map (fun d => (d.1, d.2.1, untag ts d.2.2.1, d.2.2.2))
                               since := s.jrn.since.map (fun d => (d.1, d.2.1, d.2.2.1, untag ts d.2.2.2))
                               dueCqe := s.jrn.dueCqe.filter (fun d => !ts.contains d.tag) } }

/-- Bytes of the frames of an operation that are staged, on the wire, cut, or departed and not consumed. -/
def stagedBytes (s : State) (t : Nat) : Nat :=
  let n := fun (x : Staged) => if x.tag = some t then x.bytes.length else 0
  (s.gate.map (fun g => ((g.2.staged ++ g.2.back).map (fun l => (l.2.map n).sum)).sum
      + (match g.2.wire with | some w => n w.item | none => 0)
      + (match g.2.cut with | some w => n w.item | none => 0))).sum
  + (s.jrn.departs.map (fun d => n d.2.2.1)).sum

/-- What the sides do at the record of PERSTn_N: host `h`'s work ends, its queues go, its registers are at reset. What its staged
frames hold stays held by them until they have left; the rest is free once this Move has committed (R27, R517). DEDUCED, log
entry 47. -/
def perstSide (h : Nat) (s : State) : State :=
  let mine := s.que.ops.filter (fun o => o.2.host == h)
  let s := mine.foldl (fun s o =>
    let k := min o.2.held (stagedBytes s o.1)
    freeLater (heldUse o.2) (o.2.held - k) (freeNow (heldUse o.2) k s)) s
  let s := dropWork (mine.map (fun o => o.1)) s
  { s with
    regs := s.regs.filter (fun r => !hostBlock h r.1), ctrs := s.ctrs.filter (fun c => !hostBlock h (c.1 / 32))
    que := { s.que with
      sqs := s.que.sqs.filter (fun x => x.1 / 1024 != h), cqs := s.que.cqs.filter (fun x => x.1 / 1024 != h),
      oldSqs := s.que.oldSqs.filter (fun x => x.1 / 1024 != h), oldCqs := s.que.oldCqs.filter (fun x => x.1 / 1024 != h),
      ops := s.que.ops.filter (fun o => o.2.host != h), quota := s.que.quota.set h 32768, round := tdel s.que.round h }
    cmd := { s.cmd with
      hosts := tdel s.cmd.hosts h, waiting := s.cmd.waiting.filter (fun w => w.1 != h),
      running := s.cmd.running.map (fun r => (r.1, { r.2 with dead := r.2.dead || (r.2.host == h && !r.2.cfg) })),
      dueStatus := s.cmd.dueStatus.filter (fun d => d.host != h) }
    jrn := { s.jrn with heldReads := s.jrn.heldReads.filter (fun x => x.1 != h) } }

/-- What the rim does at the assertion: link, MSI-X table, Pending Bits, event status copy and routes. -/
def perstRim (h : Nat) (s : State) : State :=
  let s := putLink h {} (changeLink h false s)
  let routes := fun (a : Nat) => decide (0x1F01000 + h * 0x400 ≤ a) && decide (a < 0x1F01000 + (h + 1) * 0x400)
  let vecs := s.evt.vecs.foldl (fun (t : Tab Vec) v =>
    if v.1 / 64 = h then tput {} t v.1 { pending := v.2.pending } else tput {} t v.1 v.2) []
  { s with regs := s.regs.filter (fun r => !routes r.1), evt := { evtPut s.evt h 0 with vecs := vecs } }

/-- PERST_ASSERT: recorded in both Scoresheets; under the start monitor, which keeps none, the host's part acts at once. -/
def execPerstAssert (h : Host) (s : State) : Out :=
  .next (if !s.glb.porst then s
    else
      let s := perstRim h.val s
      if monitor s then perstSide h.val s 
      else keepReg (.perst h.val) s)

end Sys2Proof.Machine
end

