-- ==== Sys2Proof/Machine/Firmware.lean ====
section
/-!
DEFINITION. Machine/Firmware.lean: firmware images, their verification and the commands of group 0x09 (R539 to R550, R80).
-/

namespace Sys2Proof.Machine

/-! ### Boot record and registers (R541, R549) -/

/-- State of a slot: 0 invalid, 1 written, 2 verified. -/
def slotState (f : Flash) (slot : Nat) : Nat := if slot = 0 then f.st0 else f.st1

/-- The boot record with a slot's state changed: a new generation. -/
def markSlot (slot st : Nat) (f : Flash) : Flash :=
  let f := { f with gen := f.gen + 1 }
  if slot = 0 then { f with st0 := st } else { f with st1 := st }

/-- GLB_FW_SLOT. -/
def fwSlotReg (f : Flash) : Nat :=
  fieldAt (f.st0 + 4 * f.st1) 28 4 + fieldAt (b2n f.confirmed) 9 1 + fieldAt (b2n f.fallback) 8 1 + fieldAt (min 15 f.tries) 4 4
    + fieldAt f.prev 1 1 + fieldAt f.running 0 1

/-- GLB_FW_INFO. -/
def fwInfoReg (f : Flash) : Nat := fieldAt f.stateFmt.toNat 16 16 + f.svn.toNat

/-- GLB_FW_SVN_MIN. -/
def svnMinOf (f : Flash) (d : SideId) : BitVec 16 := f.svnMin.getD (Config.svnFuse d)

/-! ### Verification (R542, R543) -/

/-- The header of the image at an offset of a slot. -/
def imageHeader (f : Flash) (slot off : Nat) : List Byte := slotBytes f slot off 0x1000

/-- Every byte of a range is zero. -/
def zeroAt (l : List Byte) (off n : Nat) : Bool := leAt l off n == 0

/-- First check of R543. `kind` is 1 for firmware, 2 for configuration. -/
def headerOk (kind : Nat) (l : List Byte) : Bool :=
  let len := leAt l 0x10 4
  let flags := leAt l 0x14 4
  leAt l 0 4 == 0x4D495A53 && leAt l 4 2 == 1 && leAt l 6 2 == kind
    && (if kind = 1 then decide (4096 ≤ len) && decide (len ≤ 8384512) && (flags == 0 || flags == 2) && zeroAt l 0x1C 4
        else decide (72 ≤ len) && decide (len ≤ 1044480) && decide (flags ≤ 1) && decide (72 * leAt l 0x1C 4 ≤ len)
          && zeroAt l 0x0E 2 && zeroAt l 0xB1 97)
    && decide (byteAt l 0x18 ≤ 3) && zeroAt l 0x19 3 && zeroAt l 0x112 238 && zeroAt l 0x260 3488

/-- Root entry `k` is present, not revoked, and holds the hash of the key. -/
def rootOk (k : Nat) (key : List Byte) : Bool :=
  Config.keyFuses.getLsbD k && !Config.keyFuses.getLsbD (k + 4) && beVal (sha384 key) == (Config.rootHash (Fin.ofNat 4 k)).toNat

/-- An image at an offset of a slot verifies (R543). -/
def imageOk (f : Flash) (d : SideId) (slot off kind : Nat) : Bool :=
  let l := imageHeader f slot off
  let key := slice l 0x50 97
  headerOk kind l && rootOk (byteAt l 0x18) key && decide ((svnMinOf f d).toNat ≤ leAt l 0x0C 2)
    && p384Verify key (sha384 (l.take 0x200)) (slice l 0x200 96)
    && sha384 (slotBytes f slot (off + 0x1000) (leAt l 0x10 4)) == slice l 0x20 48

/-- A slot passes FW_VERIFY: its firmware image, and its configuration image where its MAGIC is present, under the same
root entry. -/
def slotOk (f : Flash) (d : SideId) (slot : Nat) : Bool :=
  let fw := imageHeader f slot 0
  let cfg := imageHeader f slot 0xF00000
  imageOk f d slot 0 1 && (leAt cfg 0 4 != 0x4D495A53 || (imageOk f d slot 0xF00000 2 && byteAt cfg 0x18 == byteAt fw 0x18))

/-! ### Commands of group 0x09 -/

/-- The side has loaded an image. -/
def loadedImage (s : State) (d : SideId) : Bool := (sideOf s d).ready || decide (3 ≤ (sideOf s d).state) || (flashOf s d).version != 0

/-- Low half of GLB_FW_SLOT for FW_QUERY. -/
def fwSlotHalf (s : State) (d : SideId) : Nat :=
  if monitor s && !loadedImage s d then 0 else fwSlotReg (flashOf s d) % 65536

def bodyFwQuery : Body where
  act _ _ _ s := .done s (s.flashW.version.toNat + s.flashB.version.toNat * 2 ^ 32 + fwSlotHalf s .white * 2 ^ 64
    + fwSlotHalf s .black * 2 ^ 80) false

/-- FW_QUERY. -/
def execFwQuery (h : Host) (p : Packet) (s : State) : Out := .next (runAdmin csFwQuery bodyFwQuery h p (.data []) s)

/-- SIDE of a command of this group. -/
def fwSide (p : Packet) : SideId := sideFrom (par p 0x10 1)

/-- SLOT of a command of this group. -/
def fwSlot (p : Packet) : Nat := par p 0x11 1

/-- The named side is in STANDBY, RESYNC, SELF_TEST or LOCKSTEP (R547). -/
def fwState (p : Packet) (s : State) : List Finding :=
  when (!([3, 4, 6, 7] : List Nat).contains (sideOf s (fwSide p)).state) (fStateAt 0x10)

/-- In Lockstep mode the named side leaves step, and the part goes on in Solo mode (R547). DEDUCED, log entry 48. -/
def leaveStep (d : SideId) (s : State) : State :=
  if (sideOf s d).state = 7 then followSides (goOut d (leaveState d stState s)) else s

def bodyFwWrite : Body where
  check _ p _ s :=
    fwState p s ++ when (fwSlot p == (flashOf s (fwSide p)).active) (fStateAt 0x11)
    ++ when (par p 0x14 4 % 4096 != 0) (fParam 0x14) ++ when (decide (16777216 < par p 0x14 4 + ibLen p 0x18)) (fRange 0x14)
  act _ p l s :=
    let d := fwSide p
    let s := leaveStep d s
    .start (putFlash s d (markSlot (fwSlot p) 0 (flashOf s d))) (.fwWrite d (fwSlot p) (par p 0x14 4) l)

/-- FW_WRITE: the slot is invalid from here on (R67). -/
def execFwWrite (h : Host) (p : Packet) (ib : ReadEnd) (s : State) : Out := .next (runAdmin csFwWrite bodyFwWrite h p ib s)

/-- The 4 KiB sectors are erased and the bytes are programmed; the slot is written. -/
def writeSlotBytes (d : SideId) (slot off : Nat) (l : List Byte) (s : State) : State :=
  let f := flashOf s d
  let all := l ++ List.replicate (4096 * divUp l.length 4096 - l.length) 0xFF
  putFlash s d (markSlot slot 1 { f with cells := writeCells 0xFF f.cells (slotBase slot + off) all })

/-- A dry run reports what the verification would (R53). -/
def bodyFwVerify : Body where
  check _ p _ s := fwState p s ++ when (slotState (flashOf s (fwSide p)) (fwSlot p) == 0) (fStateAt 0x11)
    ++ when (dryRun p && !slotOk (flashOf s (fwSide p)) (fwSide p) (fwSlot p)) fIntegrity
  act _ p _ s := .start (leaveStep (fwSide p) s) (.fwVerify (fwSide p) (fwSlot p))

/-- FW_VERIFY. -/
def execFwVerify (h : Host) (p : Packet) (s : State) : Out := .next (runAdmin csFwVerify bodyFwVerify h p (.data []) s)

/-- STATE_FMT of the firmware image in a slot. -/
def slotFmt (f : Flash) (slot : Nat) : BitVec 16 := BitVec.ofNat 16 (leAt (imageHeader f slot 0) 0x0E 2)

/-- STATE_FMT of the holder's image. -/
def holderFmt (s : State) : BitVec 16 :=
  match s.sides.holder with
  | some h => (flashOf s h).stateFmt
  | none => 0

def bodyFwActivate : Body where
  check _ p _ s :=
    let f := flashOf s (fwSide p)
    let fmt := slotFmt f (fwSlot p)
    fwState p s ++ when (slotState f (fwSlot p) != 2 || (fmt != holderFmt s && fmt != holderFmt s + 1)) (fStateAt 0x11)
  act _ p _ s :=
    let d := fwSide p
    let s := leaveStep d s
    let f := flashOf s d
    let f := { f with active := fwSlot p, prev := f.active, confirmed := false, tries := 0, gen := f.gen + 1 }
    .start (pushSet [.fwReset d] (putFlash s d f)) (.fwActivate d (fwSlot p) (nextSet s) none)

/-- FW_ACTIVATE: the boot record is written, and the rim resets the side with the set that follows the commit. -/
def execFwActivate (h : Host) (p : Packet) (s : State) : Out := .next (runAdmin csFwActivate bodyFwActivate h p (.data []) s)

end Sys2Proof.Machine
end

