-- ==== Sys2Proof/Machine/Sets.lean ====
section
/-!
DEFINITION. Machine/Sets.lean: the rim takes the numbered sets of the active side (R65, R551, R23).
-/

namespace Sys2Proof.Machine

/-- The rim resets the side that does not hold the Clock (R379). -/
def rimResetStandby (s : State) : State :=
  match s.sides.holder with
  | some h => resetSide (other h) 8 s
  | none => s

/-- The rim leaves Safe-Hold, whose causes at the execution of MODE_RESUME are `causes`: it enters mode 4 (R457). One that has come since,
or a rim clock that has lost lock again, takes it back; a low HOLD_N asks for it at the next marker (R454, R455). DEDUCED, log entry
144. -/
def rimResume (causes : BitVec 5) (s : State) : State :=
  if s.glb.mode != 11 then s
  else
    let new := (s.glb.safeCause &&& ~~~causes &&& ~~~1#5) ||| (if rimLocked s then 0 else s.glb.safeCause &&& 16#5)
    let s := clearAlarm 3 { s with glb := { s.glb with safeCause := 0, safePin := false, holdReq := !s.glb.holdN } }
    let s := toMode 4 false (safeFields (safePorts s false) false)
    if new = 0 then acquired s
    else
      let s := { s with glb := { s.glb with safeCause := new } }
      goSafe (faultCause s) (if faultCause s then setAlarm 3 s else s)

/-- The rim takes a mode: 3, 4, or a service mode (R435, R436, R443). A Castling that runs takes it at its end; the part stays in mode 1
while the configuration load runs (R442). -/
def rimMode (m : Nat) (s : State) : State :=
  if s.glb.cfgLoad then s
  else if s.glb.mode = 7 && (m = 3 || m = 4) then { s with glb := { s.glb with castleMode := some m } }
  else if m = 3 then toMode 3 false s
  else if m = 4 then acquired (toMode 4 false s)
  else if s.glb.mode = 7 then { s with glb := { s.glb with tacqDone := true } }
  else if s.glb.mode = 4 then toMode (serviceMode s) false s
  else s

/-- Firmware clears bits of its status copy (R485). -/
def rimFwClear (w : Nat) (v : W32) (s : State) : State :=
  { s with evt := { s.evt with fw := s.evt.fw &&& ~~~(BitVec.ofNat 256 (v.toNat * 2 ^ (32 * w))) } }

/-- The rim takes a route table: for the frames that arrive from now on (R65, R72). -/
def rimRoutes (t : Tab (BitVec 64)) (s : State) : State :=
  let s := noteKeeps s
  { s with fab := { s.fab with routes := t } }

/-- One rim write. -/
def rimWrite (s : State) (w : RimWrite) : State :=
  match w with
  | .raise src => raise src s
  | .bump key n => bumpW key (ckeyWidth key) n s
  | .record r => offer r s
  | .tape p t start => rimTape p t start s
  | .tapeCancel p => rimTapeCancel p s
  | .gateClass p t pre us => rimGateClass p t pre us s
  | .gateClose p fit => rimGateClose p fit s
  | .portSet p speed iface maxlen bad eee => rimPortSet p speed iface maxlen bad eee s
  | .portEnable p en => rimPortEnable p en s
  | .portFilter p i valid mac => rimPortFilter p i valid mac s
  | .portEeeMargin p ns => putPort s p { portOf s p with margin := ns }
  | .portPeer p tw f => rimPortPeer p tw f s
  | .portRecal p => rimPortRecal p s
  | .fldSet n x => putFld s n { fldOf s n with next := some x }
  | .timeStep off => rimTimeStep off s
  | .timeRate adj => rimTimeRate adj s
  | .pps o i width => rimPps o i width s
  | .lock on => { s with glb := { s.glb with locked := on } }
  | .mode m => rimMode m s
  | .safeHold => enterSafe 1 false s
  | .resume causes => rimResume causes s
  | .resetStandby => rimResetStandby s
  | .fwReset d => resetSide d 8 s
  | .bypassForce k on => rimBypassForce k on s
  | .fabEnable en given st id => rimFabEnable en given st id s
  | .routeTable t => rimRoutes t s
  | .clearFloor host => rimClearFloor host s
  | .privCopy h => { s with glb := { s.glb with privCopy := h } }
  | .startCold => beginCold s
  | .startWarm => warmStart 0x80 s
  | .evtFwClear w v => rimFwClear w v s
  | .sqPage h q on => rimSqPage h q on s
  | .cqPage h c on => rimCqPage h c on s

/-- RIM_SET_APPLY: side `d` writes its oldest set whose Move has committed, and the rim takes it whole, once: what a
write does at a frame boundary of a port waits in the port (R65). A side that may not write to the rim writes nothing, and is
counted (R23, R45). DEDUCED, log entry 7. -/
def execRimSetApply (s : State) (d : SideId := .white) : Out :=
  .next (if !mayWrite d s then gatedWrite d s
    else match s.jrn.sets with
    | [] => s
    | x :: rest =>
      if !committed s x.move then s
      else
        let t := { s with jrn := { s.jrn with sets := rest, setTaken := max s.jrn.setTaken x.num } }
        if x.num ≤ s.jrn.setTaken then t else x.writes.foldl rimWrite t)

end Sys2Proof.Machine
end

