-- ==== Sys2Proof/Machine/Readout.lean ====
section
/-!
DEFINITION. Machine/Readout.lean: what each register of BAR0 returns: the RO and W1C fields that the part computes from
its state, with the stored RW and RWL fields and the reader's own counts (R530).
-/

namespace Sys2Proof.Machine

/-! ### Fields of single registers -/

/-- SIDE_ISLAND_LOCK (R47). -/
def islandLockReg (s : State) : Nat :=
  let g := s.glb
  fieldAt (b2n g.refSel) 8 1 + fieldAt (b2n g.lockTime) 7 1 + fieldAt (b2n g.lockField) 6 1 + fieldAt (b2n g.lockBuf) 5 1
    + fieldAt (b2n g.lockHost) 4 1 + fieldAt (b2n g.lockSchB) 3 1 + fieldAt (b2n g.lockCoreB) 2 1
    + fieldAt (b2n g.lockSchW) 1 1 + fieldAt (b2n g.lockCoreW) 0 1

/-- The RO and AQ_EN bits of CMD_AQ_CFG (R82, R83). -/
def aqCfgReg (s : State) (h : Nat) : Nat :=
  let a := aqOf s h
  fieldAt (b2n a.en) 31 1 + fieldAt (b2n (aqBusy s h)) 30 1 + fieldAt (b2n a.cfgErr) 29 1

/-- CMD_AQ_LAST. -/
def aqLastReg (s : State) (h : Nat) : Nat := fieldAt (aqOf s h).lastStatus 24 8 + (aqOf s h).lastOpcode.toNat

/-- CMD_READY (R84); right after reset it shows mode 1 by R434 and R459. DEDUCED, log entry 102. -/
def cmdReadyReg (s : State) : Nat :=
  fieldAt s.glb.mode 2 4 + fieldAt (b2n (monitor s)) 1 1 + fieldAt (b2n (cmdReady s)) 0 1

/-- A word of DMA_POOL_CAND. -/
def candReg (s : State) (i : Nat) : Nat := bitsN s.dma.cand.toNat (32 * i) 32

/-- SCH_CLASS_STAT. -/
def classStatReg (s : State) (p t : Nat) : Nat :=
  let fs := s.sch.flows.filter (fun x => x.2.en && x.2.port == p && x.2.tc == t)
  fieldAt fs.length 22 10 + fieldAt (fs.filter (fun x => !x.2.elems.isEmpty)).length 12 10
    + fieldAt (stagedOf s p t).length 0 5

/-- A flow queue with the settings whose Moves have committed, which its registers show (R221). -/
def flowShown (s : State) (f : Nat) : FlowQ := takeShape s (elapsed s) (takeShare s (flowOf s f))

/-- SCH_FLOW_CFG. -/
def flowCfgReg (s : State) (f : Nat) : Nat :=
  let x := flowShown s f
  fieldAt (b2n x.en) 31 1 + fieldAt x.port 24 5 + fieldAt x.tc 21 3 + fieldAt x.weight 0 16

/-- Bytes that an element holds and that are not staged: a stream's payload that is still to be sent. DESIGN
CHOICE, log entry 110. -/
def elemBytes (s : State) (e : Elem) : Nat :=
  match e.kind, e.tag with
  | .stream, some t => ((opOf s t).map (fun o => o.payLen - o.sentBytes)).getD 0
  | _, _ => e.bytes.length

/-- SCH_FLOW_DEPTH_KB. -/
def flowKbReg (s : State) (f : Nat) : Nat := divUp ((flowOf s f).elems.map (elemBytes s)).sum 1024

/-- GATE_STATUS. -/
def gateStatusReg (s : State) (p : Nat) : Nat :=
  let g := gateOf s p
  fieldAt (b2n g.pend.isSome) 31 1 + fieldAt (b2n g.fill.isSome) 30 1 + fieldAt (b2n g.hold) 29 1
    + fieldAt (b2n g.bank) 28 1 + fieldAt g.entry 16 10 + (gatesNow g).toNat

/-- The entries of the pending tape. -/
def pendTape (s : State) (p : Nat) : List TapeEntry := ((gateOf s p).pend.map (·.tape)).getD []

/-- GATE_SWITCH: the first Midnight of the pending tape, 0 when none. -/
def gateSwitchVal (s : State) (p : Nat) : Nat :=
  if (gateOf s p).pend.isSome then switchMidnight s (gateOf s p) else 0

/-- GATE_MM_STAT. -/
def mmStatReg (s : State) (p : Nat) : Nat :=
  fieldAt (addFragUsed s p) 6 2 + fieldAt (gateOf s p).peerFrag.toNat 4 2 + fieldAt (b2n (preActive s p)) 3 1
    + fieldAt (verifyState s p) 0 3

/-- W0 and W1 of a tape entry: 0 past the tape's end. -/
def tapeW0 (t : List TapeEntry) (e : Nat) : Nat := ((t[e]?).map (·.duration)).getD 0
def tapeW1 (t : List TapeEntry) (e : Nat) : Nat := ((t[e]?).map (fun x => x.action.toNat * 256 + x.gates.toNat)).getD 0

/-- The filter entry of a port: bit 48 is VALID; byte 0, the first on the wire, lies lowest. -/
def filterBytes (s : State) (p i : Nat) : List Byte := leBytes ((tget 0 (portOf s p).filters i).toNat % 2 ^ 48) 6
def filterW0 (s : State) (p i : Nat) : Nat := leAt (filterBytes s p i) 0 4
def filterW1 (s : State) (p i : Nat) : Nat :=
  fieldAt (b2n ((tget 0 (portOf s p).filters i).getLsbD 48)) 31 1 + leAt (filterBytes s p i) 4 2

/-- FLD_AGG_CFG. -/
def aggCfgReg (s : State) (a : Nat) : Nat :=
  let x := aggOf s a
  fieldAt (b2n (x.kind != 0)) 31 1 + fieldAt x.kind 29 2 + fieldAt (b2n (bitN (byteAt x.body 1) 0)) 28 1 + x.runCnt.toNat

/-- FLD_IMG: four window bytes. -/
def fldImgReg (s : State) (n w : Nat) : Nat :=
  leVal ((List.range 4).map (fun k => BitVec.ofNat 8 (fldWindow s (256 * n + 4 * w + k))))

/-- One feed's half of GLB_PWR_STAT: a present feed has its good signal and its supplies within limits. -/
def feedBits (on : Bool) : Nat := if on then 0xCF else 0

/-- GLB_PWR_STAT and GLB_PWR_SEL. DEDUCED, log entry 21. -/
def pwrStatReg (s : State) : Nat := feedBits s.glb.feedB * 256 + feedBits s.glb.feedA
def pwrSelReg (s : State) : Nat := fieldAt s.glb.selIo 4 2 + fieldAt s.glb.selSram 2 2 + fieldAt s.glb.selCore 0 2

/-- GLB_CLK_DIFF: 0 when the reference that is not in use is absent; within 200 ppm while it is qualified (R511). -/
def clkDiffReg (s : State) : Nat :=
  let d := (Config.clkDiff s.time.tick).toInt
  if !refHere s (1 - refUsed s) then 0
  else if refQual s (1 - refUsed s) then (BitVec.ofInt 32 (d.tmod 200001)).toNat
  else (BitVec.ofInt 32 d).toNat

/-- GLB_CLK_STAT without SWITCHES. -/
def clkStatReg (s : State) : Nat :=
  fieldAt (b2n (decide (200000 < (BitVec.ofNat 32 (clkDiffReg s)).toInt.natAbs))) 4 1
    + fieldAt (b2n s.glb.qual1) 3 1 + fieldAt (b2n s.glb.qual0) 2 1
    + fieldAt (b2n s.glb.ref1) 1 1 + fieldAt (b2n s.glb.ref0) 0 1

/-- GLB_DDR_W and GLB_DDR_B. -/
def ddrReg (x : Ddr) : Nat :=
  fieldAt (b2n x.present) 31 1 + fieldAt (b2n x.trained) 30 1 + fieldAt x.capGib 16 8 + fieldAt x.ranks 8 2 + fieldAt x.speed 0 8

/-- GLB_DDR_USABLE: the smaller of the two capacities (R520). -/
def ddrUsableReg (s : State) : Nat :=
  if !s.ddrW.trained then s.ddrB.capGib % 256 else if !s.ddrB.trained then s.ddrW.capGib % 256
  else min s.ddrW.capGib s.ddrB.capGib % 256

/-- SIDE_JRN_WARM. -/
def warmReg (s : State) : Nat := fieldAt (min 0xFFFF s.jrn.rxDropped) 16 16 + fieldAt (min 0xFFFF s.jrn.txAgain) 0 16

/-- EVT_STAT of a reader: its own copy. -/
def evtOf (s : State) : Reader → BitVec 256
  | .host h => evtCopy s.evt h.val
  | .firmware => s.evt.fw

/-- EVT_HOST_LINK. -/
def hostLinkReg (s : State) : Nat :=
  ([0, 1, 2, 3].map (fun h => fieldAt (b2n (linkOf s h).up) h 1)).sum

/-- The flash of the side with a number. -/
def flashAt (s : State) (d : Nat) : Flash := flashOf s (sideFrom d)

/-! ### Full values of the LO and HI pairs (R531) -/

/-- The value that a LO and HI pair shows, by its LO register. DEDUCED, log entry 14. -/
def pairVal (s : State) (g : Reg) (is : List Nat) : Option Nat :=
  let i := is.getD 0 0
  match g with
  | .timeNowLo => some (netNs s)
  | .timeOptimeLo => some s.time.optime
  | .timePpsInLo => some s.time.ppsCapture.toNat
  | .dmaPoolErrLo => some s.dma.err.addr.toNat
  | .dmaPchErrLo => some (tget {} s.dma.pch i).addr.toNat
  | .schClassVtLo => some (vtOf s i (is.getD 1 0))
  | .schFlowCreditLo => some (twosN (flowOf s i).credit 48)
  | .schFlowTagLo => some (flowOf s i).tag
  | .gateMidnightLo => some (gateOf s i).midnight
  | .gateSwitchLo => some (gateSwitchVal s i)
  | .sideLastGrantLo => some s.sides.lastGrant.toNat
  | .fabUidLo => some Config.uid.toNat
  | _ => none

/-- The HI register of a pair returns the reader's latch. -/
def isLatched (g : Reg) : Bool :=
  [Reg.timeNowHi, .timeNowEpoch, .timeOptimeHi, .timePpsInHi, .timePpsInEpoch, .timeTxtsPop1, .timeTxtsPop2, .timeTxtsPop3,
   .dmaPoolErrHi, .dmaPchErrHi, .schClassVtHi, .schFlowCreditHi,
   .schFlowTagHi, .gateMidnightHi, .gateSwitchHi, .portCntHi, .sideLastGrantHi, .fabUidHi].contains g

/-- A read of the LO word loads the latch with the HI word of the same moment; those of network times also hold the epoch
(R116). -/
def loadLatch (r : Reader) (g : Reg) (is : List Nat) (s : State) : State :=
  match pairVal s g is with
  | none => s
  | some v =>
    let s' := latchPut r (regAddr g is + 4) (bitsN v 32 32) s
    if g = .timeNowLo then latchPut r (regAddr g is + 8) s.time.epoch.toNat s'
    else if g = .timePpsInLo then latchPut r (regAddr g is + 8) s.time.ppsEpoch.toNat s'
    else s'

/-! ### Every register -/

/-- The RO and W1C fields, those that the part holds outside the register store. -/
def roVal (s : State) (r : Reader) (g : Reg) (is : List Nat) : Nat :=
  let i := is.getD 0 0
  let k := is.getD 1 0
  let a := s.recd
  match g with
  | .sideIslandLock => islandLockReg s
  | .cmdAqCfg => aqCfgReg s i
  | .cmdAqLast => aqLastReg s i
  | .cmdReady => cmdReadyReg s
  | .cmdPriv => s.cmd.priv % 4
  | .cmdGen => (tget 0 s.cmd.gens i).toNat
  | .timeStatus => timeStatusReg s
  | .timeAdj => twosN s.time.adj 32
  | .timePwrCycles => s.time.pwrCycles
  | .timeDomStat => timeDomStatReg s i
  | .timeDomOffset => timeDomOffsetReg s i
  | .timeDomRate => timeDomRateReg s i
  | .timeTxtsStat => timeTxtsStatReg s i
  | .queHostQuota => quotaOf s i
  | .queHostTags => tagsHeld s i
  | .queTagsFree => tagsFree s
  | .queSqCfg => sqCfgReg s i k
  | .queSqStat => sqStatReg s i k
  | .queCqCfg => cqCfgReg s i k
  | .queCqStat => cqStatReg s i k
  | .queCqResv => cqResvReg s i k
  | .dmaPoolStat => dmaPoolStatReg s
  | .dmaPoolErrInfo => dmaPoolErrInfoReg s
  | .dmaPoolCand => candReg s i
  | .dmaPchErrInfo => dmaPchErrInfoReg s i
  | .dmaChStat => dmaChStatReg s i
  | .dmaChPos => (chanOf s i).pos % 2 ^ 25
  | .dmaChOwner => dmaChOwnerReg s i
  | .dmaChResid => (chanOf s i).resid % 2 ^ 25
  | .schStatus => (s.sch.flows.filter (fun x => x.2.en)).length
  | .schClassStat => classStatReg s i k
  | .schFlowCfg => flowCfgReg s i
  | .schFlowRate => (flowShown s i).rate
  | .schFlowBurst => (flowShown s i).burst
  | .schFlowOvh => twosN (flowShown s i).overhead 8
  | .schFlowDepth => (flowOf s i).elems.length
  | .schFlowDepthKb => flowKbReg s i
  | .gateStatus => gateStatusReg s i
  | .gateCycle => cycleOf (gateOf s i).tape
  | .gateEntries => fieldAt (pendTape s i).length 16 11 + (gateOf s i).tape.length
  | .gateClassCfg => fieldAt (b2n (gateOf s i).fit) 16 1 + (gateOf s i).pre.toNat
  | .gateMaxHold => tget 1000000 (gateOf s i).maxHold k
  | .gateMmStat => mmStatReg s i
  | .gateTapeRunW0 => tapeW0 (gateOf s i).tape k
  | .gateTapeRunW1 => tapeW1 (gateOf s i).tape k
  | .gateTapePendW0 => tapeW0 (pendTape s i) k
  | .gateTapePendW1 => tapeW1 (pendTape s i) k
  | .portCfg => portCfgReg s i
  | .portStatus => portStatusReg s i
  | .portBufStat => divUp (portOf s i).held 1024
  | .portEeeCfg => (portOf s i).margin * 65536
  | .portEeeStat => portEeeStatReg s i
  | .portInbandStat => portInbandReg s i
  | .portRecalStat => portRecalReg s i
  | .portFilterW0 => filterW0 s i k
  | .portFilterW1 => filterW1 s i k
  | .strmStatus => (tableNow s).length
  | .strmHStat => strmHStat s i
  | .strmMCfg => fieldAt (b2n (meterOf s i).coupled) 1 1 + fieldAt (b2n (meterOf s i).aware) 0 1
  | .strmMCir => (meterOf s i).cir
  | .strmMEir => (meterOf s i).eir
  | .strmMCbs => (meterOf s i).cbs
  | .strmMEbs => (meterOf s i).ebs
  | .strmMTc => (meterNow s i).tc / 1000
  | .strmMTe => (meterNow s i).te / 1000
  | .strmGCfg => strmGCfg s i
  | .strmGSeq => (tget {} (gensSet s) i).next.toNat
  | .strmRCfg => strmRCfg s i
  | .strmRState => strmRState s i
  | .strmIdEntry => bitsN ((tableNow s).getD i 0).toNat (32 * k) 32
  | .fldPortCfg => fldCfgReg s i
  | .fldPortSetw => bitsN (fldOf s i).cfg.settings.toNat (32 * k) 32
  | .fldPortStat => fldStatReg s i
  | .fldPortErr => fldErrReg s i
  | .fldTxqEnq => (fldOf s i).enq.toNat
  | .fldBankStat => (tget 0 s.fld.viof i).toNat
  | .fldBufStat => divUp s.fld.held 1024
  | .fldAggCfg => aggCfgReg s i
  | .fldImg => fldImgReg s i k
  | .sideStatus => sideStatusReg s
  | .sideAlive => sideAliveReg s
  | .sideMoveW => s.sides.white.move
  | .sideMoveB => s.sides.black.move
  | .sideLastIntr => s.sides.lastIntr
  | .sideLsStat => sideLsReg s
  | .sideStStat => sideStReg s
  | .sideMlStat => fieldAt (min 10 s.sides.loopRuns) 8 8
  | .sideJrnSs => jrnSsReg s
  | .sideJrnWarm => warmReg s
  | .sideResyncStat => resyncStatReg s
  | .sideResyncInuse => s.sides.rsInUse
  | .sideResyncCopied => s.sides.rsCopied / 1024
  | .sideResyncDirty => s.sides.rsDirty
  | .sideResyncDirtied => s.sides.rsDirtied / 1024
  | .sideResyncLast => s.sides.rsLast
  | .fabStatus => fabStatusReg s
  | .fabBypCfg => s.fab.force.toNat
  | .fabBypStat => fabBypReg s
  | .fabTopoStat => fabTopoReg s
  | .fabAdj => fabAdjReg s i
  | .fabRouteW0 => bitsN (routeOf s i).toNat 0 32
  | .fabRouteW1 => bitsN (routeOf s i).toNat 32 32
  | .glbMode => glbModeReg s
  | .glbStartStat => startStat s
  | .glbStartTime => s.glb.startTime
  | .glbResetCause => s.glb.resetCause.toNat
  | .glbSafeCause => s.glb.safeCause.toNat
  | .glbAutoResetCnt => autoCntReg s
  | .glbLastCommit => s.jrn.committed.getD 0
  | .glbPinStat => pinStatReg s
  | .recStatus => recStatusReg s
  | .recFill => recFillReg s
  | .recCount => recCountReg s
  | .recCritFill => recCritReg s
  | .recOldest => (oldestSeq s).toNat
  | .recNext => a.nextSeq.toNat
  | .recBankStat => recBankReg s
  | .recVolFill => recVolReg s
  | .recCursor => (readerOf s r).firstSeq.toNat
  | .recRdCfg => recRdCfgReg (readerOf s r)
  | .recWinStat => recWinStatReg (readerOf s r)
  | .recWinNext => (readerOf s r).next.toNat
  | .recWin => recWinReg (readerOf s r) (4 * i)
  | .evtStat => bitsN (evtOf s r).toNat (32 * i) 32
  | .evtPinStat => bitsN s.evt.pin.toNat (32 * i) 32
  | .evtHostLink => hostLinkReg s
  | .evtCoal => fieldAt (vecOf s i k).pending 8 8
  | .glbPwrStat => pwrStatReg s
  | .glbPwrSel => pwrSelReg s
  | .glbClkStat => clkStatReg s
  | .glbClkDiff => clkDiffReg s
  | .glbThermW => s.glb.tempW.toNat
  | .glbThermB => s.glb.tempB.toNat
  | .glbThermRim => s.glb.tempRim.toNat
  | .glbDdrW => ddrReg s.ddrW
  | .glbDdrB => ddrReg s.ddrB
  | .glbDdrUsable => ddrUsableReg s
  | .glbId => 0x51200001
  | .glbReader => whoOf r
  | .glbLock => b2n s.glb.locked
  | .glbFwRun => (flashAt s i).version.toNat
  | .glbFwSlot => fwSlotReg (flashAt s i)
  | .glbFwInfo => fwInfoReg (flashAt s i)
  | .glbFwSvnMin => (svnMinOf (flashAt s i) (sideFrom i)).toNat
  | .glbFwKeys => Config.keyFuses.toNat
  | _ => 0

/-- A reader's count in the RC field at bit `x.1` of a register; firmware reads a port counter as it stood at the last
commit (R278, R530). -/
def rcVal (s : State) (r : Reader) (g : Reg) (is : List Nat) (x : Nat × Nat) : Nat :=
  let key := ckey g is x.1
  if isPortCnt key && r == .firmware then tget 0 s.snap key else (tget {} s.ctrs key).get r

/-- What a register returns to a reader. -/
def regRead (s : State) (r : Reader) (g : Reg) (is : List Nat) : Nat :=
  (if isLatched g then (tget 0 s.latch (latchKey r (regAddr g is))).toNat
  else (match pairVal s g is with
      | some v => bitsN v 0 32
      | none => roVal s r g is) + regVal s g is)
    + (((rowOf g).rc).map (fun x => fieldAt (rcVal s r g is x) x.1 x.2)).sum

/-- What a read leaves in the RC fields of a register: a largest depth starts again at the depth that stands (R221). -/
def rcFloor (s : State) (g : Reg) (is : List Nat) : Nat :=
  if g = .schFlowMaxdepth then (flowOf s (is.getD 0 0)).elems.length else 0

/-- A read clears a reader's count of one RC field; firmware's read of a port counter waits for its commit (R278), a second
read before it takes nothing more. DESIGN CHOICE, log entry 113. -/
def clearRc (r : Reader) (g : Reg) (is : List Nat) (s : State) (x : Nat × Nat) : State :=
  let key := ckey g is x.1
  if isPortCnt key && r == .firmware then
    if s.fwRead.any (fun y => y.2.1 == key) then s
    else { s with fwRead := s.fwRead ++ [(s.jrn.move, key, tget 0 s.snap key)] }
  else { s with ctrs := tput {} s.ctrs key (Five.put (tget {} s.ctrs key) r (rcFloor s g is)) }

/-- The counts of a register that a read clears, and the latches that it loads (R277, R530, R531). -/
def readEffects (r : Reader) (g : Reg) (is : List Nat) (s : State) : State :=
  let s := if g = .portCntLo then latchPut r (regAddr g is + 4) (rcVal s r g is (0, 32) / 2 ^ 32) s else loadLatch r g is s
  (rowOf g).rc.foldl (clearRc r g is) s

/-- A register read that is carried out: its effects, and the data that it returns. -/
def doRead (r : Reader) (g : Reg) (is : List Nat) (s : State) : State :=
  let s := if g = .portCntLo && is.getD 1 0 == 32 then accrueLpi (is.getD 0 0) s
    else if g = .portCntLo && is.getD 1 0 == 34 then accrueRxLpi (is.getD 0 0) s else s
  if g = .timeTxtsPop0 then
    let x := txtsPop r (is.getD 0 0) s
    putRead r x.2 x.1
  else putRead r (w32 (regRead s r g is)) (readEffects r g is s)

end Sys2Proof.Machine
end

