-- ==== Sys2Proof/Machine/Access.lean ====
section
/-!
DEFINITION. Machine/Access.lean: BAR0 accesses (R526 to R537): blocks and masks, who may read and write, the lock, value
ranges, and what each register does with a write. Every register row of the operation table goes through here.
-/

namespace Sys2Proof.Machine

/-! ### Blocks (R36, R527) -/

/-- Mask bit of the block that holds an address. -/
def maskBit (a : Nat) : Nat :=
  if a < 0x100000 then 0 else if a < 0x200000 then 1 else if a < 0x400000 then 2 else if a < 0x800000 then 3
  else if a < 0xA00000 then 4 else if a < 0xC00000 then 5 else if a < 0x1000000 then 6 else if a < 0x1400000 then 7
  else if a < 0x1800000 then 8 else if a < 0x1C00000 then 9 else if a < 0x1D00000 then 10 else if a < 0x1E00000 then 11
  else if a < 0x1F00000 then 12 else 13

/-- The address lies in a side block: CMD, QUE, DMA, SCH, STRM, or the side-held part of FAB. CMD_READY is the rim's: it reads in a
Castling, in a start and with no holder (R435, R450, R456). DEDUCED, log entry 141. -/
def sideAddr (a : Nat) : Bool :=
  ([1, 3, 4, 5, 8].contains (maskBit a) && a != 0x100400) || (decide (0x1D08000 ≤ a) && decide (a < 0x1D10000))

/-- No side answers for the side blocks: modes 0 to 2 before a side holds the Chess Clock, mode 11 while none does (R438). -/
def sidesAway (s : State) : Bool := s.sides.holder.isNone && (decide (s.glb.mode ≤ 2) || s.glb.mode == 11)

/-- The holder answers reads of side blocks. -/
def sideAnswers (s : State) : Bool := dispatching s

/-! ### Permissions (R535, R536) -/

/-- A bit of the host's GLB_HOST_PERM field at `lo`. -/
def permBit (s : State) (h lo a : Nat) : Bool := regFld s .glbHostPerm [h] (lo + maskBit a) 1 == 1

/-- Registers of which each reader has its own copy. -/
def ownCopy (g : Reg) : Bool := [Reg.evtStat, .recCursor, .recRdCfg, .recWinStat, .recWinNext, .recWin].contains g

/-- Registers of one host that this host alone writes. -/
def ownWrite (g : Reg) : Bool :=
  [Reg.cmdAsqBaseLo, .cmdAsqBaseHi, .cmdAcqBaseLo, .cmdAcqBaseHi, .cmdAqCfg, .cmdAqCnt, .cmdAqLast, .evtRoute, .evtCoal,
   .dmaXhostGrant].contains g

/-- Registers of side blocks that the host named in CMD_PRIV.HOST alone writes. -/
def sidePriv (g : Reg) : Bool := [Reg.cmdPerm, .cmdPriv, .queHostPorts].contains g

/-- The host's write is not denied on its arrival at the host island. -/
def writeAllowed (s : State) (h a : Nat) : Bool :=
  match findReg a with
  | none => permBit s h 16 a
  | some (row, is) =>
    let g := row.reg
    let n := is.getD 0 0
    if g = .glbId || g = .glbReader || g = .glbLock || (g = .glbAccErr && n = h) then false
    else if ownCopy g || sidePriv g then true
    else if ownWrite g then n == h
    else if g = .glbHostPerm then s.glb.privCopy == h
    else permBit s h 16 a

/-- The host's read is not denied. -/
def readAllowed (s : State) (h a : Nat) : Bool :=
  match findReg a with
  | none => permBit s h 0 a
  | some (row, is) =>
    let g := row.reg
    let n := is.getD 0 0
    if g = .glbId || g = .glbReader || g = .glbLock || (g = .glbAccErr && n = h) || ownCopy g then true
    else if decide (0x100000 ≤ a) && decide (a < 0x100400) && n == h then true
    else permBit s h 0 a

/-- Count in GLB_ACC_ERR of the host: FORMAT at 0, LOCKED at 8, DENIED at 16. -/
def accErr (h lo : Nat) (s : State) : State := count .glbAccErr [h] lo 1 s

/-- The same for a reader; firmware is counted nowhere. -/
def accErrOf (r : Reader) (lo : Nat) (s : State) : State :=
  match r with
  | .host h => accErr h.val lo s
  | .firmware => s

/-! ### The lock (R532, R533, R444) -/

/-- The lock as the side sees it at this place of Scoresheet order. -/
def sideLocked (s : State) : Bool :=
  (waitingWrites s).foldl (fun b w => match w with
    | .lock on => on
    | _ => b) s.glb.locked

/-- The lock against which a write of the register is judged. -/
def lockedFor (s : State) (a : Nat) : Bool := if sideAddr a then sideLocked s else s.glb.locked

/-- The write changes no RWL field: FORCE_SWITCH of GLB_CLK_CFG with REVERT as it stands. -/
def keepsRwl (s : State) (g : Reg) (v : W32) : Bool := g == .glbClkCfg && bitsN v.toNat 0 1 == regFld s .glbClkCfg [] 0 1

/-- The register lies in the GATE or PORT window of an enabled port. -/
def portHeld (s : State) (a : Nat) (is : List Nat) : Bool := (maskBit a == 6 || maskBit a == 7) && (portOf s (is.getD 0 0)).en

/-! ### Value ranges (R530) -/

/-- A field of the value lies in a range. -/
def fieldIn (v : W32) (lo w a b : Nat) : Bool := decide (a ≤ bitsN v.toNat lo w) && decide (bitsN v.toNat lo w ≤ b)

/-- Sum of RX_MIN_KIB over the ports other than `p` (R275). -/
def otherRxMin (s : State) (p : Nat) : Nat :=
  (((List.range 32).filter (fun q => q != p)).map (fun q => regFld s .portBufCfg [q] 0 16)).sum

/-- FEC is legal at the port's pair (R262). -/
def fecOk (x : PortSt) (fec : Nat) : Bool := fec == 0 || (fec == 1 && (x.speed == 3 || x.speed == 4)) || (fec == 2 && x.speed == 4)

/-- Every field of the value lies in its stated range; a write outside one is ignored as a whole. -/
def inRange (s : State) (g : Reg) (is : List Nat) (v : W32) : Bool :=
  let p := is.getD 0 0
  match g with
  | .timeCfg => fieldIn v 8 8 1 100
  | .timeDomCfg => fieldIn v 20 4 2 10 && decide (-3 ≤ signedN (bitsN v.toNat 16 4) 4) && decide (signedN (bitsN v.toNat 16 4) 4 ≤ 3)
      && decide (-7 ≤ signedN (bitsN v.toNat 12 4) 4) && decide (signedN (bitsN v.toNat 12 4) 4 ≤ 0)
  | .timeTxtsCfg => fieldIn v 0 3 0 4
  | .dmaPoolCfg => fieldIn v 16 7 1 120
  | .schClassCfg => fieldIn v 0 5 1 16
  | .schMonCfg => bitsN v.toNat 30 1 == 0 || bitsN v.toNat 21 5 == 0
  | .gateMmCfg => fieldIn v 8 8 1 128
  | .gateSegCfg => fieldIn v 16 3 0 6 && fieldIn v 0 14 64 9216
  | .portPcsCfg => fecOk (portOf s p) (bitsN v.toNat 0 2)
  | .portBufCfg => fieldIn v 16 16 16 65535 && fieldIn v 0 16 0 4096 && decide (bitsN v.toNat 0 16 ≤ bitsN v.toNat 16 16)
      && decide (otherRxMin s p + bitsN v.toNat 0 16 ≤ 32768)
  | .portEeeCfg => fieldIn v 8 8 1 255
  | .fldBufCfg => fieldIn v 0 16 16 16384
  | .sideJrnCfg => fieldIn v 0 6 5 50
  | .fabCfg => fieldIn v 16 8 1 100 && fieldIn v 8 8 1 255
  | .fabRelayCfg => fieldIn v 16 16 1 65535
  | .evtPinCfg => fieldIn v 0 8 1 255
  | .evtCoal => fieldIn v 0 8 1 255
  | .glbThermCfg => fieldIn v 8 8 1 20 && fieldIn v 0 8 80 125
  | _ => true

/-! ### Effects of a write -/

/-- Store the RW and RWL fields that the value carries. -/
def storeReg (g : Reg) (is : List Nat) (v : W32) (s : State) : State :=
  let row := rowOf g
  let m := row.rw ||| row.rwl
  let old := w32 (regVal s g is)
  regStore s g is ((old &&& ~~~m) ||| (v &&& m))

/-- The admin queue pair is enabled: empty queues under the bases and sizes of the registers (R48, R82). The side tells the rim
with a set; where the start monitor serves, the rim itself enables it (R52, R65). The count of commands executed starts again
(DESIGN CHOICE, log entry 81), and WEIGHT, BURST and IRQ_EN of the pair are 0, 1 and 1 (DESIGN CHOICE, log entry 88). -/
def enableAq (h : Nat) (v : W32) (s : State) : State :=
  let base := fun lo hi => BitVec.ofNat 64 (regVal s lo [h] + regVal s hi [h] * 2 ^ 32)
  let m := monitor s
  let sq : Sq := { sizeLog2 := bitsN v.toNat 0 4, base := base .cmdAsqBaseLo .cmdAsqBaseHi, page := m }
  let cq : Cq := { sizeLog2 := bitsN v.toNat 8 4, vec := bitsN v.toNat 16 6, irqEn := true, page := m,
                   base := base .cmdAcqBaseLo .cmdAcqBaseHi }
  let s := keepPage h 0 (keepCqPage h 0 s)
  let s := putCq (putSq (putAq s h { aqOf s h with en := true, cfgErr := false, head := 0 }) h 0 sq) h 0 cq
  if m then s else pushSet [.cqPage h 0 true, .sqPage h 0 true] s

/-- The bases are set and the sizes lie in 4 to 12. -/
def aqCfgOk (s : State) (h : Nat) (v : W32) : Bool :=
  fieldIn v 0 4 4 12 && fieldIn v 8 4 4 12
    && (regVal s .cmdAsqBaseLo [h] != 0 || regVal s .cmdAsqBaseHi [h] != 0)
    && (regVal s .cmdAcqBaseLo [h] != 0 || regVal s .cmdAcqBaseHi [h] != 0)

/-- A write of CMD_AQ_CFG (R82, R83): a write with AQ_EN 0 leaves CFG_ERR as it is (DESIGN CHOICE, log entry 80). DEDUCED, log
entry 22. -/
def writeAqCfg (h : Nat) (v : W32) (s : State) : State :=
  let a := aqOf s h
  let cfg := v &&& 0x003F0F0F#32
  let on := bitN v.toNat 31
  if a.en then
    if on || a.stopping then s else settleAq h (putAq s h { a with stopping := true })
  else if !on then regStore s .cmdAqCfg [h] cfg
  else if aqCfgOk s h v then enableAq h v (regStore s .cmdAqCfg [h] cfg)
  else putAq s h { a with cfgErr := true }

/-- CMD_PRIV changes; the rim's copy follows with a set, or at once in the configuration load (R536). -/
def writePriv (r : Reader) (v : W32) (s : State) : State :=
  let n := v.toNat % 4
  let s' := { s with cmd := { s.cmd with priv := n } }
  if r = .firmware then { s' with glb := { s'.glb with privCopy := n } }
  else if n = s.cmd.priv then s else pushSet [.privCopy n] s'

/-- DMA_POOL_CTL: a write with both bits set is ignored (R183). -/
def writePoolCtl (v : W32) (s : State) : State :=
  if v.toNat % 4 = 1 then poolResume s else if v.toNat % 4 = 2 then poolAbort s else s

/-- The counters of a delay monitor. -/
def clearMonitor (m : Nat) (s : State) : State :=
  let lo := regAddr .schMonCfg [m]
  { s with ctrs := s.ctrs.filter (fun c => decide (c.1 / 32 < lo) || decide (lo + 0x100 ≤ c.1 / 32)) }

/-- SCH_MON_CFG: a change of KIND or TARGET clears the monitor's counters for every reader (R219). A monitor that is enabled, or
whose period changes, samples from the next multiple of its period on (R218). -/
def writeMonCfg (m : Nat) (v : W32) (s : State) : State :=
  let old := regVal s .schMonCfg [m]
  let s := if bitN old 31 && bitsN old 26 4 = bitsN v.toNat 26 4 then s else { s with sch := { s.sch with sampled := tput 0 s.sch.sampled m (eventEl s) } }
  let s' := storeReg .schMonCfg [m] v s
  if bitsN old 30 1 = bitsN v.toNat 30 1 && bitsN old 13 13 = bitsN v.toNat 13 13 then s' else clearMonitor m s'

/-- Whether the event bit of a source is set in a host's copy. -/
def evtSet (s : State) (n src : Nat) : Bool := (evtCopy s.evt n).getLsbD src

/-- EVT_ROUTE: EN going from 0 to 1 while the bit is set gives one trigger at once (R486). -/
def writeRoute (n src : Nat) (v : W32) (s : State) : State :=
  let was := regFld s .evtRoute [n, src] 31 1
  let s' := storeReg .evtRoute [n, src] v s
  if was = 0 && bitN v.toNat 31 && evtSet s n src then
    if src = 254 then (trigRaw n (v.toNat % 64) false s').1 else trigger n (v.toNat % 64) s'
  else s'

/-- A message of a vector falls due now; a blocked one raises EVT_MSIX_BLOCKED, but for that event's own triggers (R488). -/
def sendDue (h v : Nat) (s : State) : State :=
  let x := msgDue h v false s
  if x.2 then raiseBlocked x.1 else x.1

/-- EVT_COAL: it applies at once, and pending triggers that meet the new values are sent (R487). -/
def writeCoal (n v : Nat) (x : W32) (s : State) : State :=
  let s' := storeReg .evtCoal [n, v] x s
  let p := (vecOf s' n v).pending
  if p != 0 && (coalOff s' n v || decide (regFld s' .evtCoal [n, v] 0 8 ≤ p)) then sendDue n v s' else s'

/-- EVT_STAT: 1 clears a bit of the writer's own copy; firmware's goes through a numbered set (R485). -/
def writeEvtStat (r : Reader) (w : Nat) (v : W32) (s : State) : State :=
  match r with
  | .host h =>
    let m := BitVec.ofNat 256 (v.toNat * 2 ^ (32 * w))
    { s with evt := evtPut s.evt h.val (evtCopy s.evt h.val &&& ~~~m) }
  | .firmware => pushSet [.evtFwClear w v] s

/-- EVT_PIN_STAT: 1 clears a bit of the EVENT_N copy. -/
def writePinStat (w : Nat) (v : W32) (s : State) : State :=
  { s with evt := { s.evt with pin := s.evt.pin &&& ~~~(BitVec.ofNat 256 (v.toNat * 2 ^ (32 * w))) } }

/-- REC_RD_CFG: OLDEST or NEWEST starts a load; with both set the write is ignored as a whole. -/
def writeRdCfg (r : Reader) (v : W32) (s : State) : State :=
  let old := bitN v.toNat 31
  let new := bitN v.toNat 30
  if old && new then s
  else
    let s := putReader s r { readerOf s r with source := bitN v.toNat 4, minSev := v.toNat % 4 }
    if old then startLoad r 1 0 s else if new then startLoad r 2 0 s else s

/-- GLB_CLK_CFG: FORCE_SWITCH acts while the other reference is qualified; REVERT, which is stored while unlocked, with REFCLK1 in use
and REFCLK0 qualified (R512). -/
def writeClkCfg (v : W32) (s : State) : State :=
  let s := storeReg .glbClkCfg [] v s
  if refQual s (1 - refUsed s) && (bitN v.toNat 1 || (bitN v.toNat 0 && s.glb.refSel)) then switchRef s else s

/-- What a register does with a write that is neither denied, refused by the lock nor out of range. -/
def writeReg (r : Reader) (g : Reg) (is : List Nat) (v : W32) (s : State) : State :=
  let i := is.getD 0 0
  let k := is.getD 1 0
  match g with
  | .cmdAsqBaseLo | .cmdAsqBaseHi | .cmdAcqBaseLo | .cmdAcqBaseHi => if (aqOf s i).en then s else storeReg g is v s
  | .cmdAqCfg => writeAqCfg i v s
  | .cmdPriv => writePriv r v s
  | .timePortCorrEgr | .timePortCorrIng => if (portOf s i).en then s else storeReg g is v s
  | .timeTxtsStat => if bitN v.toNat 31 then putTxts s i { txtsOf s i with ovf := false } else s
  | .dmaPoolCtl => writePoolCtl v s
  | .dmaPchErrInfo =>
    if bitN v.toNat 31 then
      let e := tget {} s.dma.pch i
      { s with dma := { s.dma with pch := tput {} s.dma.pch i { e with err := false, later := 0 } } }
    else s
  | .schMonCfg => writeMonCfg i v s
  | .strmHStat =>
    { s with strm := { s.strm with blocked := tput 0 s.strm.blocked i (blockedOf s i &&& ~~~(BitVec.ofNat 2 (bitsN v.toNat 30 2))) } }
  | .fabPorts | .fabBypCfg => bypDrive (storeReg g is v s)
  | .glbResetCause => { s with glb := { s.glb with resetCause := s.glb.resetCause &&& ~~~(v &&& 0x3FF#32) } }
  | .glbClkCfg => writeClkCfg v s
  | .glbThermCfg =>
    let s := storeReg g is v s
    { s with glb := { s.glb with therm := thermLevel s } }
  | .recCursor => startLoad r 0 v s
  | .recRdCfg => writeRdCfg r v s
  | .evtStat => writeEvtStat r i v s
  | .evtPinStat => writePinStat i v s
  | .evtPinCfg =>
    let s := storeReg g is v s
    { s with evt := { s.evt with pulse := false } }
  | .evtTest => if bitN v.toNat 0 then raise evTest s else s
  | .evtRoute => writeRoute i k v s
  | .evtCoal => writeCoal i k v s
  | _ => storeReg g is v s

/-! ### Writes -/

/-- The writer may write a side register whose writer CMD_PRIV.HOST names. -/
def privOk (s : State) (r : Reader) (g : Reg) : Bool :=
  match r with
  | .host h => !sidePriv g || s.cmd.priv == h.val
  | .firmware => true

/-- A write at the place where it is judged: the writer of privileged registers, the lock, enabled ports, ranges, effect. -/
def applyWrite (r : Reader) (a : Nat) (v : W32) (s : State) : State :=
  match findReg a with
  | none => s
  | some (row, is) =>
    let g := row.reg
    if !privOk s r g then accErrOf r 16 s
    else if row.rwl != 0 && lockedFor s a && !keepsRwl s g v then
      let s := accErrOf r 8 s
      if g = .glbClkCfg && bitN v.toNat 1 && refQual s (1 - refUsed s) then switchRef s else s
    else if row.rwl != 0 && portHeld s a is then s
    else if inRange s g is v then writeReg r g is v s
    else s

/-- A host's write to BAR0 (R37, R438, R528, R529). DEDUCED, log entry 16. -/
def hostWrite (h a : Nat) (enables : BitVec 4) (v : W32) (s : State) : State :=
  if s.jrn.full || decide (0x2000000 ≤ a) then s
  else if enables != 0xF || a % 4 != 0 then accErr h 0 s
  else if !writeAllowed s h a then accErr h 16 s
  else if sideAddr a then
    if sidesAway s then s else keepReg (.write h a v enables) s
  else applyWrite (.host (Fin.ofNat 4 h)) a v s

/-- A full-word write of a host to a register by its address. -/
def writeAt (h : Nat) (g : Reg) (is : List Nat) (v : W32) (s : State) : State := hostWrite h (regAddr g is) 0xF v s

/-- The side takes the oldest recorded item at its place in Scoresheet order, as of the time of its record (R366); a clearing read is
answered by its own row. -/
def applyOldest (s : State) : State :=
  match s.jrn.regs with
  | [] => s
  | (.write h a v _, st) :: rest =>
    consumeAt st (applyWrite (.host (Fin.ofNat 4 h)) a v) { s with jrn := { s.jrn with regs := rest } }
  | (.read _ _, _) :: _ => s
  | (.perst h, st) :: rest => consumeAt st (perstSide h) { s with jrn := { s.jrn with regs := rest } }

/-- A write to a side register whose row stands for the write with its effect: it takes its place in Scoresheet order at
once when nothing is before it, and waits otherwise. DEDUCED, log entry 17. -/
def writeSide (h : Nat) (g : Reg) (is : List Nat) (v : W32) (s : State) : State :=
  let t := writeAt h g is v s
  if s.jrn.regs.isEmpty && consuming t then applyOldest t else t

/-! ### Reads -/

/-- A write of the host to a side block waits to be applied. -/
def writesWait (s : State) (h : Nat) : Bool :=
  s.jrn.regs.any (fun x => match x.1 with
    | .write n _ _ _ => n == h
    | _ => false)

/-- The register at an address has RC fields. -/
def clears (a : Nat) : Bool :=
  match findReg a with
  | some (row, _) => !row.rc.isEmpty
  | none => false

/-- The register at an address is read: an unmapped address reads 0. -/
def readAt (r : Reader) (a : Nat) (s : State) : State :=
  match findReg a with
  | none => putRead r 0 s
  | some (row, is) => doRead r row.reg is s

/-- A host's read of a side register that clears is recorded and answered at its place; another waits for the host's own
earlier writes (R36, R390, R529). -/
def sideRead (h : Host) (a : Nat) (s : State) : State :=
  if clears a then
    if sideAnswers s && s.jrn.regs.isEmpty then readAt (.host h) a (record (.reg (.read h.val a)) s) else keepReg (.read h.val a) s
  else if sideAnswers s && !writesWait s h.val then readAt (.host h) a s
  else { s with jrn := { s.jrn with heldReads := s.jrn.heldReads ++ [(h.val, a)] } }

/-- A held read of the host is answered by the side that holds the Clock; where none will for now, it completes as a new one does (R438).
DEDUCED, log entry 145. -/
def answerHeld (h : Host) (a : Nat) (s : State) : State :=
  let mine := fun (x : RegRec × Stamp) => x.1 == .read h.val a
  if sidesAway s then
    if s.jrn.heldReads.contains (h.val, a) then
      putRead (.host h) 0xFFFFFFFF { s with jrn := { s.jrn with heldReads := s.jrn.heldReads.erase (h.val, a) } }
    else if s.jrn.regs.any mine then putRead (.host h) 0xFFFFFFFF { s with jrn := { s.jrn with regs := s.jrn.regs.eraseP mine } }
    else s
  else if !sideAnswers s then s
  else match s.jrn.regs with
    | (.read n b, _) :: rest =>
      if n = h.val && b = a then readAt (.host h) a { s with jrn := { s.jrn with regs := rest } } else plainHeld h a s
    | _ => plainHeld h a s
where
  plainHeld (h : Host) (a : Nat) (s : State) : State :=
    if s.jrn.heldReads.contains (h.val, a) && !writesWait s h.val then
      readAt (.host h) a { s with jrn := { s.jrn with heldReads := s.jrn.heldReads.erase (h.val, a) } }
    else s

/-- A host's read of BAR0 (R36, R438, R528, R535). -/
def hostRead (h : Host) (a : Nat) (s : State) : State :=
  if decide (0x2000000 ≤ a) then s
  else if a % 4 != 0 then putRead (.host h) 0 (accErr h.val 0 s)
  else if !readAllowed s h.val a then putRead (.host h) 0 (accErr h.val 16 s)
  else if !sideAddr a then readAt (.host h) a s
  else if sidesAway s then putRead (.host h) 0xFFFFFFFF s
  else sideRead h a s

/-- A read of BAR0 that is no aligned DWORD (R528). -/
def partRead (r : Reader) (a : Nat) (s : State) : State :=
  match r with
  | .host h => if decide (0x2000000 ≤ a) then s else putRead r 0 (accErr h.val 0 s)
  | .firmware => s

/-- A reader's read: firmware reads while its side serves, outside the masks. DESIGN CHOICE, log entry 15. -/
def readerRead (r : Reader) (a : Nat) (s : State) : State :=
  match r with
  | .host h => hostRead h a s
  | .firmware => if consuming s && decide (a < 0x2000000) then readAt .firmware a s else s

end Sys2Proof.Machine
end

