-- ==== Sys2Proof/Machine/Events.lean ====
section
/-!
DEFINITION. Machine/Events.lean: rows of Event Sources and Interrupt Routing (R482 to R493).
-/

namespace Sys2Proof.Machine

/-- EVT_ROUTE_WRITE: host `h` writes EVT_ROUTE of host `n`, source `src` (R486, R536). -/
def execEvtRouteWrite (h : Host) (n : Host) (src : Fin 256) (v : W32) (s : State) : Out :=
  .next (writeAt h.val .evtRoute [n.val, src.val] v s)

/-- EVT_COAL_WRITE: host `h` writes EVT_COAL of host `n`, vector `vec` (R487, R536). -/
def execEvtCoalWrite (h : Host) (n : Host) (vec : Fin 64) (v : W32) (s : State) : Out :=
  .next (writeAt h.val .evtCoal [n.val, vec.val] v s)

/-- COALESCE_TIMEOUT: MAX_TIME_US have passed since the trigger that made PENDING 1 (R487). -/
def execCoalesceTimeout (h : Host) (vec : Fin 64) (s : State) : Out :=
  .next (if (vecOf s h.val vec.val).pending != 0 && !coalOff s h.val vec.val then sendDue h.val vec.val s else s)

/-- EVT_PIN_CFG_WRITE (R491). -/
def execEvtPinCfgWrite (h : Host) (v : W32) (s : State) : Out := .next (writeAt h.val .evtPinCfg [] v s)

/-- EVENT_N_PULSE_END: PULSE_US have passed (R491). -/
def execEventNPulseEnd (s : State) : Out := .next { s with evt := { s.evt with pulse := false } }

/-- EVT_TEST_RAISE (R482, R493). -/
def execEvtTestRaise (h : Host) (v : W32) (s : State) : Out := .next (writeAt h.val .evtTest [] v s)

/-- EVT_STAT_CLEAR: a host clears its own copy or the EVENT_N copy; firmware clears its copy through a set (R485).
DEDUCED, log entry 19. -/
def execEvtStatClear (r : Reader) (pinCopy : Bool) (w : Fin 8) (v : W32) (s : State) : Out :=
  .next (match r with
    | .host h => writeAt h.val (if pinCopy then .evtPinStat else .evtStat) [w.val] v s
    | .firmware => if consuming s && !pinCopy then writeEvtStat .firmware w.val v s else s)

end Sys2Proof.Machine
end

