-- ==== Sys2Proof/Machine/LongCommands.lean ====
section
/-!
DEFINITION. Machine/LongCommands.lean: the ends of class L commands (R69, R286, R287, R378, R547) and the items of the
configuration load (R442).
-/

namespace Sys2Proof.Machine

/-- A stream table is loaded: it identifies the frames after its commit-point Move (R297). Older loads whose Move is past are the
table that stands. -/
def loadTable (t : List (BitVec 512)) (s : State) : State :=
  { s with strm := { s.strm with table := tableSettled s, loads := s.strm.loads.filter (fun x => !sideCommit s x.1) ++ [(s.jrn.move, t)] } }

/-- What the work of a class L command leaves when it has ended: its status, its RESULT, and the effect of its commit
point; `none` while the work goes on. A MODE_START ends with its start. -/
def workEnd (s : State) : LongOp → Option (Nat × Nat × State)
  | .waitSet n => if n ≤ s.jrn.setTaken then some (stOk, 0, s) else none
  | .portRecal p ended => if ended then some (stOk, 0, putPort s p { portOf s p with recalStatus := stOk }) else none
  | .aggLoad a l => some (stOk, 0, loadAgg a l s)
  | .tapeLoad p t start => some (stOk, 0, pushSet [.tape p t start] s)
  | .portSet p n => if n ≤ s.jrn.setTaken && portSettled s p then some (stOk, 0, s) else none
  | .idLoad t => some (stOk, 0, loadTable t s)
  | .routeLoad t => some (stOk, 0, pushSet [.routeTable (dropConflicted s t)] s)
  | .castle outcome => outcome.map (fun x => (x.1, x.2, s))
  | .selftest _ _ _ outcome => outcome.map (fun st =>
      (st, if st = stOk then s.sides.stPassed.toNat + s.sides.stFailed.toNat * 2 ^ 32 else 0, s))
  | .recClear h _ => some (stOk, 0, pushSet [.clearFloor h] s)
  | .fwWrite d slot off l => some (stOk, 0, writeSlotBytes d slot off l s)
  | .fwVerify d slot =>
    let f := flashOf s d
    if slotOk f d slot then some (stOk, leAt (imageHeader f slot 0) 8 4, putFlash s d (markSlot slot 2 f))
    else some (stIntegrity, 0, s)
  | .fwActivate _ _ _ outcome => outcome.map (fun st => (st, 0, s))
  | .startCold => none
  | .startWarm => none

/-- LONG_COMMAND_COMPLETE: the running command of group `g` reaches its commit point. -/
def execLongCommandComplete (g : Group) (s : State) : Out :=
  .next (if !dispatching s then s
    else match tfind s.cmd.running g.val with
      | none => s
      | some r => match workEnd s r.op with
        | some (st, result, t) => finishLong g.val st result t
        | none => s)

/-- The work of a command whose time limit has passed: its effect before ST_TIMEOUT; `none` where the command has no limit
or its work has ended. DEDUCED, log entry 13. -/
def workExpired (s : State) (r : Running) : Option State :=
  match r.op with
  | .portSet p n => if n ≤ s.jrn.setTaken && portSettled s p then none else some s
  | .portRecal p false => some (raise evRecalDone (putPort s p { portOf s p with recalStatus := stTimeout }))
  | .selftest d _ true none => if (sideOf s d).state = 6 then some (followSides (goOut d (leaveState d stTimeout s))) else none
  | .fwWrite _ _ _ _ => some s
  | .fwVerify _ _ => some s
  | .fwActivate d _ n none =>
    if n ≤ s.jrn.setTaken && decide ((sideOf s d).state < 3) then some s else none
  | _ => none

/-- CLASS_L_TIMEOUT: the limit of the running command of group `g` has passed. -/
def execClassLTimeout (g : Group) (s : State) : Out :=
  .next (if !dispatching s then s
    else match tfind s.cmd.running g.val with
      | none => s
      | some r => match workExpired s r with
        | some t => finishLong g.val stTimeout 0 t
        | none => s)

/-! ### The configuration load (R442) -/

/-- Every command with its rules. -/
def commandTable : List (CmdSpec × Body) := [
  (csCreateCq, bodyCreateCq), (csCreateSq, bodyCreateSq), (csDeleteSq, bodyDeleteSq), (csDeleteCq, bodyDeleteCq),
  (csSetWrr, bodySetWrr), (csSetQuota, bodySetQuota), (csQueQuery, bodyQueQuery), (csPortSet, bodyPortSet),
  (csPortEnable, bodyPortEnable), (csPortFilterSet, bodyPortFilterSet), (csPortEeeSet, bodyPortEeeSet),
  (csPortRecal, bodyPortRecal), (csPortQuery, bodyPortQuery), (csFldPortSet, bodyFldPortSet), (csFldAggLoad, bodyAggLoad),
  (csFldQuery, bodyFldQuery), (csTapeLoad, bodyTapeLoad), (csClassSet, bodyClassSet), (csCloseMode, bodyCloseMode),
  (csFlowSet, bodyFlowSet), (csFlowDisable, bodyFlowDisable), (csGateQuery, bodyGateQuery), (csSchQuery, bodySchQuery),
  (csTapeCancel, bodyTapeCancel), (csIdLoad, bodyIdLoad), (csMeterSet, bodyMeterSet), (csSeqgenSet, bodySeqgenSet),
  (csSeqrecSet, bodySeqrecSet), (csStrmQuery, bodyStrmQuery), (csDomainSet, bodyDomainSet), (csTimeStep, bodyTimeStep),
  (csRateSet, bodyRateSet), (csPpsSet, bodyPpsSet), (csTimeQuery, bodyTimeQuery), (csCastle, bodyCastle),
  (csSelftest, bodySelftest), (csResetStandby, bodyResetStandby), (csSideQuery, bodySideQuery), (csFabSet, bodyFabSet),
  (csRouteLoad, bodyRouteLoad), (csBypassSet, bodyBypassSet), (csFabQuery, bodyFabQuery), (csNote, bodyNote),
  (csChallenge, bodyChallenge), (csRecClear, bodyRecClear), (csRecQuery, bodyRecQuery), (csFwQuery, bodyFwQuery),
  (csFwWrite, bodyFwWrite), (csFwVerify, bodyFwVerify), (csFwActivate, bodyFwActivate), (csModeQuery, bodyModeQuery),
  (csConfigEnter, bodyConfigEnter), (csConfigExit, bodyConfigExit), (csSafeHold, bodySafeHold), (csResume, bodyResume)]

/-- The rules of the packet's opcode; those of MODE_START by its KIND. -/
def commandOf (p : Packet) : Option (CmdSpec × Body) :=
  if p.opcode.toNat = csModeStart.opcode then some (csModeStart, if wantsWarm p then bodyStartWarm else bodyStartCold)
  else commandTable.find? (fun x => x.1.opcode == p.opcode.toNat)

/-- The next item. -/
def nextItem (s : State) : State := { s with glb := { s.glb with cfgNext := s.glb.cfgNext + 1 } }

/-- A command item, executed as the holder's own command on the objects of the host in CMD_PRIV.HOST. -/
def commandItem (p : Packet) (ib : ReadEnd) (s : State) : State :=
  match commandOf p with
  | none => refuseItem s
  | some (c, b) => match perform c b { host := s.cmd.priv, cfg := true } p ib s with
    | (_, .refused) => refuseItem s
    | (t, .done) => nextItem t
    | (t, .running) => t

/-- The configuration load runs, and the item before has ended. -/
def loadReady (s : State) : Bool :=
  s.glb.mode == 1 && s.glb.cfgLoad && consuming s && !s.cmd.running.any (fun r => r.2.cfg)

/-- The configuration image in the slot that a side runs verifies, under the root entry of its firmware image (R442, R543). -/
def cfgVerified (s : State) (d : SideId) : Bool :=
  let f := flashOf s d
  imageOk f d f.running 0xF00000 2 && byteAt (imageHeader f f.running 0xF00000) 0x18 == byteAt (imageHeader f f.running 0) 0x18

/-- The 72 bytes of an item, `body` being what the flash holds from an offset of the image's body on: a command packet, whose indirect
buffer lies at an offset of the body, or a register write (R548). -/
def cfgItemOf (b : List Byte) (body : Nat → Nat → List Byte) : Option CfgItem :=
  if !zeroAt b 1 3 then none
  else if byteAt b 0 = 1 && zeroAt b 4 4 then
    let p := packetOf (b.drop 8)
    let o := ibufAt p.opcode.toNat
    some (.command p (.data (body (par p o 8) (ibLen p o))))
  else if byteAt b 0 = 2 && zeroAt b 12 60 then some (.regWrite (leAt b 4 4) (w32 (leAt b 8 4)))
  else none

/-- The next item of the configuration image in the holder's flash; `none` for 72 bytes that spell neither kind (R442, R548). -/
def loadItem (s : State) : Option CfgItem :=
  match s.sides.holder with
  | none => some .noImage
  | some d =>
    let f := flashOf s d
    let hd := imageHeader f f.running 0xF00000
    let body := fun off n => slotBytes f f.running (0xF01000 + off) n
    if !cfgVerified s d then some .noImage
    else if leAt hd 0x1C 4 ≤ s.glb.cfgNext then some (.endOfImage (bitN (leAt hd 0x14 4) 0))
    else cfgItemOf (body (72 * s.glb.cfgNext) 72) body

/-- An item of the load: an item that spells neither kind counts as a refused one (DESIGN CHOICE, log entry 146). -/
def runItem (s : State) : Option CfgItem → State
  | some (.command p ib) => commandItem p ib s
  | some (.regWrite a v) => nextItem (if a % 4 = 0 && decide (a < 0x2000000) then applyWrite .firmware a v s else s)
  | some (.endOfImage stay) => if stay then endLoad 3 s else endLoad 4 { s with glb := { s.glb with locked := true } }
  | some .noImage => endLoad 3 s
  | none => refuseItem s

/-- CONFIG_LOAD_ITEM: the item comes from the holder's own flash, not from the sender. -/
def execConfigLoadItem (_i : CfgItem) (s : State) : Out := .next (if loadReady s then runItem s (loadItem s) else s)

/-! ### The indirect buffers of a replay (R58) -/

/-- Take an outcome back from the counts of a command that the replay refuses. -/
def uncount (key : Nat) (s : State) : State :=
  let f := tget {} s.ctrs key
  { s with ctrs := tput {} s.ctrs key { h0 := f.h0 - 1, h1 := f.h1 - 1, h2 := f.h2 - 1, h3 := f.h3 - 1, fw := f.fw - 1 } }

/-- Remove the table that ends `k` places before the newest load. -/
def dropLoad (k : Nat) (l : List (Nat × List (BitVec 512))) : List (Nat × List (BitVec 512)) := l.eraseIdx (l.length - 1 - k)

/-- `n` bytes of a slot from an offset on, and its state, are those of `old`. -/
def unwrite (d : SideId) (slot off n : Nat) (old : Flash) (s : State) : State :=
  let f := flashOf s d
  let g := { f with cells := writeCells 0xFF f.cells (slotBase slot + off) (slotBytes old slot off n) }
  putFlash s d (if slot = 0 then { g with st0 := old.st0 } else { g with st1 := old.st1 })

/-- What a command with an indirect buffer that began has changed is as before: its set, its function or its table never was (R57,
R58), and the bytes and the state of the slot that an FW_WRITE wrote are those of before. `later` are the commands of the list behind
it. -/
def undoIb (x : IbCmd) (later : List IbCmd) (s : State) : State :=
  let op := x.pkt.opcode.toNat
  let own := fun (r : Nat × Running) => r.2.host == x.host && r.2.asqHead == x.asqHead && !r.2.cfg
  let s := if op = csRecClear.opcode then { s with cmd := { s.cmd with nonce := x.nonce } } else s
  let s := match x.flash with
    | some f => unwrite (fwSide x.pkt) (fwSlot x.pkt) (par x.pkt 0x14 4) (4096 * divUp (ibLen x.pkt 0x18) 4096) f s
    | none => s
  if !x.ended then { s with cmd := { s.cmd with running := s.cmd.running.filter (fun r => !own r) } }
  else
    let g := tget 0 s.cmd.gens (groupOf x.pkt)
    let s := if x.bumped then { s with cmd := { s.cmd with gens := tput 0 s.cmd.gens (groupOf x.pkt) (g - 1) } } else s
    let s := uncount (ckey .cmdAqCnt [x.host] (if x.done then 0 else 16)) s
    if op = csFldAggLoad.opcode then
      let i := par x.pkt 0x10 2
      let a := aggOf s i
      match a.prev with
      | some (k, b, n) => putAgg s i { a with kind := k, body := b, runCnt := n, prev := none }
      | none => s
    else if op = csIdLoad.opcode then
      let k := (later.filter (fun y => y.ended && y.pkt.opcode == x.pkt.opcode)).length
      { s with strm := { s.strm with loads := dropLoad k s.strm.loads } }
    else if x.flash.isSome then s
    else { s with jrn := { s.jrn with sets := s.jrn.sets.map (fun y => if y.num = x.setNo then { y with writes := [] } else y) } }

/-- The status packet of a command that the replay refuses: in the place of the one that is due, or a new one. -/
def restatus (x : IbCmd) (st : Nat × Nat) (s : State) : State :=
  let mine := fun (d : DueStatus) => d.host == x.host && d.pkt.asqHead == x.asqHead && d.pkt.tag == x.pkt.tag
  let gen := genOf s x.pkt
  if s.cmd.dueStatus.any mine then
    { s with cmd := { s.cmd with dueStatus := s.cmd.dueStatus.map (fun d =>
        if mine d then { d with pkt := { d.pkt with status := st.1, detail := w32 st.2, result := 0, gen := gen } } else d) } }
  else dueStatus { host := x.host } x.pkt st.1 st.2 0 gen x.epoch x.asqHead s

/-- A command that the failed side refused, or ran dry, for its buffer's sake alone is executed by the replay, which reads the buffer
whole: the packet takes the place of the one that is due, and of the two outcomes this one counts (R57, R58). -/
def executeAgain (x : IbCmd) (r : ReadEnd) (s : State) : State :=
  match commandTable.find? (fun c => c.1.opcode == x.pkt.opcode.toNat) with
  | none => s
  | some (c, b) =>
    let mine := fun (d : DueStatus) => d.host == x.host && d.pkt.asqHead == x.asqHead && d.pkt.tag == x.pkt.tag
    let q := aqOf s x.host
    let last := s.jrn.last
    let s := if x.kind = .refused then uncount (ckey .cmdAqCnt [x.host] 16) s else s
    let s := putAq s x.host { q with head := x.asqHead }
    let s := { s with jrn := { s.jrn with last := { last with epoch := x.epoch } }
                      cmd := { s.cmd with ibCmds := s.cmd.ibCmds.erase x, dueStatus := s.cmd.dueStatus.filter (fun d => !mine d) } }
    let t := (perform c b { host := x.host } x.pkt r s).1
    let u := putAq t x.host { aqOf t x.host with head := q.head }
    { u with jrn := { u.jrn with last := last } }

/-- The replay reads the indirect buffer of a command again. Where that fails, the command is refused, and its status packet says
so; where it succeeds and the first read did not, the command executes (R57, R58). DEDUCED, log entry 100. -/
def rereadIb (x : IbCmd) (later : List IbCmd) (r : ReadEnd) (s : State) : State :=
  match worst (ibReadFindings x.pkt (ibufAt x.pkt.opcode.toNat) r) with
  | none => if x.byRead then executeAgain x r s else s
  | some f =>
    let st := if f.status = stIntegrity then x.onCrc else x.onBus
    restatus x st (match x.kind with
      | .began => countStatus { host := x.host } x.pkt (some f) (undoIb x later s)
      | .refused => putAq s x.host { aqOf s x.host with lastStatus := st.1 }
      | .dry => s)

/-- Read the buffers of the commands in order. -/
def rereadAll : List IbCmd → List ReadEnd → State → State
  | x :: xs, r :: rs, s => rereadAll xs rs (rereadIb x xs r s)
  | _, _, s => s

/-- REPLAY_END: `diverged` are the tags whose replay decided otherwise; `rereads` are what the reads of the indirect buffers of the
commands that no committed Move holds gave, in order of their execution. -/
def execReplayEnd (diverged : List OpTag) (s : State) (rereads : List ReadEnd := []) : Out :=
  .next (if s.sides.disp = .replay && s.sides.holder.isSome then
      let s := count .sideJrnReplay [] 0 1 { s with sides := { s.sides with disp := .restart } }
      let s := rereadAll s.cmd.ibCmds rereads s
      diverged.foldl (fun s t => divergeCase s t.val) s
    else s)

end Sys2Proof.Machine
end

