-- ==== Sys2Proof/Machine/Registers.lean ====
section
/-!
DEFINITION. Machine/Registers.lean: rows of register reads and writes (R36, R37, R83, R183, R277, R472, R512, R530, R531).
-/

namespace Sys2Proof.Machine

/-- REGISTER_WRITE: a write of a host to a DWORD of one of its BARs (R526, R528). Configuration writes come with
BUS_MASTER_ENABLE_CHANGE (log entry 32). While the Scoresheets are full the host waits (R391). -/
def execRegisterWrite (h : Host) (addr : Nat) (enables : BitVec 4) (v : W32) (s : State) (bar : Bar := .bar0) : Out :=
  .next (if s.jrn.full then s
    else match bar with
    | .bar0 => hostWrite h.val addr enables v s
    | .bar2 => writePage h.val addr enables v s
    | .bar4 => writeMsix h.val addr enables v s
    | .config => s)

/-- SIDE_REG_WRITE_APPLY: the oldest recorded write takes its place (R37). -/
def execSideRegWriteApply (s : State) : Out := .next (if consuming s then applyOldest s else s)

/-- CMD_AQ_CFG_WRITE: host `h` writes CMD_AQ_CFG of host `n` (R82, R83). -/
def execCmdAqCfgWrite (h : Host) (n : Host) (v : W32) (s : State) : Out := .next (writeSide h.val .cmdAqCfg [n.val] v s)

/-- DMA_POOL_RESUME (R183). -/
def execDmaPoolResume (h : Host) (s : State) : Out := .next (writeSide h.val .dmaPoolCtl [] 1 s)

/-- DMA_POOL_ABORT_CAND (R183). -/
def execDmaPoolAbortCand (h : Host) (s : State) : Out := .next (writeSide h.val .dmaPoolCtl [] 2 s)

/-- FORCE_SWITCH (R512). DEDUCED, log entry 18. -/
def execForceSwitch (h : Host) (v : W32) (s : State) : Out := .next (writeAt h.val .glbClkCfg [] v s)

/-- A write of a reader to one of its own recorder registers: firmware writes while its side serves. -/
def readerWrite (r : Reader) (g : Reg) (v : W32) (s : State) : State :=
  match r with
  | .host h => writeAt h.val g [] v s
  | .firmware => if consuming s then writeReg .firmware g [] v s else s

/-- REC_CURSOR_WRITE (R472). -/
def execRecCursorWrite (r : Reader) (v : W32) (s : State) : Out := .next (readerWrite r .recCursor v s)

/-- REC_RD_OLDEST (R472). -/
def execRecRdOldest (r : Reader) (v : W32) (s : State) : Out := .next (readerWrite r .recRdCfg v s)

/-- REC_RD_NEWEST (R472). -/
def execRecRdNewest (r : Reader) (v : W32) (s : State) : Out := .next (readerWrite r .recRdCfg v s)

/-- PORT_CNT_LO_READ (R277, R278). -/
def execPortCntLoRead (r : Reader) (p : Port) (c : Fin 38) (s : State) : Out :=
  .next (readerRead r (regAddr .portCntLo [p.val, c.val]) s)

/-- COUNTER_READ_CLEAR: a read of the register at `addr`, whose RC fields it clears for the reader alone (R530). -/
def execCounterReadClear (r : Reader) (addr : Nat) (s : State) : Out := .next (readerRead r addr s)

/-- LO_WORD_READ: a read of the register at `addr`, which loads the reader's latch of its pair (R531), and of the words of the
doorbell pages, the MSI-X structures and the configuration space; `whole` says that it is an aligned DWORD (R123, R124, R526). -/
def execLoWordRead (r : Reader) (addr : Nat) (s : State) (bar : Bar := .bar0) (whole : Bool := true) : Out :=
  .next (match bar, r with
    | .bar0, _ => if whole then readerRead r addr s else partRead r addr s
    | .bar2, .host h => putRead r (w32 (pageWord s h.val addr whole)) s
    | .bar4, .host h => putRead r (w32 (msixWord s h.val addr)) s
    | .config, .host h => putRead r (w32 (configWord s h.val addr)) s
    | _, .firmware => s)

/-- HELD_SIDE_READ_COMPLETE (R36, R38). -/
def execHeldSideReadComplete (h : Host) (addr : Nat) (s : State) : Out := .next (answerHeld h addr s)

end Sys2Proof.Machine
end

