-- ==== Sys2Proof/Machine/Dispatch.lean ====
section
/-!
DEFINITION. Machine/Dispatch.lean: one arm per command or event, each a direct call of its meaning.
-/

namespace Sys2Proof.Machine

/-- The effect of a command or event on everything but the queue. -/
def exec (i : Instr) (s : State) : Host.Outcome State Fault Refusal :=
  match i with
  | .queCreateCq h p => Sys2Proof.Machine.execQueCreateCq h p s
  | .queCreateSq h p => Sys2Proof.Machine.execQueCreateSq h p s
  | .queDeleteSq h p => Sys2Proof.Machine.execQueDeleteSq h p s
  | .queDeleteCq h p => Sys2Proof.Machine.execQueDeleteCq h p s
  | .queSetWrr h p => Sys2Proof.Machine.execQueSetWrr h p s
  | .queSetQuota h p => Sys2Proof.Machine.execQueSetQuota h p s
  | .queQuery h p => Sys2Proof.Machine.execQueQuery h p s
  | .portSet h p => Sys2Proof.Machine.execPortSet h p s
  | .portEnable h p => Sys2Proof.Machine.execPortEnable h p s
  | .portFilterSet h p => Sys2Proof.Machine.execPortFilterSet h p s
  | .portEeeSet h p => Sys2Proof.Machine.execPortEeeSet h p s
  | .portRecal h p => Sys2Proof.Machine.execPortRecal h p s
  | .portQuery h p => Sys2Proof.Machine.execPortQuery h p s
  | .fldPortSet h p => Sys2Proof.Machine.execFldPortSet h p s
  | .fldAggLoad h p ib => Sys2Proof.Machine.execFldAggLoad h p ib s
  | .fldQuery h p => Sys2Proof.Machine.execFldQuery h p s
  | .gateTapeLoad h p ib => Sys2Proof.Machine.execGateTapeLoad h p ib s
  | .gateClassSet h p => Sys2Proof.Machine.execGateClassSet h p s
  | .gateCloseMode h p => Sys2Proof.Machine.execGateCloseMode h p s
  | .schFlowSet h p => Sys2Proof.Machine.execSchFlowSet h p s
  | .schFlowDisable h p => Sys2Proof.Machine.execSchFlowDisable h p s
  | .gateQuery h p => Sys2Proof.Machine.execGateQuery h p s
  | .schQuery h p => Sys2Proof.Machine.execSchQuery h p s
  | .gateTapeCancel h p => Sys2Proof.Machine.execGateTapeCancel h p s
  | .strmIdLoad h p ib => Sys2Proof.Machine.execStrmIdLoad h p ib s
  | .strmMeterSet h p => Sys2Proof.Machine.execStrmMeterSet h p s
  | .strmSeqgenSet h p => Sys2Proof.Machine.execStrmSeqgenSet h p s
  | .strmSeqrecSet h p => Sys2Proof.Machine.execStrmSeqrecSet h p s
  | .strmQuery h p => Sys2Proof.Machine.execStrmQuery h p s
  | .timeDomainSet h p => Sys2Proof.Machine.execTimeDomainSet h p s
  | .timeStep h p => Sys2Proof.Machine.execTimeStep h p s
  | .timeRateSet h p => Sys2Proof.Machine.execTimeRateSet h p s
  | .timePpsSet h p => Sys2Proof.Machine.execTimePpsSet h p s
  | .timeQuery h p => Sys2Proof.Machine.execTimeQuery h p s
  | .sideCastle h p => Sys2Proof.Machine.execSideCastle h p s
  | .sideSelftest h p => Sys2Proof.Machine.execSideSelftest h p s
  | .sideResetStandby h p => Sys2Proof.Machine.execSideResetStandby h p s
  | .sideQuery h p => Sys2Proof.Machine.execSideQuery h p s
  | .fabSet h p => Sys2Proof.Machine.execFabSet h p s
  | .fabRouteLoad h p ib => Sys2Proof.Machine.execFabRouteLoad h p ib s
  | .fabBypassSet h p => Sys2Proof.Machine.execFabBypassSet h p s
  | .fabQuery h p => Sys2Proof.Machine.execFabQuery h p s
  | .recNote h p => Sys2Proof.Machine.execRecNote h p s
  | .recClearChallenge h p => Sys2Proof.Machine.execRecClearChallenge h p s
  | .recClear h p ib => Sys2Proof.Machine.execRecClear h p ib s
  | .recQuery h p => Sys2Proof.Machine.execRecQuery h p s
  | .fwQuery h p => Sys2Proof.Machine.execFwQuery h p s
  | .fwWrite h p ib => Sys2Proof.Machine.execFwWrite h p ib s
  | .fwVerify h p => Sys2Proof.Machine.execFwVerify h p s
  | .fwActivate h p => Sys2Proof.Machine.execFwActivate h p s
  | .modeQuery h p => Sys2Proof.Machine.execModeQuery h p s
  | .modeStartCold h p => Sys2Proof.Machine.execModeStartCold h p s
  | .modeStartWarm h p => Sys2Proof.Machine.execModeStartWarm h p s
  | .modeConfigEnter h p => Sys2Proof.Machine.execModeConfigEnter h p s
  | .modeConfigExit h p => Sys2Proof.Machine.execModeConfigExit h p s
  | .modeSafeHold h p => Sys2Proof.Machine.execModeSafeHold h p s
  | .modeResume h p => Sys2Proof.Machine.execModeResume h p s
  | .longCommandComplete g => Sys2Proof.Machine.execLongCommandComplete g s
  | .classLTimeout g => Sys2Proof.Machine.execClassLTimeout g s
  | .calibrationEnd p => Sys2Proof.Machine.execCalibrationEnd p s
  | .statusPacketWrite h d => Sys2Proof.Machine.execStatusPacketWrite h s d
  | .frameTx h q t => Sys2Proof.Machine.execFrameTx h q t s
  | .frameRxPost h q t => Sys2Proof.Machine.execFrameRxPost h q t s
  | .inlineFrame h q t => Sys2Proof.Machine.execInlineFrame h q t s
  | .streamSend h q t tpl => Sys2Proof.Machine.execStreamSend h q t tpl s
  | .dmaXfer h q t => Sys2Proof.Machine.execDmaXfer h q t s
  | .aggBuildGather h q t => Sys2Proof.Machine.execAggBuildGather h q t s
  | .aggBuildScatter h q t src => Sys2Proof.Machine.execAggBuildScatter h q t src s
  | .fence h q t => Sys2Proof.Machine.execFence h q t s
  | .fenceFlush h q t => Sys2Proof.Machine.execFenceFlush h q t s
  | .sqDbWrite h q aligned v => Sys2Proof.Machine.execSqDbWrite h q aligned v s
  | .sqPushWrite h q off bytes => Sys2Proof.Machine.execSqPushWrite h q off bytes s
  | .cqCiWrite h q aligned v => Sys2Proof.Machine.execCqCiWrite h q aligned v s
  | .ringFetchTurn h q slots => Sys2Proof.Machine.execRingFetchTurn h q slots s
  | .ringFetchComplete h q bytes => Sys2Proof.Machine.execRingFetchComplete h q bytes s
  | .ringFetchFault h q e => Sys2Proof.Machine.execRingFetchFault h q e s
  | .entryAccept h q => Sys2Proof.Machine.execEntryAccept h q s
  | .cqeWrite h c d => Sys2Proof.Machine.execCqeWrite h c s d
  | .cqOverflowMove h c d => Sys2Proof.Machine.execCqOverflowMove h c s d
  | .dmaPoolChannelAssign t c => Sys2Proof.Machine.execDmaPoolChannelAssign t c s
  | .dmaReadCompletion c bytes => Sys2Proof.Machine.execDmaReadCompletion c bytes s
  | .dmaChainEnd c => Sys2Proof.Machine.execDmaChainEnd c s
  | .dmaBarrierFlushComplete c ok => Sys2Proof.Machine.execDmaBarrierFlushComplete c ok s
  | .dmaBusErrorPool c e addr also => Sys2Proof.Machine.execDmaBusErrorPool c e addr also s
  | .dmaBusErrorPrivileged c e addr space h => Sys2Proof.Machine.execDmaBusErrorPrivileged c e addr space h s
  | .pchHaltRelease c => Sys2Proof.Machine.execPchHaltRelease c s
  | .dmaPoolResume h => Sys2Proof.Machine.execDmaPoolResume h s
  | .dmaPoolAbortCand h => Sys2Proof.Machine.execDmaPoolAbortCand h s
  | .dmaPoolAutoAbort => Sys2Proof.Machine.execDmaPoolAutoAbort s
  | .lateCompletionDiscard c => Sys2Proof.Machine.execLateCompletionDiscard c s
  | .dmaCompletionTimeout c addr also => Sys2Proof.Machine.execDmaCompletionTimeout c addr also s
  | .dmaWithdraw c residue => Sys2Proof.Machine.execDmaWithdraw c residue s
  | .schedulerPick p t d => Sys2Proof.Machine.execSchedulerPick p t s d
  | .expressLaneArrival h q t d => Sys2Proof.Machine.execExpressLaneArrival h q t s d
  | .segmentPick p t d => Sys2Proof.Machine.execSegmentPick p t s d
  | .payloadPrefetch t bytes => Sys2Proof.Machine.execPayloadPrefetch t bytes s
  | .frameExpiry f => Sys2Proof.Machine.execFrameExpiry f s
  | .tagSweep f => Sys2Proof.Machine.execTagSweep f s
  | .monitorSample m => Sys2Proof.Machine.execMonitorSample m s
  | .rateTick => Sys2Proof.Machine.execRateTick s
  | .gateEntryStart p => Sys2Proof.Machine.execGateEntryStart p s
  | .gateCycleEnd p => Sys2Proof.Machine.execGateCycleEnd p s
  | .tapeSwitch p => Sys2Proof.Machine.execTapeSwitch p s
  | .gateHoldAdvance p => Sys2Proof.Machine.execGateHoldAdvance p s
  | .executorFrameStart p => Sys2Proof.Machine.execExecutorFrameStart p s
  | .frameDeparture p => Sys2Proof.Machine.execFrameDeparture p s
  | .mmVerifyResponse p => Sys2Proof.Machine.execMmVerifyResponse p s
  | .mmVerifyTimeout p => Sys2Proof.Machine.execMmVerifyTimeout p s
  | .portFrameRxStart p => Sys2Proof.Machine.execPortFrameRxStart p s
  | .portFrameRxEnd p f => Sys2Proof.Machine.execPortFrameRxEnd p f s
  | .rxClassify p => Sys2Proof.Machine.execRxClassify p s
  | .linkUp p => Sys2Proof.Machine.execLinkUp p s
  | .linkDown p lock hiBer => Sys2Proof.Machine.execLinkDown p s lock hiBer
  | .inbandMismatch p speed fullDuplex => Sys2Proof.Machine.execInbandMismatch p speed fullDuplex s
  | .lpiEnter p => Sys2Proof.Machine.execLpiEnter p s
  | .lpiWake p => Sys2Proof.Machine.execLpiWake p s
  | .lpiWakeDone p => Sys2Proof.Machine.execLpiWakeDone p s
  | .lldpEeeTlvRx p rxTwUs addFrag => Sys2Proof.Machine.execLldpEeeTlvRx p rxTwUs addFrag s
  | .lldpTlvAgeOut p => Sys2Proof.Machine.execLldpTlvAgeOut p s
  | .frerResetTimeout r => Sys2Proof.Machine.execFrerResetTimeout r s
  | .timeTick a b c => Sys2Proof.Machine.execTimeTick a b c s
  | .stepApply => Sys2Proof.Machine.execStepApply s
  | .ppsOutPulse => Sys2Proof.Machine.execPpsOutPulse s
  | .ppsInEdge => Sys2Proof.Machine.execPpsInEdge s
  | .moveMarker => Sys2Proof.Machine.execMoveMarker s
  | .msTimeEvent => Sys2Proof.Machine.execMsTimeEvent s
  | .optimeSave => Sys2Proof.Machine.execOptimeSave s
  | .journalSummaryWrite => Sys2Proof.Machine.execJournalSummaryWrite s
  | .syncRx f => Sys2Proof.Machine.execSyncRx f s
  | .syncTransmit slot sequenceId d => Sys2Proof.Machine.execSyncTransmit slot sequenceId s d
  | .pdelayReqTransmit slot p sequenceId d => Sys2Proof.Machine.execPdelayReqTransmit slot p sequenceId s d
  | .pdelayRx m => Sys2Proof.Machine.execPdelayRx m s
  | .syncReceiptTimeout slot => Sys2Proof.Machine.execSyncReceiptTimeout slot s
  | .slewEnd => Sys2Proof.Machine.execSlewEnd s
  | .prefSlotReturn => Sys2Proof.Machine.execPrefSlotReturn s
  | .refLost r => Sys2Proof.Machine.execRefLost r s
  | .refQualified r qual => Sys2Proof.Machine.execRefQualified r s qual
  | .refHoldExpiry => Sys2Proof.Machine.execRefHoldExpiry s
  | .forceSwitch h v => Sys2Proof.Machine.execForceSwitch h v s
  | .txtsPop0Read r p => Sys2Proof.Machine.execTxtsPop0Read r p s
  | .alivePulseStop d c => Sys2Proof.Machine.execAlivePulseStop d c s
  | .heartbeatSend d => Sys2Proof.Machine.execHeartbeatSend d s
  | .heartbeatMiss d => Sys2Proof.Machine.execHeartbeatMiss d s
  | .mlFlitCrcFail flit d => Sys2Proof.Machine.execMlFlitCrcFail s flit d
  | .flagFall d => Sys2Proof.Machine.execFlagFall d s
  | .chessClockPress d => Sys2Proof.Machine.execChessClockPress d s
  | .chessClockGrant => Sys2Proof.Machine.execChessClockGrant s
  | .pressRefused d => Sys2Proof.Machine.execPressRefused d s
  | .handoverAck => Sys2Proof.Machine.execHandoverAck s
  | .handoverTimeout => Sys2Proof.Machine.execHandoverTimeout s
  | .commitTokenRx t => Sys2Proof.Machine.execCommitTokenRx t s
  | .commitAck => Sys2Proof.Machine.execCommitAck s
  | .commitAckTimeout => Sys2Proof.Machine.execCommitAckTimeout s
  | .moveSlotWriteDone move => Sys2Proof.Machine.execMoveSlotWriteDone move s
  | .jrnThrottle => Sys2Proof.Machine.execJrnThrottle s
  | .replayEnd diverged rereads => Sys2Proof.Machine.execReplayEnd diverged s rereads
  | .dispatchRestartEnd interruptNs => Sys2Proof.Machine.execDispatchRestartEnd interruptNs s
  | .lsOutputMismatch o w b => Sys2Proof.Machine.execLsOutputMismatch o s w b
  | .lsPartnerWaitTimeout o => Sys2Proof.Machine.execLsPartnerWaitTimeout o s
  | .lsSelfCheckEnd whitePass blackPass => Sys2Proof.Machine.execLsSelfCheckEnd whitePass blackPass s
  | .mlSelftestRun clean => Sys2Proof.Machine.execMlSelftestRun clean s
  | .selftestEnd passed => Sys2Proof.Machine.execSelftestEnd passed s
  | .resyncPhaseEnd granules => Sys2Proof.Machine.execResyncPhaseEnd granules s
  | .resyncLoadEnd => Sys2Proof.Machine.execResyncLoadEnd s
  | .scoresheetFull => Sys2Proof.Machine.execScoresheetFull s
  | .flushEnd d => Sys2Proof.Machine.execFlushEnd d s
  | .sideResetRelease d => Sys2Proof.Machine.execSideResetRelease d s
  | .porstNAssert => Sys2Proof.Machine.execPorstNAssert s
  | .porstNRelease => Sys2Proof.Machine.execPorstNRelease s
  | .sideResetPinAssert d => Sys2Proof.Machine.execSideResetPinAssert d s
  | .bothSidePinsLow => Sys2Proof.Machine.execBothSidePinsLow s
  | .holdNLow => Sys2Proof.Machine.execHoldNLow s
  | .perstAssert h => Sys2Proof.Machine.execPerstAssert h s
  | .hostLinkChange h up => Sys2Proof.Machine.execHostLinkChange h up s
  | .busMasterEnableChange h x bars => Sys2Proof.Machine.execBusMasterEnableChange h x bars s
  | .msixUnmask h v => Sys2Proof.Machine.execMsixUnmask h v s
  | .feedLoss f => Sys2Proof.Machine.execFeedLoss f s
  | .feedPresent f => Sys2Proof.Machine.execFeedPresent f s
  | .rimSupplyFail => Sys2Proof.Machine.execRimSupplyFail s
  | .viofFault k v3v3 => Sys2Proof.Machine.execViofFault k s v3v3
  | .viofRecover k v3v3 => Sys2Proof.Machine.execViofRecover k v3v3 s
  | .rimClockUnlock n => Sys2Proof.Machine.execRimClockUnlock n s
  | .autoReset d => Sys2Proof.Machine.execAutoReset d s
  | .thermCross n temp => Sys2Proof.Machine.execThermCross n temp s
  | .configLoadItem item => Sys2Proof.Machine.execConfigLoadItem item s
  | .timeAcqTimeout => Sys2Proof.Machine.execTimeAcqTimeout s
  | .fieldFrameRxStart n => Sys2Proof.Machine.execFieldFrameRxStart n s
  | .fieldFrameRxEnd n e => Sys2Proof.Machine.execFieldFrameRxEnd n e s
  | .fieldRxDeliver n => Sys2Proof.Machine.execFieldRxDeliver n s
  | .fieldEnqueue n num d => Sys2Proof.Machine.execFieldEnqueue n num s d
  | .fieldTxEnd n ok => Sys2Proof.Machine.execFieldTxEnd n ok s
  | .fieldSettingApply n => Sys2Proof.Machine.execFieldSettingApply n s
  | .canBusOff n => Sys2Proof.Machine.execCanBusOff n s
  | .busoffRecovery n => Sys2Proof.Machine.execBusoffRecovery n s
  | .plcaBeaconLoss n => Sys2Proof.Machine.execPlcaBeaconLoss n s
  | .gatherTrigger a => Sys2Proof.Machine.execGatherTrigger a s
  | .gatherBuildEnd a => Sys2Proof.Machine.execGatherBuildEnd a s
  | .scatterWriteEnd a => Sys2Proof.Machine.execScatterWriteEnd a s
  | .helloSend => Sys2Proof.Machine.execHelloSend s
  | .helloRx p x => Sys2Proof.Machine.execHelloRx p x s
  | .adjacencyTimeout p => Sys2Proof.Machine.execAdjacencyTimeout p s
  | .topologySend => Sys2Proof.Machine.execTopologySend s
  | .topologyRx p m => Sys2Proof.Machine.execTopologyRx p m s
  | .topologyAgeOut uid => Sys2Proof.Machine.execTopologyAgeOut uid s
  | .routeCompute sec => Sys2Proof.Machine.execRouteCompute sec s
  | .idClaim => Sys2Proof.Machine.execIdClaim s
  | .transitRelay p f cut => Sys2Proof.Machine.execTransitRelay p f cut s
  | .relayHoldTimeout p t => Sys2Proof.Machine.execRelayHoldTimeout p t s
  | .bypassInsertTimeout k => Sys2Proof.Machine.execBypassInsertTimeout k s
  | .bypassHoldoffEnd k => Sys2Proof.Machine.execBypassHoldoffEnd k s
  | .recordTake => Sys2Proof.Machine.execRecordTake s
  | .recordWriteDone retries => Sys2Proof.Machine.execRecordWriteDone s retries
  | .bankFail b cause => Sys2Proof.Machine.execBankFail b cause s
  | .recCursorWrite r v => Sys2Proof.Machine.execRecCursorWrite r v s
  | .recRdOldest r v => Sys2Proof.Machine.execRecRdOldest r v s
  | .recRdNewest r v => Sys2Proof.Machine.execRecRdNewest r v s
  | .recWindowLoadEnd r damaged => Sys2Proof.Machine.execRecWindowLoadEnd r s damaged
  | .rimSetApply d => Sys2Proof.Machine.execRimSetApply s d
  | .evtRouteWrite h n src v => Sys2Proof.Machine.execEvtRouteWrite h n src v s
  | .evtCoalWrite h n vec v => Sys2Proof.Machine.execEvtCoalWrite h n vec v s
  | .coalesceTimeout h vec => Sys2Proof.Machine.execCoalesceTimeout h vec s
  | .evtPinCfgWrite h v => Sys2Proof.Machine.execEvtPinCfgWrite h v s
  | .eventNPulseEnd => Sys2Proof.Machine.execEventNPulseEnd s
  | .evtTestRaise h v => Sys2Proof.Machine.execEvtTestRaise h v s
  | .evtStatClear r pinCopy w v => Sys2Proof.Machine.execEvtStatClear r pinCopy w v s
  | .cmdAqCfgWrite h n v => Sys2Proof.Machine.execCmdAqCfgWrite h n v s
  | .portCntLoRead r p c => Sys2Proof.Machine.execPortCntLoRead r p c s
  | .counterReadClear r addr => Sys2Proof.Machine.execCounterReadClear r addr s
  | .loWordRead r addr bar whole => Sys2Proof.Machine.execLoWordRead r addr s bar whole
  | .heldSideReadComplete h addr => Sys2Proof.Machine.execHeldSideReadComplete h addr s
  | .registerWrite h addr enables v bar => Sys2Proof.Machine.execRegisterWrite h addr enables v s bar
  | .sideRegWriteApply => Sys2Proof.Machine.execSideRegWriteApply s
  | .holdNHigh => Sys2Proof.Machine.execHoldNHigh s
  | .supplySelectorSwitch r source => Sys2Proof.Machine.execSupplySelectorSwitch r source s
  | .sideBootEnd d e active other bufFault => Sys2Proof.Machine.execSideBootEnd d e active other s bufFault
  | .recorderRebuildEnd bad0 bad1 => Sys2Proof.Machine.execRecorderRebuildEnd bad0 bad1 s
  | .plcaBeaconReturn n nodeCount => Sys2Proof.Machine.execPlcaBeaconReturn n nodeCount s
  | .bypassLinkLossTimeout k => Sys2Proof.Machine.execBypassLinkLossTimeout k s
  | .rimClockRelock n => Sys2Proof.Machine.execRimClockRelock n s
  | .fecUncorrectableBlock p => Sys2Proof.Machine.execFecUncorrectableBlock p s
  | .rxLpiSignaled p us active => Sys2Proof.Machine.execRxLpiSignaled p us active s

end Sys2Proof.Machine
end

