-- ==== Sys2Proof/WellFormed.lean ====
section
/-!
DEFINITION. WellFormed.lean: the operands that the part can meet, where an operand's type is wider than that: packets
under the row that their opcode names, lengths of transfers and frames, BAR0 addresses.
-/

namespace Sys2Proof

open Sys2Proof.Machine

/-- The packet is the row's: it carries the row's opcode, or one that nothing defines (which any row refuses, R62). -/
def packetOk (c : CmdSpec) (p : Packet) : Bool := rowTakes c p

/-- A read of host memory brings at most 16 MiB (R57, R249). -/
def readOk : ReadEnd → Bool
  | .data l => decide (l.length ≤ 16777216)
  | .fault _ => true

/-- A command's indirect-buffer read brings the number of bytes that the packet gives, where the packet's buffer is one
that is read (R57). -/
def bufferOk (c : CmdSpec) (p : Packet) (r : ReadEnd) : Bool :=
  readOk r && (match c.ibuf, r with
    | some o, .data l => decide (l.length = ibLen p o) || !(ibufFindings p o).isEmpty
    | _, _ => true)

/-- A received frame has at least one byte, and may have any length (R268). -/
def frameOk (f : RxFacts) : Bool := decide (1 ≤ f.bytes.length)

/-- An address of BAR0 (R526). -/
def addrOk (a : Nat) : Bool := decide (a < 0x2000000)

/-- An offset in a BAR, which holds 32 MiB, 4 MiB or 64 KiB (R526). -/
def barOk : Bar → Nat → Bool
  | .bar0, a => addrOk a
  | .bar2, a => decide (a < 0x400000)
  | .bar4, a => decide (a < 0x10000)
  | .config, a => decide (a < 0x1000)

/-- A field frame's data fits the longest frame of either role (R328, R331). -/
def fldEndOk : FldRxEnd → Bool
  | .good f => decide (f.data.length ≤ 2048)
  | .filtered => true
  | .error => true

/-- A second path names a node, a port and a hop count (R418, R420). -/
def secOk (x : SecPath) : Bool :=
  let tree := fun l : List (Nat × Nat) => decide (l.length ≤ 64) && l.all (fun e => decide (e.1 < 4096) && decide (e.2 < 4096))
  decide (x.dst < 4096) && decide (x.port < 32) && tree x.first && tree x.second

/-- A boot fails for one of the causes of GLB_START_STAT. -/
def bootOk : BootEnd → Bool
  | .ready => true
  | .failed c => decide (1 ≤ c) && decide (c ≤ 6)

/-- A configuration item: a register write names a BAR0 address (R442). -/
def itemOk : CfgItem → Bool
  | .command _ r => readOk r
  | .regWrite a _ => addrOk a && decide (a % 4 = 0)
  | .endOfImage _ => true
  | .noImage => true

/-- The command or event is one that the part can meet. -/
def wellFormed : Instr → Bool
  | .queCreateCq _ p => packetOk csCreateCq p
  | .queCreateSq _ p => packetOk csCreateSq p
  | .queDeleteSq _ p => packetOk csDeleteSq p
  | .queDeleteCq _ p => packetOk csDeleteCq p
  | .queSetWrr _ p => packetOk csSetWrr p
  | .queSetQuota _ p => packetOk csSetQuota p
  | .queQuery _ p => packetOk csQueQuery p
  | .portSet _ p => packetOk csPortSet p
  | .portEnable _ p => packetOk csPortEnable p
  | .portFilterSet _ p => packetOk csPortFilterSet p
  | .portEeeSet _ p => packetOk csPortEeeSet p
  | .portRecal _ p => packetOk csPortRecal p
  | .portQuery _ p => packetOk csPortQuery p
  | .fldPortSet _ p => packetOk csFldPortSet p
  | .fldAggLoad _ p r => packetOk csFldAggLoad p && bufferOk csFldAggLoad p r
  | .fldQuery _ p => packetOk csFldQuery p
  | .gateTapeLoad _ p r => packetOk csTapeLoad p && bufferOk csTapeLoad p r
  | .gateClassSet _ p => packetOk csClassSet p
  | .gateCloseMode _ p => packetOk csCloseMode p
  | .schFlowSet _ p => packetOk csFlowSet p
  | .schFlowDisable _ p => packetOk csFlowDisable p
  | .gateQuery _ p => packetOk csGateQuery p
  | .schQuery _ p => packetOk csSchQuery p
  | .gateTapeCancel _ p => packetOk csTapeCancel p
  | .strmIdLoad _ p r => packetOk csIdLoad p && bufferOk csIdLoad p r
  | .strmMeterSet _ p => packetOk csMeterSet p
  | .strmSeqgenSet _ p => packetOk csSeqgenSet p
  | .strmSeqrecSet _ p => packetOk csSeqrecSet p
  | .strmQuery _ p => packetOk csStrmQuery p
  | .timeDomainSet _ p => packetOk csDomainSet p
  | .timeStep _ p => packetOk csTimeStep p
  | .timeRateSet _ p => packetOk csRateSet p
  | .timePpsSet _ p => packetOk csPpsSet p
  | .timeQuery _ p => packetOk csTimeQuery p
  | .sideCastle _ p => packetOk csCastle p
  | .sideSelftest _ p => packetOk csSelftest p
  | .sideResetStandby _ p => packetOk csResetStandby p
  | .sideQuery _ p => packetOk csSideQuery p
  | .fabSet _ p => packetOk csFabSet p
  | .fabRouteLoad _ p r => packetOk csRouteLoad p && bufferOk csRouteLoad p r
  | .fabBypassSet _ p => packetOk csBypassSet p
  | .fabQuery _ p => packetOk csFabQuery p
  | .recNote _ p => packetOk csNote p
  | .recClearChallenge _ p => packetOk csChallenge p
  | .recClear _ p r => packetOk csRecClear p && bufferOk csRecClear p r
  | .recQuery _ p => packetOk csRecQuery p
  | .fwQuery _ p => packetOk csFwQuery p
  | .fwWrite _ p r => packetOk csFwWrite p && bufferOk csFwWrite p r
  | .fwVerify _ p => packetOk csFwVerify p
  | .fwActivate _ p => packetOk csFwActivate p
  | .modeQuery _ p => packetOk csModeQuery p
  | .modeStartCold _ p => packetOk csModeStart p
  | .modeStartWarm _ p => packetOk csModeStart p
  | .modeConfigEnter _ p => packetOk csConfigEnter p
  | .modeConfigExit _ p => packetOk csConfigExit p
  | .modeSafeHold _ p => packetOk csSafeHold p
  | .modeResume _ p => packetOk csResume p
  | .streamSend _ _ _ r => readOk r
  | .aggBuildScatter _ _ _ r => readOk r
  | .sqPushWrite _ _ off bytes => decide (off < 256) && decide (1 ≤ bytes.length) && decide (off + bytes.length ≤ 256)
  | .ringFetchTurn _ _ n => decide (1 ≤ n) && decide (n ≤ 32768)
  | .ringFetchComplete _ _ bytes => decide (bytes.length % 64 = 0)
  | .dmaReadCompletion _ bytes => decide (1 ≤ bytes.length)
  | .dmaWithdraw _ n => decide (n ≤ 16777216)
  | .payloadPrefetch _ bytes => decide (bytes.length ≤ 16777216)
  | .portFrameRxEnd _ f => frameOk f
  | .lldpEeeTlvRx _ n _ => decide (n < 65536)
  | .commitTokenRx t => decide (t.flits ≤ 32768)
  | .replayEnd l rs => decide l.Nodup && rs.all readOk
  | .dispatchRestartEnd n => decide (n < 2 ^ 32)
  | .resyncPhaseEnd n => decide (n < 2 ^ 32)
  | .configLoadItem i => itemOk i
  | .fieldFrameRxEnd _ e => fldEndOk e
  | .helloRx _ x => decide (x.interval ≤ 100)
  | .topologyRx _ m => decide (m.nbrs.length ≤ 32)
  | .routeCompute l => l.all secOk
  | .transitRelay _ f _ => frameOk f
  | .counterReadClear _ a => addrOk a
  | .loWordRead _ a b _ => barOk b a
  | .heldSideReadComplete _ a => addrOk a
  | .registerWrite _ a _ _ b => barOk b a
  | .supplySelectorSwitch _ n => decide (1 ≤ n.val)
  | .sideBootEnd _ e _ _ _ => bootOk e
  | .plcaBeaconReturn _ n => decide (n ≤ 255)
  | .longCommandComplete _ | .classLTimeout _ | .calibrationEnd _ | .statusPacketWrite _ _ | .frameTx _ _ _
  | .frameRxPost _ _ _ | .inlineFrame _ _ _ | .dmaXfer _ _ _ | .aggBuildGather _ _ _ | .fence _ _ _ | .fenceFlush _ _ _
  | .sqDbWrite _ _ _ _ | .cqCiWrite _ _ _ _ | .ringFetchFault _ _ _ | .entryAccept _ _ | .cqeWrite _ _ _
  | .cqOverflowMove _ _ _ | .dmaPoolChannelAssign _ _ | .dmaChainEnd _ | .dmaBarrierFlushComplete _ _
  | .dmaBusErrorPool _ _ _ _ | .dmaCompletionTimeout _ _ _
  | .dmaBusErrorPrivileged _ _ _ _ _ | .pchHaltRelease _ | .dmaPoolResume _ | .dmaPoolAbortCand _ | .dmaPoolAutoAbort
  | .lateCompletionDiscard _ | .schedulerPick _ _ _ | .expressLaneArrival _ _ _ _ | .segmentPick _ _ _ | .frameExpiry _
  | .tagSweep _ | .monitorSample _ | .rateTick | .gateEntryStart _ | .gateCycleEnd _ | .tapeSwitch _
  | .gateHoldAdvance _ | .executorFrameStart _ | .frameDeparture _ | .mmVerifyResponse _ | .mmVerifyTimeout _
  | .portFrameRxStart _ | .rxClassify _ | .linkUp _ | .linkDown _ _ _ | .inbandMismatch _ _ _ | .lpiEnter _ | .lpiWake _
  | .lpiWakeDone _ | .lldpTlvAgeOut _ | .frerResetTimeout _ | .timeTick _ _ _ | .stepApply | .ppsOutPulse | .ppsInEdge
  | .moveMarker | .msTimeEvent | .optimeSave | .journalSummaryWrite | .syncRx _ | .syncTransmit _ _ _
  | .pdelayReqTransmit _ _ _ _ | .pdelayRx _ | .syncReceiptTimeout _ | .slewEnd | .prefSlotReturn | .refLost _
  | .refQualified _ _ | .refHoldExpiry | .forceSwitch _ _ | .txtsPop0Read _ _ | .alivePulseStop _ _ | .heartbeatSend _
  | .heartbeatMiss _ | .mlFlitCrcFail _ _ | .flagFall _ | .chessClockPress _ | .chessClockGrant | .pressRefused _
  | .handoverAck | .handoverTimeout | .commitAck | .commitAckTimeout | .moveSlotWriteDone _ | .jrnThrottle | .lsOutputMismatch _ _ _
  | .lsPartnerWaitTimeout _ | .lsSelfCheckEnd _ _ | .mlSelftestRun _ | .selftestEnd _ | .resyncLoadEnd
  | .scoresheetFull | .flushEnd _ | .sideResetRelease _ | .porstNAssert | .porstNRelease | .sideResetPinAssert _
  | .bothSidePinsLow | .holdNLow | .perstAssert _ | .hostLinkChange _ _ | .busMasterEnableChange _ _ _
  | .msixUnmask _ _ | .feedLoss _ | .feedPresent _ | .rimSupplyFail | .viofFault _ _ | .viofRecover _ _
  | .rimClockUnlock _ | .autoReset _ | .thermCross _ _ | .timeAcqTimeout | .fieldFrameRxStart _ | .fieldRxDeliver _
  | .fieldEnqueue _ _ _ | .fieldTxEnd _ _ | .fieldSettingApply _ | .canBusOff _ | .busoffRecovery _ | .plcaBeaconLoss _
  | .gatherTrigger _ | .gatherBuildEnd _ | .scatterWriteEnd _ | .helloSend | .adjacencyTimeout _ | .topologySend
  | .topologyAgeOut _ | .idClaim | .relayHoldTimeout _ _ | .bypassInsertTimeout _ | .bypassHoldoffEnd _ | .recordTake
  | .recordWriteDone _ | .bankFail _ _ | .recCursorWrite _ _ | .recRdOldest _ _ | .recRdNewest _ _ | .recWindowLoadEnd _ _
  | .rimSetApply _ | .evtRouteWrite _ _ _ _ | .evtCoalWrite _ _ _ _ | .coalesceTimeout _ _ | .evtPinCfgWrite _ _
  | .eventNPulseEnd | .evtTestRaise _ _ | .evtStatClear _ _ _ _ | .cmdAqCfgWrite _ _ _ | .portCntLoRead _ _ _
  | .sideRegWriteApply | .holdNHigh | .recorderRebuildEnd _ _ | .bypassLinkLossTimeout _ | .rimClockRelock _
  | .fecUncorrectableBlock _ | .rxLpiSignaled _ _ _ => true

end Sys2Proof
end

