-- ==== Sys2Proof/Safety.lean ====
section
/-!
DEFINITION. Safety.lean: what holds of the part in every run, and the words that the statements use: canonical memory,
the legal modes, an admin command that is accepted and has its turn, and what executing it leaves.
-/

namespace Sys2Proof.Machine

/-- A byte memory whose unlisted bytes read `d` is in its one form: addresses strictly rising, `d` never listed. -/
def Memory.wf (d : Byte) : List Host.Cell → Bool
  | [] => true
  | [x] => x.2 != d
  | x :: y :: t => decide (x.1 < y.1) && x.2 != d && Memory.wf d (y :: t)

/-- The contents that the part has programmed into a flash are in canonical form: an erased byte is 0xFF. -/
def flashWf (f : Flash) : Bool := Memory.wf 0xFF f.cells

/-- What every step keeps: GLB_MODE.MODE is a mode of R435, and the contents of both flashes are in canonical form. -/
def Inv (s : State) : Prop := s.glb.mode ≤ 11 ∧ flashWf s.flashW = true ∧ flashWf s.flashB = true

/-- The issuer of a host's command in a state. -/
def issuer (h : Host) (s : State) : Issuer := { host := h.val, mon := monitor s }

/-- The command has its turn under R68 and R69, its indirect buffer can be read (R181, R518), it carries its row's opcode, and no
fault of R62 applies to it. -/
def Accepted (c : CmdSpec) (b : Body) (h : Host) (p : Packet) (ib : ReadEnd) (s : State) : Prop :=
  adminDue h p s = true ∧ ibReady c (issuer h s) p s = true ∧ p.opcode.toNat = c.opcode
    ∧ findings c b (issuer h s) p ib (consumeAdmin h s) = []

/-- The same, and it is no dry run (R53). -/
def Executes (c : CmdSpec) (b : Body) (h : Host) (p : Packet) (ib : ReadEnd) (s : State) : Prop :=
  Accepted c b h p ib s ∧ dryRun p = false

/-- The turn of a command as such: its place in the admin SQ and, where its row has an indirect buffer, the buffer's read with what
a failed read leaves (R57, R59, R181). -/
def turnTaken (c : CmdSpec) (h : Host) (p : Packet) (ib : ReadEnd) (s : State) : State :=
  ibChannel c (issuer h s) p ib (consumeAdmin h s)

/-- A command ends with ST_OK at its execution: its generation counts one where it has changed state, CMD_AQ_CNT counts it, and
its status packet falls due (R55, R59, R82). -/
def ends (h : Host) (p : Packet) (s : State) (changed : Bool) (t : State) : State :=
  resume s (reply (issuer h s) p none 0 (if changed then bumpGen p t else t))

/-- A query ends: as `ends`, without a count of its generation (R55). -/
def answers (h : Host) (p : Packet) (s : State) (result : Nat) : State :=
  resume s (reply (issuer h s) p none result (consumeAdmin h s))

/-- A command's indirect buffer, with the bytes `l`, has been read over channel 0 (R57, R161). -/
def bufferRead (h : Host) (l : List Byte) (s : State) : State := pchDone 0 l.length (consumeAdmin h s)

/-- What runs in the group of a class L command that has begun: the status packet's fixed fields are those of its
execution (R59, R69). -/
def longEntry (h : Host) (p : Packet) (s : State) (op : LongOp) (changed : Bool) : Running :=
  let u := consumeAdmin h s
  { host := h.val, pkt := p, asqHead := (aqOf u h.val).head, epoch := cmdEpoch u, gen := genOf u p, op := op
    changes := changed, move := u.jrn.move, mon := monitor s }

/-- A class L command begins: from the state `t` it runs in its group with this work (R69); one with an indirect buffer is noted
for a replay (R58). -/
def begins (c : CmdSpec) (h : Host) (p : Packet) (s t : State) (op : LongOp) (changed : Bool) : State :=
  resume s (noteIb c (issuer h s) p (longEntry h p s op changed) s
    { t with cmd := { t.cmd with running := tset t.cmd.running (groupOf p) (longEntry h p s op changed) } })

/-- Every fault of a submission entry at its start (R136). `extra` holds those of its row. -/
def entryFindings (h : Host) (s : State) (x : Sq) (e : Taken) (extra : List Finding) : List Finding :=
  let base := sqeFindings e.bytes ++ portFindings s h.val e.bytes ++ extra
  base ++ rxFindings (decideRx x e.bytes base) e.bytes

/-- The first entry of the SQ starts now and no fault applies to it (R137 to R145). -/
def EntryStarts (h : Host) (q : QId) (t : OpTag) (s : State) (x : Sq) (e : Taken) (extra : List Finding) : Prop :=
  startable s h.val q.val t.val = some (x, e) ∧ e.fault = none ∧ entryFindings h s x e extra = []

/-- The entry has left its SQ, holds the tag, and its CQ keeps a place for it (R144, R146). -/
def entryTaken (h : Host) (q : QId) (t : OpTag) (s : State) (x : Sq) (e : Taken) (kind : OpKind) (extra : List Finding) : State :=
  takeTag h.val q.val t.val (decideRx x e.bytes (sqeFindings e.bytes ++ portFindings s h.val e.bytes ++ extra))
    x.entries.tail (opFor s h.val q.val e kind) s

/-- The faults that the row of a transmit FRAME adds to an entry's own (R134, R268). -/
def frameExtra (s : State) (e : List Byte) : List Finding :=
  flowFindings s e
    ++ when (decide ((portOf s (sqePort e)).maxlen + 8 < sqeLen e + 4 + rtagLen s (sqeFlow e))) (fRange 0x18)
    ++ windowFindings s e (sqeLen e) (gateOf s (sqePort e)).fit

/-- The first entry of the SQ starts now and has this as its first fault (R136). -/
def EntryFails (h : Host) (q : QId) (t : OpTag) (s : State) (x : Sq) (e : Taken) (extra : List Finding) (f : Finding) : Prop :=
  startable s h.val q.val t.val = some (x, e) ∧ e.fault = none ∧ worst (entryFindings h s x e extra) = some f

/-- What a row of the opcode tables runs: the issuing host, the packet, the row's rules and effect, and what its
indirect-buffer read brings. The two rows of MODE_START stand for KIND 0 and KIND 1. -/
def adminRow : Instr → Option (Host × Packet × CmdSpec × Body × ReadEnd)
  | .queCreateCq h p => some (h, p, csCreateCq, bodyCreateCq, (.data []))
  | .queCreateSq h p => some (h, p, csCreateSq, bodyCreateSq, (.data []))
  | .queDeleteSq h p => some (h, p, csDeleteSq, bodyDeleteSq, (.data []))
  | .queDeleteCq h p => some (h, p, csDeleteCq, bodyDeleteCq, (.data []))
  | .queSetWrr h p => some (h, p, csSetWrr, bodySetWrr, (.data []))
  | .queSetQuota h p => some (h, p, csSetQuota, bodySetQuota, (.data []))
  | .queQuery h p => some (h, p, csQueQuery, bodyQueQuery, (.data []))
  | .portSet h p => some (h, p, csPortSet, bodyPortSet, (.data []))
  | .portEnable h p => some (h, p, csPortEnable, bodyPortEnable, (.data []))
  | .portFilterSet h p => some (h, p, csPortFilterSet, bodyPortFilterSet, (.data []))
  | .portEeeSet h p => some (h, p, csPortEeeSet, bodyPortEeeSet, (.data []))
  | .portRecal h p => some (h, p, csPortRecal, bodyPortRecal, (.data []))
  | .portQuery h p => some (h, p, csPortQuery, bodyPortQuery, (.data []))
  | .fldPortSet h p => some (h, p, csFldPortSet, bodyFldPortSet, (.data []))
  | .fldAggLoad h p ib => some (h, p, csFldAggLoad, bodyAggLoad, ib)
  | .fldQuery h p => some (h, p, csFldQuery, bodyFldQuery, (.data []))
  | .gateTapeLoad h p ib => some (h, p, csTapeLoad, bodyTapeLoad, ib)
  | .gateClassSet h p => some (h, p, csClassSet, bodyClassSet, (.data []))
  | .gateCloseMode h p => some (h, p, csCloseMode, bodyCloseMode, (.data []))
  | .schFlowSet h p => some (h, p, csFlowSet, bodyFlowSet, (.data []))
  | .schFlowDisable h p => some (h, p, csFlowDisable, bodyFlowDisable, (.data []))
  | .gateQuery h p => some (h, p, csGateQuery, bodyGateQuery, (.data []))
  | .schQuery h p => some (h, p, csSchQuery, bodySchQuery, (.data []))
  | .gateTapeCancel h p => some (h, p, csTapeCancel, bodyTapeCancel, (.data []))
  | .strmIdLoad h p ib => some (h, p, csIdLoad, bodyIdLoad, ib)
  | .strmMeterSet h p => some (h, p, csMeterSet, bodyMeterSet, (.data []))
  | .strmSeqgenSet h p => some (h, p, csSeqgenSet, bodySeqgenSet, (.data []))
  | .strmSeqrecSet h p => some (h, p, csSeqrecSet, bodySeqrecSet, (.data []))
  | .strmQuery h p => some (h, p, csStrmQuery, bodyStrmQuery, (.data []))
  | .timeDomainSet h p => some (h, p, csDomainSet, bodyDomainSet, (.data []))
  | .timeStep h p => some (h, p, csTimeStep, bodyTimeStep, (.data []))
  | .timeRateSet h p => some (h, p, csRateSet, bodyRateSet, (.data []))
  | .timePpsSet h p => some (h, p, csPpsSet, bodyPpsSet, (.data []))
  | .timeQuery h p => some (h, p, csTimeQuery, bodyTimeQuery, (.data []))
  | .sideCastle h p => some (h, p, csCastle, bodyCastle, (.data []))
  | .sideSelftest h p => some (h, p, csSelftest, bodySelftest, (.data []))
  | .sideResetStandby h p => some (h, p, csResetStandby, bodyResetStandby, (.data []))
  | .sideQuery h p => some (h, p, csSideQuery, bodySideQuery, (.data []))
  | .fabSet h p => some (h, p, csFabSet, bodyFabSet, (.data []))
  | .fabRouteLoad h p ib => some (h, p, csRouteLoad, bodyRouteLoad, ib)
  | .fabBypassSet h p => some (h, p, csBypassSet, bodyBypassSet, (.data []))
  | .fabQuery h p => some (h, p, csFabQuery, bodyFabQuery, (.data []))
  | .recNote h p => some (h, p, csNote, bodyNote, (.data []))
  | .recClearChallenge h p => some (h, p, csChallenge, bodyChallenge, (.data []))
  | .recClear h p ib => some (h, p, csRecClear, bodyRecClear, ib)
  | .recQuery h p => some (h, p, csRecQuery, bodyRecQuery, (.data []))
  | .fwQuery h p => some (h, p, csFwQuery, bodyFwQuery, (.data []))
  | .fwWrite h p ib => some (h, p, csFwWrite, bodyFwWrite, ib)
  | .fwVerify h p => some (h, p, csFwVerify, bodyFwVerify, (.data []))
  | .fwActivate h p => some (h, p, csFwActivate, bodyFwActivate, (.data []))
  | .modeQuery h p => some (h, p, csModeQuery, bodyModeQuery, (.data []))
  | .modeConfigEnter h p => some (h, p, csConfigEnter, bodyConfigEnter, (.data []))
  | .modeConfigExit h p => some (h, p, csConfigExit, bodyConfigExit, (.data []))
  | .modeSafeHold h p => some (h, p, csSafeHold, bodySafeHold, (.data []))
  | .modeResume h p => some (h, p, csResume, bodyResume, (.data []))
  | .modeStartCold h p => if wantsWarm p then none else some (h, p, csModeStart, bodyStartCold, .data [])
  | .modeStartWarm h p => if wantsWarm p then some (h, p, csModeStart, bodyStartWarm, .data []) else none
  | _ => none

/-- The command of an admin row has its turn: it is at the head of Scoresheet order, something executes it, its buffer can be
read, and the row takes its packet (R52, R62, R68, R69, R518). -/
def HasTurn (i : Instr) (s : State) (h : Host) (p : Packet) (c : CmdSpec) (b : Body) (ib : ReadEnd) : Prop :=
  adminRow i = some (h, p, c, b, ib) ∧ adminDue h p s = true ∧ rowTakes c p = true ∧ ibReady c (issuer h s) p s = true

/-- The state without the command processor's, the journal's and the event unit's own fields, the counters and the bus. -/
def apart (s : State) : State := { s with cmd := {}, jrn := {}, evt := {}, ctrs := [], bus := [] }

/-- The journal without its numbered sets. -/
def apartSets (j : Jrn) : Jrn := { j with sets := [], setNo := 0 }

/-- The command processor without what consuming a command moves: the waiting commands, the admin SQs' heads and the
hosts' last refused status, the status packets that are due, the number of commands in the Move, and the commands whose buffers a
replay reads again. -/
def apartAdmin (x : Cmd) : Cmd := { x with waiting := [], hosts := [], dueStatus := [], shortInMove := 0, ibCmds := [] }

/-- A read of this reader at this address is carried out when it arrives: permitted, and either of a rim register or of a
side register that a side answers with nothing of the reader before it (R36, R529, R535). Firmware reads while its side
serves. -/
def readNow (r : Reader) (a : Nat) (s : State) : Prop :=
  match r with
  | .host h => readAllowed s h.val a = true ∧ (sideAddr a = true →
      sidesAway s = false ∧ sideAnswers s = true ∧ s.jrn.regs = [] ∧ clears a = false)
  | .firmware => consuming s = true

/-- The address names this register, and lies in BAR0. -/
def Names (a : Nat) (g : Reg) (is : List Nat) : Prop :=
  findReg a = some (rowOf g, is) ∧ regAddr g is = a ∧ (rowOf g).reg = g ∧ a % 4 = 0 ∧ a < 0x2000000

/-- The registers that R536 gives rules of their own. -/
def ownRules (g : Reg) : Bool :=
  ownCopy g || ownWrite g || sidePriv g || [Reg.glbId, .glbReader, .glbLock, .glbAccErr, .glbHostPerm].contains g

end Sys2Proof.Machine
end

