-- ==== Sys2Proof/Certificates/Slice0/Obligations.lean ====
section
/-!
DEFINITION. Certificates/Slice0/Obligations.lean: the statements for the provers.
-/

open Sys2Proof Sys2Proof.Machine

/-! ### The queue of commands and the step -/

/-- One step takes the command at the front of the queue and is its effect on the part with the rest of the queue. -/
def Obligations.StepRunsFrontCommand : Prop :=
  ∀ (c : Instr) (s : State), step { s with pending := c :: s.pending } = exec c s

/-- On an empty queue the block idles. The model's choice (log entry 2): the spec has no clock row. -/
def Obligations.EmptyQueueIdles : Prop :=
  ∀ s : State, s.pending = [] → step s = .next s

/-- No command and no event stops the part: each answers a next state, from every state. -/
def Obligations.EveryCommandAnswers : Prop :=
  ∀ (c : Instr) (s : State), ∃ t, exec c s = .next t

/-- A command acts on everything but the queue of waiting commands. -/
def Obligations.QueueIsKept : Prop :=
  ∀ (c : Instr) (s t : State), exec c s = .next t → t.pending = s.pending

/-! ### Reset -/

/-- What the release of PORST_N with HOLD_N high leaves: mode 1 in Cold Start (R435), network time 0 at ADJ 0 with the
three copies equal (R87), every generation 0 (R55), registers locked (R533), no side at the Clock, no queue, nothing on
the wire, and every gate tape one open entry of 1 ms (R226). -/
def Obligations.ResetState : Prop :=
  State.reset.glb.mode = 1 ∧ State.reset.glb.locked = true ∧ netNs State.reset = 0 ∧ State.reset.time.adj = 0
    ∧ State.reset.time.copyA = State.reset.time.copyB ∧ State.reset.time.copyA = State.reset.time.copyC
    ∧ (∀ p, genOf State.reset p = 0 ∨ 10 ≤ groupOf p ∨ p.opcode.toNat / 256 = 0)
    ∧ State.reset.sides.holder = none ∧ State.reset.que.sqs = [] ∧ State.reset.que.cqs = []
    ∧ (∀ p, (gateOf State.reset p).tape = [{ duration := 1000000, gates := 0xFF, action := 0 }])
    ∧ (∀ p, (gateOf State.reset p).wire = none) ∧ State.reset.pending = []

/-! ### Admin commands: what an accepted command does (R53 to R81)

Each clause says for one row of the opcode tables: when the command has its turn, its opcode is the row's and no fault of
R62 applies, the part answers exactly this state. `ends` is the end with ST_OK of a command that may change state, with whether it
does (R55), `answers` the end of a query, `begins` the start of a class L command. -/

/-- Group 0x01: a queue is made, removed or set for the issuing host alone, and the rim learns of it with a numbered set (R63, R65);
QUE_QUERY reads. -/
def Obligations.QueueCommandsComplete : Prop :=
  (∀ h p s, Executes csCreateCq bodyCreateCq h p (.data []) s →
    exec (.queCreateCq h p) s = .next (ends h p s true (pushSet [.cqPage h.val (par p 0x10 2) true]
      (putCq (keepCqPage h.val (par p 0x10 2) (consumeAdmin h s)) h.val (par p 0x10 2)
        { sizeLog2 := par p 0x12 1, vec := par p 0x13 1, irqEn := bitN (par p 0x14 4) 0,
          base := BitVec.ofNat 64 (par p 0x18 8) }))))
  ∧ (∀ h p s, Executes csCreateSq bodyCreateSq h p (.data []) s →
    exec (.queCreateSq h p) s = .next (ends h p s true (pushSet [.sqPage h.val (par p 0x10 2) true]
      (putSq (keepPage h.val (par p 0x10 2) (consumeAdmin h s)) h.val (par p 0x10 2)
        { sizeLog2 := par p 0x12 1, weight := par p 0x13 1, cqid := par p 0x14 2, burst := par p 0x16 1,
          base := BitVec.ofNat 64 (par p 0x18 8) }))))
  ∧ (∀ h p s u, u = consumeAdmin h s → Executes csDeleteSq bodyDeleteSq h p (.data []) s →
    ∃ x, sqOf u h.val (par p 0x10 2) = some x
      ∧ exec (.queDeleteSq h p) s = .next (ends h p s true (pushSet [.sqPage h.val (par p 0x10 2) false]
          (putSq u h.val (par p 0x10 2) { x with gone := true }))))
  ∧ (∀ h p s u, u = consumeAdmin h s → Executes csDeleteCq bodyDeleteCq h p (.data []) s →
    ∃ x, cqOf u h.val (par p 0x10 2) = some x
      ∧ exec (.queDeleteCq h p) s = .next (ends h p s true (pushSet [.cqPage h.val (par p 0x10 2) false]
          (putCq u h.val (par p 0x10 2) { x with gone := true }))))
  ∧ (∀ h p s x, Executes csSetWrr bodySetWrr h p (.data []) s → sqOf (consumeAdmin h s) h.val (par p 0x10 2) = some x →
    exec (.queSetWrr h p) s = .next (ends h p s (x.weight != par p 0x12 1 || x.burst != par p 0x13 1) (putSq (consumeAdmin h s) h.val (par p 0x10 2)
      { x with weight := par p 0x12 1, burst := par p 0x13 1 })))
  ∧ (∀ h p s u, u = consumeAdmin h s → Executes csSetQuota bodySetQuota h p (.data []) s →
    exec (.queSetQuota h p) s
      = .next (ends h p s (u.que.quota != quotasOf p) (touch .quota { u with que := { u.que with quota := quotasOf p } })))
  ∧ (∀ h p s u, u = withOwn (issuer h s) p (consumeAdmin h s) → Accepted csQueQuery bodyQueQuery h p (.data []) s →
    exec (.queQuery h p) s = .next (answers h p s (sqCfgReg u h.val (par p 0x10 2) + sqStatReg u h.val (par p 0x10 2) * 2 ^ 32
      + (match sqOf u h.val (par p 0x10 2) with | some x => cqStatReg u h.val x.cqid | none => 0) * 2 ^ 64)))

/-- Group 0x02, Ethernet ports: a setting goes to the rim in a numbered set (R65); PORT_SET and PORT_RECAL run in the
background. A PORT_ENABLE that changes nothing counts no generation (log entry 24). -/
def Obligations.PortCommandsComplete : Prop :=
  (∀ h p s u, u = consumeAdmin h s → Executes csPortSet bodyPortSet h p (.data []) s →
    exec (.portSet h p) s = .next (begins csPortSet h p s (pushSet [.portSet (par p 0x10 1) (par p 0x11 1) (par p 0x12 1)
      (par p 0x14 2) (bitN (par p 0x16 2) 0) (bitN (par p 0x16 2) 1)] u) (.portSet (par p 0x10 1) (nextSet u))
      ((sidePort u (par p 0x10 1)).speed != par p 0x11 1 || (sidePort u (par p 0x10 1)).iface != par p 0x12 1
        || (sidePort u (par p 0x10 1)).maxlen != par p 0x14 2 || (sidePort u (par p 0x10 1)).bad != bitN (par p 0x16 2) 0
        || (sidePort u (par p 0x10 1)).eee != bitN (par p 0x16 2) 1)))
  ∧ (∀ h p s u, u = consumeAdmin h s → Executes csPortEnable bodyPortEnable h p (.data []) s →
    (sidePort u (par p 0x10 1)).en ≠ (par p 0x11 1 == 1) →
    exec (.portEnable h p) s = .next (ends h p s true (pushSet [.portEnable (par p 0x10 1) (par p 0x11 1 == 1)] u)))
  ∧ (∀ h p s u, u = consumeAdmin h s → Executes csPortEnable bodyPortEnable h p (.data []) s →
    (sidePort u (par p 0x10 1)).en = (par p 0x11 1 == 1) →
    exec (.portEnable h p) s = .next (ends h p s false u))
  ∧ (∀ h p s, Executes csPortFilterSet bodyPortFilterSet h p (.data []) s →
    exec (.portFilterSet h p) s = .next (ends h p s (tget 0 (sidePort (consumeAdmin h s) (par p 0x10 1)).filters (par p 0x11 1)
        != BitVec.ofNat 49 (b2n (par p 0x12 1 == 1) * 2 ^ 48 + par p 0x14 6))
      (pushSet [.portFilter (par p 0x10 1) (par p 0x11 1) (par p 0x12 1 == 1) (BitVec.ofNat 48 (par p 0x14 6))]
        (consumeAdmin h s))))
  ∧ (∀ h p s, Executes csPortEeeSet bodyPortEeeSet h p (.data []) s →
    exec (.portEeeSet h p) s = .next (ends h p s ((sidePort (consumeAdmin h s) (par p 0x10 1)).margin != par p 0x12 2)
      (pushSet [.portEeeMargin (par p 0x10 1) (par p 0x12 2)] (consumeAdmin h s))))
  ∧ (∀ h p s, Executes csPortRecal bodyPortRecal h p (.data []) s →
    exec (.portRecal h p) s = .next (begins csPortRecal h p s (pushSet [.portRecal (par p 0x10 1)] (consumeAdmin h s))
      (.portRecal (par p 0x10 1) false) true))
  ∧ (∀ h p s u, u = consumeAdmin h s → Accepted csPortQuery bodyPortQuery h p (.data []) s →
    exec (.portQuery h p) s = .next (answers h p s (portCfgReg u (par p 0x10 1) + portStatusReg u (par p 0x10 1) * 2 ^ 32
      + portEeeStatReg u (par p 0x10 1) * 2 ^ 64)))

/-- Group 0x02, field ports and aggregation functions. -/
def Obligations.FieldCommandsComplete : Prop :=
  (∀ h p s, Executes csFldPortSet bodyFldPortSet h p (.data []) s →
    exec (.fldPortSet h p) s = .next (ends h p s (sideFld (consumeAdmin h s) (par p 0x10 2) != fldSetOf p)
      (pushSet [.fldSet (par p 0x10 2) (fldSetOf p)] (consumeAdmin h s))))
  ∧ (∀ h p s l, Executes csFldAggLoad bodyAggLoad h p (.data l) s → l.length = ibLen p 0x18 →
    exec (.fldAggLoad h p (.data l)) s = .next (begins csFldAggLoad h p s (bufferRead h l s) (.aggLoad (par p 0x10 2) l)
      (byteAt l 0 != 0 || (aggOf (bufferRead h l s) (par p 0x10 2)).kind != 0)))
  ∧ (∀ h p s u, u = consumeAdmin h s → Accepted csFldQuery bodyFldQuery h p (.data []) s →
    exec (.fldQuery h p) s = .next (answers h p s (fldCfgReg u (par p 0x10 2) + fldStatReg u (par p 0x10 2) * 2 ^ 32
      + fldErrReg u (par p 0x10 2) * 2 ^ 64)))

/-- Group 0x03: gate tapes and class settings go to the rim; a flow queue is side state. A flow queue that is enabled
takes its new shape and share when the Move has committed, and one that comes to another class takes that class's V as
its tag (R204, R205, R206; DEDUCED for one that was disabled, log entry 73). -/
def Obligations.GateCommandsComplete : Prop :=
  (∀ h p s l, Executes csTapeLoad bodyTapeLoad h p (.data l) s → l.length = ibLen p 0x20 →
    exec (.gateTapeLoad h p (.data l)) s
      = .next (begins csTapeLoad h p s (bufferRead h l s)
          (.tapeLoad (par p 0x10 1) (tapeEntries (par p 0x14 2) l) (par p 0x18 8)) true))
  ∧ (∀ h p s, Executes csClassSet bodyClassSet h p (.data []) s →
    exec (.gateClassSet h p) s = .next (ends h p s
      (sideClass (consumeAdmin h s) (par p 0x10 1) (par p 0x11 1) != (par p 0x12 1 == 1, par p 0x14 4))
      (pushSet [.gateClass (par p 0x10 1) (par p 0x11 1) (par p 0x12 1 == 1) (par p 0x14 4)] (consumeAdmin h s))))
  ∧ (∀ h p s, Executes csCloseMode bodyCloseMode h p (.data []) s →
    exec (.gateCloseMode h p) s = .next (ends h p s (sideClose (consumeAdmin h s) (par p 0x10 1) != (par p 0x11 1 == 1))
      (pushSet [.gateClose (par p 0x10 1) (par p 0x11 1 == 1)] (consumeAdmin h s))))
  ∧ (∀ h p s, Executes csTapeCancel bodyTapeCancel h p (.data []) s →
    exec (.gateTapeCancel h p) s = .next (ends h p s true (pushSet [.tapeCancel (par p 0x10 1)] (consumeAdmin h s))))
  ∧ (∀ h p s u, u = consumeAdmin h s → Accepted csGateQuery bodyGateQuery h p (.data []) s →
    exec (.gateQuery h p) s = .next (answers h p s ((gateOf u (par p 0x10 1)).midnight % 2 ^ 64
      + fieldAt (gateOf u (par p 0x10 1)).entry 64 10 + fieldAt (gatesNow (gateOf u (par p 0x10 1))).toNat 80 8
      + fieldAt (b2n (gateOf u (par p 0x10 1)).pend.isSome) 88 1 + fieldAt (b2n (gateOf u (par p 0x10 1)).fill.isSome) 89 1
      + fieldAt (b2n (preActive u (par p 0x10 1))) 90 1 + fieldAt (verifyState u (par p 0x10 1)) 91 3)))

/-- Group 0x03, flow queues. -/
def Obligations.FlowCommandsComplete : Prop :=
  (∀ h p s u x, u = consumeAdmin h s → x = flowOf u (par p 0x10 2) → Executes csFlowSet bodyFlowSet h p (.data []) s →
    x.en = true →
    exec (.schFlowSet h p) s = .next (ends h p s
      (x.port != par p 0x12 1 || x.tc != par p 0x13 1 || lastShape x != (par p 0x18 4, par p 0x1C 4)
        || lastShare x != (par p 0x14 2, overheadOf p))
      (touch (.flow (par p 0x10 2)) (putFlow u (par p 0x10 2) { x with
        port := par p 0x12 1, tc := par p 0x13 1, tag := tagFor u x (par p 0x12 1) (par p 0x13 1),
        newShape := x.newShape ++ [(u.jrn.move, par p 0x18 4, par p 0x1C 4)],
        newShare := x.newShare ++ [(u.jrn.move, par p 0x14 2, overheadOf p)] }))))
  ∧ (∀ h p s u x, u = consumeAdmin h s → x = flowOf u (par p 0x10 2) → Executes csFlowSet bodyFlowSet h p (.data []) s →
    x.en = false →
    exec (.schFlowSet h p) s = .next (ends h p s true (touch (.flow (par p 0x10 2)) (putFlow u (par p 0x10 2) { x with
      en := true, port := par p 0x12 1, tc := par p 0x13 1, weight := par p 0x14 2, overhead := overheadOf p,
      rate := par p 0x18 4, burst := par p 0x1C 4, credit := 0, tag := tagFor u x (par p 0x12 1) (par p 0x13 1),
      newShape := [], newShare := [] }))))
  ∧ (∀ h p s u, u = consumeAdmin h s → Executes csFlowDisable bodyFlowDisable h p (.data []) s →
    exec (.schFlowDisable h p) s = .next (ends h p s true (touch (.flow (par p 0x10 2))
      (putFlow u (par p 0x10 2) { flowOf u (par p 0x10 2) with en := false }))))
  ∧ (∀ h p s x, x = flowOf (consumeAdmin h s) (par p 0x10 2) → Accepted csSchQuery bodySchQuery h p (.data []) s →
    exec (.schQuery h p) s = .next (answers h p s (twosN x.credit 48 + fieldAt x.elems.length 48 24 + fieldAt (b2n x.en) 72 1
      + fieldAt (b2n (!x.elems.isEmpty)) 73 1 + fieldAt (b2n (decide (x.credit < 0))) 74 1)))

/-- Group 0x04. A meter starts full, a recovery function starts with TAKE_ANY and no history (R300, R309); a generation function takes
its setting once the Move has committed, with its next number 0 where the packet asks for it (R63, R303). -/
def Obligations.StreamCommandsComplete : Prop :=
  (∀ h p s l, Executes csIdLoad bodyIdLoad h p (.data l) s → l.length = ibLen p 0x18 →
    exec (.strmIdLoad h p (.data l)) s
      = .next (begins csIdLoad h p s (bufferRead h l s) (.idLoad (entries512 (par p 0x10 2) l))
          ((((bufferRead h l s).strm.loads.getLast?).map (·.2)).getD (bufferRead h l s).strm.table != entries512 (par p 0x10 2) l)))
  ∧ (∀ h p s u (m : Meter), u = consumeAdmin h s → m = { aware := bitN (par p 0x12 1) 0, coupled := bitN (par p 0x12 1) 1,
                                                         cir := par p 0x14 4, eir := par p 0x18 4, cbs := par p 0x1C 4,
                                                         ebs := par p 0x20 4, tc := par p 0x1C 4 * 1000,
                                                         te := par p 0x20 4 * 1000, upTo := eventEl u / 1000 } →
    Executes csMeterSet bodyMeterSet h p (.data []) s →
    exec (.strmMeterSet h p) s
      = .next (ends h p s (meterNow u (par p 0x10 2) != m) { u with strm := { u.strm with meters := tput {} u.strm.meters (par p 0x10 2) m } }))
  ∧ (∀ h p s u x, u = consumeAdmin h s →
      x = (u.jrn.move, par p 0x10 2, bitN (par p 0x14 1) 0, par p 0x12 2, bitN (par p 0x14 1) 1) →
    Executes csSeqgenSet bodySeqgenSet h p (.data []) s →
    exec (.strmSeqgenSet h p) s
      = .next (ends h p s (tget {} (gensSet u) (par p 0x10 2) != tget {} (setGen (gensSet u) x) (par p 0x10 2))
          { u with strm := { u.strm with newGens := u.strm.newGens ++ [x] } }))
  ∧ (∀ (t : Tab SeqGen) n i en k z, tget {} (setGen t (n, i, en, k, z)) i
      = { tget {} t i with en := en, handle := k, next := if z then 0 else (tget {} t i).next })
  ∧ (∀ h p s u x, u = consumeAdmin h s → Executes csSeqrecSet bodySeqrecSet h p (.data []) s →
    x = { recOf u (par p 0x10 2) with en := bitN (par p 0x16 1) 0, alg := par p 0x12 1 == 1, history := par p 0x13 1,
                                      resetMs := par p 0x14 2, takeAny := true, hist := 0 } →
    exec (.strmSeqrecSet h p) s = .next (ends h p s (recOf u (par p 0x10 2) != x)
      (putRec u (par p 0x10 2) { x with lastPass := eventEl u })))
  ∧ (∀ h p s u, u = consumeAdmin h s → Accepted csStrmQuery bodyStrmQuery h p (.data []) s →
    exec (.strmQuery h p) s = .next (answers h p s (match par p 0x10 1 with
      | 0 => strmHStat u (par p 0x12 2)
      | 1 => (meterNow u (par p 0x12 2)).tc + (meterNow u (par p 0x12 2)).te * 2 ^ 48
      | 2 => strmGCfg u (par p 0x12 2) + (tget {} (gensSet u) (par p 0x12 2)).next.toNat * 2 ^ 32
      | _ => strmRCfg u (par p 0x12 2) + strmRState u (par p 0x12 2) * 2 ^ 32)))

/-- Group 0x05. A step of 0 counts no generation (log entry 24). -/
def Obligations.TimeCommandsComplete : Prop :=
  (∀ h p s u, u = consumeAdmin h s → Executes csDomainSet bodyDomainSet h p (.data []) s →
    ¬((slotOf u (par p 0x10 1)).domain = par p 0x11 1 ∧ (slotOf u (par p 0x10 1)).role = par p 0x12 1) →
    exec (.timeDomainSet h p) s = .next (ends h p s true (settlePtp (putSlot u (par p 0x10 1)
      { domain := par p 0x11 1, role := par p 0x12 1 }))))
  ∧ (∀ h p s u, u = consumeAdmin h s → Executes csDomainSet bodyDomainSet h p (.data []) s →
    (slotOf u (par p 0x10 1)).domain = par p 0x11 1 → (slotOf u (par p 0x10 1)).role = par p 0x12 1 →
    exec (.timeDomainSet h p) s = .next (ends h p s false u))
  ∧ (∀ h p s, Executes csTimeStep bodyTimeStep h p (.data []) s → par p 0x10 8 ≠ 0 →
    exec (.timeStep h p) s = .next (ends h p s true (pushSet [.timeStep (signedN (par p 0x10 8) 64)] (consumeAdmin h s))))
  ∧ (∀ h p s, Executes csTimeStep bodyTimeStep h p (.data []) s → par p 0x10 8 = 0 →
    exec (.timeStep h p) s = .next (ends h p s false (consumeAdmin h s)))
  ∧ (∀ h p s, Executes csRateSet bodyRateSet h p (.data []) s →
    exec (.timeRateSet h p) s = .next (ends h p s (sideRate (consumeAdmin h s) != signedN (par p 0x10 4) 32)
      (pushSet [.timeRate (signedN (par p 0x10 4) 32)] (consumeAdmin h s))))
  ∧ (∀ h p s, Executes csPpsSet bodyPpsSet h p (.data []) s →
    exec (.timePpsSet h p) s = .next (ends h p s
      (sidePps (consumeAdmin h s) != (bitN (par p 0x10 1) 0, bitN (par p 0x10 1) 1, par p 0x12 2))
      (pushSet [.pps (bitN (par p 0x10 1) 0) (bitN (par p 0x10 1) 1) (par p 0x12 2)] (consumeAdmin h s))))
  ∧ (∀ h p s u, u = consumeAdmin h s → Accepted csTimeQuery bodyTimeQuery h p (.data []) s →
    exec (.timeQuery h p) s = .next (answers h p s (cmdNs u + (cmdEpoch u).toNat * 2 ^ 64 + (timeStatusReg u % 256) * 2 ^ 80
      + (u.ptp.slot0.state + u.ptp.slot1.state * 16) * 2 ^ 88)))

/-- Group 0x06. A planned Castling is armed and happens at the marker (R363); a self-test that names the holder waits for
that Castling (R458). -/
def Obligations.SideCommandsComplete : Prop :=
  (∀ h p s u, u = consumeAdmin h s → Executes csCastle bodyCastle h p (.data []) s →
    exec (.sideCastle h p) s = .next (begins csCastle h p s { u with sides := { u.sides with handover := .armed } } (.castle none) true))
  ∧ (∀ h p s u, u = consumeAdmin h s → Executes csSelftest bodySelftest h p (.data []) s →
    (sideOf u (sideFrom (par p 0x10 1))).state = 5 →
    exec (.sideSelftest h p) s = .next (begins csSelftest h p s { u with sides := { u.sides with handover := .armed } }
      (.selftest (sideFrom (par p 0x10 1)) (par p 0x14 4) false none) true))
  ∧ (∀ h p s u, u = consumeAdmin h s → Executes csSelftest bodySelftest h p (.data []) s →
    (sideOf u (sideFrom (par p 0x10 1))).state ≠ 5 →
    exec (.sideSelftest h p) s = .next (begins csSelftest h p s (startTests (sideFrom (par p 0x10 1)) u)
      (.selftest (sideFrom (par p 0x10 1)) (par p 0x14 4) true none) true))
  ∧ (∀ h p s, Executes csResetStandby bodyResetStandby h p (.data []) s →
    exec (.sideResetStandby h p) s = .next (ends h p s true (pushSet [.resetStandby] (consumeAdmin h s))))
  ∧ (∀ h p s u, u = consumeAdmin h s → Accepted csSideQuery bodySideQuery h p (.data []) s →
    exec (.sideQuery h p) s = .next (answers h p s (sideStatusReg u + sideAliveReg u * 2 ^ 32 + sideLsFull u * 2 ^ 64)))

/-- Group 0x07. FAB_SET claims a given node ID at once and takes a candidate otherwise, enabled or not (R414). -/
def Obligations.FabricCommandsComplete : Prop :=
  (∀ h p s u en, u = consumeAdmin h s → en = (par p 0x10 1 == 1) → Executes csFabSet bodyFabSet h p (.data []) s → par p 0x11 1 = 0 →
    exec (.fabSet h p) s = .next (ends h p s (fabNow u != (en, true, 2, (par p 0x12 2))) (pushSet [.fabEnable en true 2 (par p 0x12 2)]
      { u with fab := { u.fab with idAge := 0, topoDue := en } })))
  ∧ (∀ h p s u en, u = consumeAdmin h s → en = (par p 0x10 1 == 1) → Executes csFabSet bodyFabSet h p (.data []) s → par p 0x11 1 ≠ 0 →
    exec (.fabSet h p) s = .next (ends h p s (fabNow u != (en, false, 1, firstId)) (pushSet [.fabEnable en false 1 firstId]
      { u with fab := { u.fab with idAge := 0, topoDue := en } })))
  ∧ (∀ h p s l, Executes csRouteLoad bodyRouteLoad h p (.data l) s → l.length = ibLen p 0x18 →
    exec (.fabRouteLoad h p (.data l)) s
      = .next (begins csRouteLoad h p s (bufferRead h l s) (.routeLoad (routeEntries 0 (par p 0x10 2) l))
          (routesNow (bufferRead h l s) != routeEntries 0 (par p 0x10 2) l)))
  ∧ (∀ h p s, Executes csBypassSet bodyBypassSet h p (.data []) s →
    exec (.fabBypassSet h p) s = .next (ends h p s
      (forceNow (consumeAdmin h s) (par p 0x10 1) != (par p 0x11 1 == 1)) (pushSet [.bypassForce (par p 0x10 1) (par p 0x11 1 == 1)] (consumeAdmin h s))))
  ∧ (∀ h p s u, u = consumeAdmin h s → Accepted csFabQuery bodyFabQuery h p (.data []) s →
    exec (.fabQuery h p) s = .next (answers h p s (fabStatusReg u + fabTopoReg u * 2 ^ 32 + fabBypReg u * 2 ^ 64)))

/-- Group 0x08. The nonce is a free value (R79): it is whatever the random source gave for this draw. -/
def Obligations.RecorderCommandsComplete : Prop :=
  (∀ h p s u, u = consumeAdmin h s → Executes csNote bodyNote h p (.data []) s →
    exec (.recNote h p) s = .next (ends h p s true (pushSet [.record
      { sev := par p 0x10 1, kind := 0x10,
        payload := leBytes h.val 1 ++ leBytes (par p 0x11 1) 1 ++ leBytes 0 6
          ++ padTo (noteBytes p) (divUp (par p 0x11 1) 8 * 8) }]
      { u with cmd := { u.cmd with notesInMove := u.cmd.notesInMove + 1 } })))
  ∧ (∀ h p s u n, u = consumeAdmin h s → n = Config.nonceDraw s.free →
    Executes csChallenge bodyChallenge h p (.data []) s →
    exec (.recClearChallenge h p) s = .next (resume s (reply (issuer h s) p none n.toNat (bumpGen p
      { u with free := s.free + 1, cmd := { u.cmd with nonce := some (n, cmdOp u) } }))))
  ∧ (∀ h p s l u, u = bufferRead h l s → Executes csRecClear bodyRecClear h p (.data l) s →
    exec (.recClear h p (.data l)) s
      = .next (begins csRecClear h p s { u with cmd := { u.cmd with nonce := none } } (.recClear h.val true) true))
  ∧ (∀ h p s u, u = consumeAdmin h s → Accepted csRecQuery bodyRecQuery h p (.data []) s →
    exec (.recQuery h p) s
      = .next (answers h p s (recStatusReg u + recCountReg u * 2 ^ 32 + u.recd.nextSeq.toNat * 2 ^ 64)))

/-- Group 0x09. FW_WRITE marks its slot invalid before the first write; FW_ACTIVATE turns the boot record to the slot and
asks for the side's reset in a numbered set. -/
def Obligations.FirmwareCommandsComplete : Prop :=
  (∀ h p s u, u = consumeAdmin h s → Accepted csFwQuery bodyFwQuery h p (.data []) s →
    exec (.fwQuery h p) s = .next (answers h p s (u.flashW.version.toNat + u.flashB.version.toNat * 2 ^ 32
      + fwSlotHalf u .white * 2 ^ 64 + fwSlotHalf u .black * 2 ^ 80)))
  ∧ (∀ h p s l u, u = leaveStep (fwSide p) (bufferRead h l s) → Executes csFwWrite bodyFwWrite h p (.data l) s → l.length = ibLen p 0x18 →
    exec (.fwWrite h p (.data l)) s
      = .next (begins csFwWrite h p s (putFlash u (fwSide p) (markSlot (fwSlot p) 0 (flashOf u (fwSide p))))
          (.fwWrite (fwSide p) (fwSlot p) (par p 0x14 4) l) true))
  ∧ (∀ h p s, Executes csFwVerify bodyFwVerify h p (.data []) s →
    exec (.fwVerify h p) s
      = .next (begins csFwVerify h p s (leaveStep (fwSide p) (consumeAdmin h s)) (.fwVerify (fwSide p) (fwSlot p)) true))
  ∧ (∀ h p s u f, u = leaveStep (fwSide p) (consumeAdmin h s) → f = flashOf u (fwSide p) →
    Executes csFwActivate bodyFwActivate h p (.data []) s →
    exec (.fwActivate h p) s = .next (begins csFwActivate h p s (pushSet [.fwReset (fwSide p)] (putFlash u (fwSide p)
      { f with active := fwSlot p, prev := f.active, confirmed := false, tries := 0, gen := f.gen + 1 }))
      (.fwActivate (fwSide p) (fwSlot p) (nextSet u) none) true))

/-- Group 0x0A. In modes 0 to 2 the start monitor begins a cold start at once; in service it follows the commit of a
numbered set (R52, R450). -/
def Obligations.ModeCommandsComplete : Prop :=
  (∀ h p s u, u = consumeAdmin h s → Accepted csModeQuery bodyModeQuery h p (.data []) s →
    exec (.modeQuery h p) s
      = .next (answers h p s (glbModeReg u + startStat u * 2 ^ 32 + u.glb.safeCause.toNat * 2 ^ 64)))
  ∧ (∀ h p s, Executes csModeStart bodyStartCold h p (.data []) s → wantsWarm p = false → monitor s = false →
    exec (.modeStartCold h p) s
      = .next (begins csModeStart h p s (pushSet [.startCold] (markStart 1 (dropWarm (consumeAdmin h s)))) .startCold true))
  ∧ (∀ h p s, Executes csModeStart bodyStartCold h p (.data []) s → wantsWarm p = false → monitor s = true →
    exec (.modeStartCold h p) s
      = .next (beginCold (begins csModeStart h p s (markStart 1 (dropWarm (consumeAdmin h s))) .startCold true)))
  ∧ (∀ h p s, Executes csModeStart bodyStartWarm h p (.data []) s → wantsWarm p = true →
    exec (.modeStartWarm h p) s
      = .next (begins csModeStart h p s (pushSet [.startWarm] (markStart 2 (consumeAdmin h s))) .startWarm true))
  ∧ (∀ h p s u, u = consumeAdmin h s → Executes csConfigEnter bodyConfigEnter h p (.data []) s →
    exec (.modeConfigEnter h p) s
      = .next (begins csConfigEnter h p s (pushSet [.lock false, .mode 3] u) (.waitSet (nextSet u)) true))
  ∧ (∀ h p s u, u = consumeAdmin h s → Executes csConfigExit bodyConfigExit h p (.data []) s →
    exec (.modeConfigExit h p) s
      = .next (begins csConfigExit h p s (pushSet [.lock true, .mode 4] u) (.waitSet (nextSet u)) true))
  ∧ (∀ h p s, Executes csSafeHold bodySafeHold h p (.data []) s →
    exec (.modeSafeHold h p) s = .next (ends h p s (modeSeen (consumeAdmin h s) != 11) (pushSet [.safeHold] (consumeAdmin h s))))
  ∧ (∀ h p s u, u = consumeAdmin h s → Executes csResume bodyResume h p (.data []) s →
    exec (.modeResume h p) s = .next (begins csResume h p s (pushSet [.resume u.glb.safeCause] u) (.waitSet (nextSet u)) true))
/-! ### The command processor's own events -/

/-- LONG_COMMAND_COMPLETE, CLASS_L_TIMEOUT, CALIBRATION_END and STATUS_PACKET_WRITE: a class L command ends with what its
work gives, or with ST_TIMEOUT at its limit (R69); a calibration's end counts in PORT_RECAL and raises RECAL_DONE; a
status packet leaves once its Move is committed, from the side at the Clock and outside an interruption or a replay that has not
committed, or at once when the start monitor made it (R23, R66, R362, R393). -/
def Obligations.CommandEventsComplete : Prop :=
  (∀ (g : Group) (s t : State) r st result, dispatching s = true → tfind s.cmd.running g.val = some r →
    workEnd s r.op = some (st, result, t) → exec (.longCommandComplete g) s = .next (finishLong g.val st result t))
  ∧ (∀ (g : Group) (s t : State) r, dispatching s = true → tfind s.cmd.running g.val = some r → workExpired s r = some t →
    exec (.classLTimeout g) s = .next (finishLong g.val stTimeout 0 t))
  ∧ (∀ (p : Port) (s : State), (portOf s p.val).recal = true → tfind s.cmd.running 1 = none →
    exec (.calibrationEnd p) s = .next (raise evRecalDone (putPort s p.val { portOf s p.val with
      recal := false, recalCount := min 0xFFFF ((portOf s p.val).recalCount + 1) })))
  ∧ (∀ (p : Port) (s u : State) r b, (portOf s p.val).recal = true → tfind s.cmd.running 1 = some r →
    r.op = .portRecal p.val b → u = raise evRecalDone (putPort s p.val { portOf s p.val with
      recal := false, recalCount := min 0xFFFF ((portOf s p.val).recalCount + 1) }) →
    exec (.calibrationEnd p) s = .next { u with cmd := { u.cmd with
      running := tset u.cmd.running 1 { r with op := .portRecal p.val true } } })
  ∧ (∀ (h : Host) (s : State) x rest d, hostOk s h.val = true →
    takeFirst (fun x : DueStatus => x.host == h.val) s.cmd.dueStatus = some (x, rest) →
    (x.mon || (mayWrite d s && mayReport s h.val && committed s x.move)) = true →
    exec (.statusPacketWrite h d) s = .next (settleAq h.val (writeItem h.val 0 { body := .status x.pkt, noIrq := x.pkt.noIrq }
      { s with cmd := { s.cmd with dueStatus := rest } })))
  ∧ (∀ (h : Host) (s : State) x rest d,
    takeFirst (fun x : DueStatus => x.host == h.val) s.cmd.dueStatus = some (x, rest) → x.mon = false → mayWrite d s = false →
    exec (.statusPacketWrite h d) s = .next (gatedWrite d s))

/-! ### Submission entries (R130 to R148) -/

/-- The start of each entry type: the entry leaves its SQ, takes its tag and its place in the CQ, and the operation stands
where its type sends it: a FRAME and a DMA_XFER wait for a channel, a receive FRAME is posted, an INLINE_FRAME enters its
flow queue, a STREAM_SEND enters it and waits for a channel for its payload, an AGG_BUILD builds or writes its images on its
privileged channel, a FENCE is done at once when the CQEs of the entries before it are written, and no later entry starts
before its own is (FLUSH completes the posted buffers first). An entry that waited while no side consumed starts as of the times of
its own record (`asOf`, `goOn`; R366, R383). -/
def Obligations.EntryStartsComplete : Prop :=
  (∀ h q t w s x e, s = asOf e w → EntryStarts h q t s x e (frameExtra s e.bytes) → sqeType e.bytes = tyFrame → sqeRx e.bytes = false →
    exec (.frameTx h q t) w = .next (goOn e w (updOp t.val (fun o => { o with stage := .waitChan })
      (entryTaken h q t s x e .frame (frameExtra s e.bytes)))))
  ∧ (∀ h q t w s x e u y, s = asOf e w → EntryStarts h q t s x e [] → sqeType e.bytes = tyFrame → sqeRx e.bytes = true →
    u = entryTaken h q t s x e .rxBuf [] → sqOf u h.val q.val = some y →
    exec (.frameRxPost h q t) w = .next (goOn e w (putSq (updOp t.val (fun o => { o with stage := .posted }) u) h.val q.val
      { y with posted := y.posted ++ [t.val] })))
  ∧ (∀ h q t w s x e u, s = asOf e w → EntryStarts h q t s x e (inlineFindings s e.bytes) → sqeType e.bytes = tyInline →
    sqeFlen e.bytes ≤ sharedFree s → u = entryTaken h q t s x e .inline (inlineFindings s e.bytes) →
    exec (.inlineFrame h q t) w = .next (goOn e w (enterFlow (sqeFlow e.bytes) .frame (some t.val) (inlineBytes e.bytes)
      (updOp t.val (fun o => { o with held := (inlineBytes e.bytes).length })
        { u with txHeld := u.txHeld + (inlineBytes e.bytes).length }))))
  ∧ (∀ h q t w s x e l, s = asOf e w → EntryStarts h q t s x e (streamFindings (.data l) s e.bytes) → sqeType e.bytes = tyStream →
    hostOk s h.val = true →
    exec (.streamSend h q t (.data l)) w = .next (goOn e w (enqueue (sqeFlow e.bytes)
      { kind := .stream, tag := some t.val,
        maxlen := (portOf (entryTaken h q t s x e .stream (streamFindings (.data l) s e.bytes)) (sqePort e.bytes)).maxlen }
      (updOp t.val (fun o => { o with tpl := l.take (sqeHdrLen e.bytes), edits := editList e.bytes l,
                                      payLen := sqeLen e.bytes, stage := .waitChan })
        (entryTaken h q t s x e .stream (streamFindings (.data l) s e.bytes))))))
  ∧ (∀ h q t w s x e, s = asOf e w → EntryStarts h q t s x e [] → sqeType e.bytes = tyXfer →
    exec (.dmaXfer h q t) w = .next (goOn e w (updOp t.val (fun o => { o with len := sqeAux e.bytes, stage := .waitChan })
      (entryTaken h q t s x e .xfer []))))
  ∧ (∀ h q t w s x e u b, s = asOf e w → EntryStarts h q t s x e (gatherFindings h.val s e.bytes) → sqeType e.bytes = tyAgg →
    sqeMode e.bytes = 0 → aggReady s x = true → u = entryTaken h q t s x e .gather (gatherFindings h.val s e.bytes) →
    b = gatherBytes u (aggOf u (sqeAggId e.bytes)) (max e.acceptNs u.jrn.lastTime) →
    exec (.aggBuildGather h q t) w = .next (goOn e w (putAgg (updOp t.val (fun o => { o with
        held := b.length, stage := .waitQueue, count := (agPorts (aggOf u (sqeAggId e.bytes)).body).length })
      { fwStart 2 u with txHeld := (fwStart 2 u).txHeld + b.length }) (sqeAggId e.bytes)
      { aggOf u (sqeAggId e.bytes) with building := some { bytes := b, flow := agFlow (aggOf u (sqeAggId e.bytes)).body, tag := some t.val } })))
  ∧ (∀ h q t w s x e l u, s = asOf e w → EntryStarts h q t s x e (scatterFindings h.val (.data l) s e.bytes) → sqeType e.bytes = tyAgg →
    sqeMode e.bytes = 1 → s.glb.mode ≠ 11 → (chanOf s 3).halted = false → hostOk s h.val = true →
    u = entryTaken h q t s x e .scatter (scatterFindings h.val (.data l) s e.bytes) →
    (aggOf u (sqeAggId e.bytes)).kind = 2 →
    exec (.aggBuildScatter h q t (.data l)) w = .next (goOn e w (scatterRun (sqeAggId e.bytes) (l.take (sqeLen e.bytes)) (some t.val)
      (updOp t.val (fun o => { o with stage := .queued }) u))))
  ∧ (∀ h q t w s x e l u, s = asOf e w → EntryStarts h q t s x e (scatterFindings h.val (.data l) s e.bytes) → sqeType e.bytes = tyAgg →
    sqeMode e.bytes = 1 → s.glb.mode ≠ 11 → (chanOf s 3).halted = false → hostOk s h.val = true →
    u = entryTaken h q t s x e .scatter (scatterFindings h.val (.data l) s e.bytes) →
    (aggOf u (sqeAggId e.bytes)).kind ≠ 2 →
    exec (.aggBuildScatter h q t (.data l)) w = .next (goOn e w (directSend (sqeAggId e.bytes) t.val
      (updOp t.val (fun o => { o with payload := l.take (sqeLen e.bytes),
                                      target := agTarget (aggOf u (sqeAggId e.bytes)).body, flow := sqeAggId e.bytes, held := 0 }) u))))
  ∧ (∀ h q t w s x e, s = asOf e w → EntryStarts h q t s x e [] → sqeType e.bytes = tyFence → sqeFlush e.bytes = false → x.live = [] →
    exec (.fence h q t) w = .next (goOn e w (endFence h.val q.val t.val 0 (entryTaken h q t s x e .fence []))))
  ∧ (∀ h q t w s x e u y, s = asOf e w → EntryStarts h q t s x e [] → sqeType e.bytes = tyFence → sqeFlush e.bytes = true →
    (∀ k ∈ x.live, k ∈ x.posted) → u = entryTaken h q t s x e .fence [] → sqOf u h.val q.val = some y →
    exec (.fenceFlush h q t) w = .next (goOn e w (endFence h.val q.val t.val y.posted.length
      (y.posted.foldl (fun s b => completeOp b stState 0x12 0 noTs s) u))))

/-- An entry to which a fault of R136 applies takes its tag and its place and fails with the first fault's status and
RESULT 0, in its turn in the flow (R151): the five types that wait for no FENCE or run before they start. -/
def Obligations.FaultyEntryCompletes : Prop :=
  (∀ h q t w s x e f, s = asOf e w → EntryFails h q t s x e (frameExtra s e.bytes) f → sqeType e.bytes = tyFrame → sqeRx e.bytes = false →
    exec (.frameTx h q t) w
      = .next (goOn e w (failOp t.val f.status (entryTaken h q t s x e .frame (frameExtra s e.bytes)))))
  ∧ (∀ h q t w s x e f, s = asOf e w → EntryFails h q t s x e [] f → sqeType e.bytes = tyFrame → sqeRx e.bytes = true →
    exec (.frameRxPost h q t) w = .next (goOn e w (failOp t.val f.status (entryTaken h q t s x e .rxBuf []))))
  ∧ (∀ h q t w s x e f, s = asOf e w → EntryFails h q t s x e (inlineFindings s e.bytes) f → sqeType e.bytes = tyInline →
    sqeFlen e.bytes ≤ sharedFree s →
    exec (.inlineFrame h q t) w
      = .next (goOn e w (failOp t.val f.status (entryTaken h q t s x e .inline (inlineFindings s e.bytes)))))
  ∧ (∀ h q t w s x e f r, s = asOf e w → EntryFails h q t s x e (streamFindings r s e.bytes) f → sqeType e.bytes = tyStream →
    hostOk s h.val = true →
    exec (.streamSend h q t r) w
      = .next (goOn e w (failOp t.val f.status (entryTaken h q t s x e .stream (streamFindings r s e.bytes)))))
  ∧ (∀ h q t w s x e f, s = asOf e w → EntryFails h q t s x e [] f → sqeType e.bytes = tyXfer →
    exec (.dmaXfer h q t) w = .next (goOn e w (failOp t.val f.status (entryTaken h q t s x e .xfer []))))

/-- An entry whose fetch read faulted completes with ST_BUS_ERROR, or ST_INTEGRITY for poisoned data, with USER 0 and the
slot's index, through whichever row takes it (R553). -/
def Obligations.FaultedFetchCompletes : Prop :=
  ∀ h q t w s x e fe, s = asOf e w → startable s h.val q.val t.val = some (x, e) → e.fault = some fe →
    ∃ u, exec (.fence h q t) w = .next u ∧ exec (.dmaXfer h q t) w = .next u
      ∧ (∃ o, u = goOn e w (completeOp t.val (if fe = .busError then stBusError else stIntegrity) 0 0 noTs
          (takeTag h.val q.val t.val x x.entries.tail o s)) ∧ o.user = 0 ∧ o.slot = e.first ∧ o.noIrq = false)

/-! ### Rings (R120 to R158) -/

/-- SQ_DB_WRITE (R125), while the Scoresheets have room: a write of V is taken when dist(V, PI) ≤ size − dist(PI, AI + 1), and PI becomes V; one with V = PI
changes nothing; any other leaves the SQ as it was, counts in QUE_HOST_ERR.DB_ERR and raises QUE_DB_ERR. An unaligned or
partial write, and one to an SQ whose page the rim does not hold, has no effect; one that meets full Scoresheets waits outside
(R391). -/
def Obligations.DoorbellComplete : Prop :=
  (∀ h q s x v, pageOf s h.val q.val = some x → dist (v.setWidth 16) x.pi + dist x.pi (x.ai + 1) ≤ 2 ^ x.sizeLog2 →
    v.setWidth 16 ≠ x.pi → s.jrn.full = false →
    exec (.sqDbWrite h q true v) s = .next (record (.doorbell h.val q.val (v.setWidth 16).toNat) (putPage s h.val q.val { x with pi := v.setWidth 16, stalled := false })))
  ∧ (∀ h q s x v, pageOf s h.val q.val = some x → v.setWidth 16 = x.pi → exec (.sqDbWrite h q true v) s = .next s)
  ∧ (∀ h q s x v, pageOf s h.val q.val = some x → 2 ^ x.sizeLog2 < dist (v.setWidth 16) x.pi + dist x.pi (x.ai + 1) →
    v.setWidth 16 ≠ x.pi → s.jrn.full = false →
    ∃ t, exec (.sqDbWrite h q true v) s = .next t ∧ t = raise (evDbErr h.val) (count .queHostErr [h.val] 16 1 s)
      ∧ t.que = s.que)
  ∧ (∀ h q s v, exec (.sqDbWrite h q false v) s = .next s)
  ∧ (∀ h q s b v, pageOf s h.val q.val = none → exec (.sqDbWrite h q b v) s = .next s)
  ∧ (∀ h q s b v, s.jrn.full = true → exec (.sqDbWrite h q b v) s = .next s)

/-- SQ_PUSH_WRITE, CQ_CI_WRITE, RING_FETCH_TURN, RING_FETCH_COMPLETE, RING_FETCH_FAULT, ENTRY_ACCEPT, CQE_WRITE and
CQ_OVERFLOW_MOVE on their own paths (R120 to R155, R161, R181, R553). -/
def Obligations.RingEventsComplete : Prop :=
  (∀ h q s x off b, s.jrn.full = false → pageOf s h.val q.val = some x → off < 64 → off % 64 = 0 → 0 < b.length → b.length ≤ 256 → b.length % 64 = 0 →
    (∀ p, x.push = some p → p.buf = []) →
    exec (.sqPushWrite h q off b) s = .next (pushSlots h.val q.val (slotsOf (b.length / 64) b)
      (putPage s h.val q.val { x with push := some { base := x.pi } })))
  ∧ (∀ h q s x p off b, s.jrn.full = false → pageOf s h.val q.val = some x → x.push = some p → off = 64 * p.next → 0 < p.next → 0 < b.length →
    b.length % 64 = 0 → p.next + b.length / 64 ≤ 4 →
    exec (.sqPushWrite h q off b) s = .next (pushSlots h.val q.val (slotsOf (b.length / 64) b) s))
  ∧ (∀ h q s x off b, s.jrn.full = false → pageOf s h.val q.val = some x → off % 64 ≠ 0 →
    exec (.sqPushWrite h q off b) s = .next (pushError h.val q.val x s))
  ∧ (∀ h q s x y v, s.jrn.full = false → pageOf s h.val q.val = some x → cqPageOf s h.val x.cqid = some y →
    dist (v.setWidth 16) y.ci ≤ dist y.wi y.ci →
    exec (.cqCiWrite h q true v) s = .next (freeItems h.val x.cqid (y.slots.take (dist (v.setWidth 16) y.ci))
      (record (.cqCi h.val x.cqid (v.setWidth 16).toNat) (putCqPage s h.val x.cqid { y with ci := v.setWidth 16, slots := y.slots.drop (dist (v.setWidth 16) y.ci) }))))
  ∧ (∀ h q s x y v, s.jrn.full = false → pageOf s h.val q.val = some x → cqPageOf s h.val x.cqid = some y →
    dist y.wi y.ci < dist (v.setWidth 16) y.ci →
    exec (.cqCiWrite h q true v) s = .next (raise (evCiErr h.val) (count .queHostCiErr [h.val] 0 1 s)))
  ∧ (∀ (h : Host) s x, sqOf s h.val 0 = some x → hostOk s h.val = true → (consuming s || monitor s) = true →
    1 ≤ dist x.pi x.taken → x.turn = none → adminPending s h.val = true → tget false s.que.adminTurn h.val = false →
    exec (.ringFetchTurn h 0 1) s = .next (noteTurn h.val true (startTurn h.val 0 1 x s)))
  ∧ (∀ (h : Host) (q : QId) n s x k u, sqOf s h.val q.val = some x → q.val ≠ 0 → hostOk s h.val = true → consuming s = true →
    1 ≤ n → n ≤ dist x.pi x.taken → n ≤ 5 * x.burst → x.turn = none → nextTurn s h.val = some (k, q.val) →
    (adminPending s h.val = true → tget false s.que.adminTurn h.val = true) →
    u = noteTurn h.val false (startTurn h.val q.val n x s) →
    exec (.ringFetchTurn h q n) s
      = .next { u with que := { u.que with round := tset u.que.round h.val (k * 1024 + q.val) } })
  ∧ (∀ (h : Host) (q : QId) b s x t r, sqOf s h.val q.val = some x → x.turn = some t →
    b.length = 64 * (if t.got then t.second else t.slots) → r = parseTurn q.val t.left t.first x.pi (t.buf ++ b) →
    (t.got = true ∨ t.second = 0) →
    exec (.ringFetchComplete h q b) s = .next (takeEntries h.val q.val x t.first r.1 r.2 none s))
  ∧ (∀ (h : Host) (q : QId) b s x t r, sqOf s h.val q.val = some x → x.turn = some t → t.got = false → 0 < t.second →
    b.length = 64 * t.slots → r = parseTurn q.val t.left t.first x.pi (t.buf ++ b) →
    exec (.ringFetchComplete h q b) s = .next (takeEntries h.val q.val x t.first r.1 r.2 (some (afterFirst t r.1 r.2 b)) s))
  ∧ (∀ (h : Host) (q : QId) e s x t, sqOf s h.val q.val = some x → x.turn = some t → t.got = false → t.second = 0 → t.buf = [] →
    exec (.ringFetchFault h q e) s = .next (putSq (noteFault h.val q.val t.first t.slots s) h.val q.val
      { x with turn := none, entries := x.entries ++ (faultSlots e t.first t.slots).map (takenNow s),
               taken := t.first + BitVec.ofNat 16 t.slots }))
  ∧ (∀ (h : Host) (q : QId) e s x t, sqOf s h.val q.val = some x → x.turn = some t → t.got = false → 0 < t.second → t.buf = [] →
    exec (.ringFetchFault h q e) s = .next (putSq (noteFault h.val q.val t.first t.slots s) h.val q.val
      { x with turn := some { t with first := t.first + BitVec.ofNat 16 t.slots, slots := t.second, second := 0 },
               entries := x.entries ++ (faultSlots e t.first t.slots).map (takenNow s), taken := t.first + BitVec.ofNat 16 t.slots }))
  ∧ (∀ (h : Host) (q : QId) e s x t k, sqOf s h.val q.val = some x → x.turn = some t → t.got = true → 0 < t.left →
    k = t.first + BitVec.ofNat 16 (t.buf.length / 64) →
    exec (.ringFetchFault h q e) s = .next (putSq (noteFault h.val q.val k t.second s) h.val q.val
      { x with turn := none, entries := x.entries ++ (faultSlots e t.first (t.buf.length / 64 + t.second)).map (takenNow s),
               taken := k + BitVec.ofNat 16 t.second }))
  ∧ (∀ (h : Host) (q : QId) e s x t, sqOf s h.val q.val = some x → x.turn = some t → t.got = true → t.left = 0 →
    exec (.ringFetchFault h q e) s = .next (putSq
      (noteFault h.val q.val (t.first + BitVec.ofNat 16 (t.buf.length / 64)) t.second s) h.val q.val { x with turn := none }))
  ∧ (∀ (h : Host) (q : QId) s x e es, acksHold s q.val = true → sqOf s h.val q.val = some x → q.val ≠ 0 →
    acceptFirst (netNs s) x.entries = some (e, es) → e.lane = none →
    exec (.entryAccept h q) s
      = .next (putSq s h.val q.val { x with ai := e.first + BitVec.ofNat 16 (e.nslots - 1), entries := es }))
  ∧ (∀ (h : Host) s x e es t, acksHold s 0 = true → sqOf s h.val 0 = some x →
    acceptFirst (netNs s) x.entries = some (e, es) → e.fault = none →
    t = putSq s h.val 0 { x with ai := e.first + BitVec.ofNat 16 (e.nslots - 1), entries := x.entries.tail } →
    exec (.entryAccept h 0) s
      = .next { t with cmd := { t.cmd with waiting := t.cmd.waiting ++ [(h.val, packetOf e.bytes, e.stamp)] } })
  ∧ (∀ (h : Host) (c : QId) s d rest b, mayWrite b s = true → mayReport s h.val = true →
    takeFirst (fun d : DueCqe => d.host == h.val && d.cq == c.val) s.jrn.dueCqe = some (d, rest) → committed s d.move = true →
    exec (.cqeWrite h c b) s = .next (writeItem h.val c.val { body := .cqe d.cqe, tag := some d.tag, noIrq := d.noIrq }
      { s with jrn := { s.jrn with dueCqe := rest } }))
  ∧ (∀ (h : Host) (c : QId) s x i r b, cqOf s h.val c.val = some x → x.ovf = i :: r → mayWrite b s = true →
    mayReport s h.val = true → ringFull x = false → (chanOf s 1).halted = false → c.val ≠ 0 →
    exec (.cqOverflowMove h c b) s = .next (pchDone 1 32 (writeSlot h.val c.val { x with ovf := r } i s)))
  ∧ (∀ (h : Host) s x i r b, cqOf s h.val 0 = some x → x.ovf = i :: r → mayWrite b s = true → mayReport s h.val = true →
    ringFull x = false → (chanOf s 1).halted = false →
    exec (.cqOverflowMove h 0 b) s = .next (settleAq h.val (pchDone 1 32 (writeSlot h.val 0 { x with ovf := r } i s))))
  ∧ (∀ (h : Host) (c : QId) s b, mayWrite b s = false →
    exec (.cqeWrite h c b) s = .next (gatedWrite b s) ∧ exec (.cqOverflowMove h c b) s = .next (gatedWrite b s))
/-! ### DMA (R161 to R189) -/

/-- A pool channel takes an operation that waits, in its turn: a DMA_XFER begins with its descriptor walk, a receive buffer
with its write, which ends at once where there is nothing to write, a FRAME or a stream with its copy; the one descriptor of
these three ends with BAD_DESC where its range passes the end of host memory (R166). Then the prefetch
engine has its turns (R162, R163, R168). -/
def Obligations.ChannelAssignComplete : Prop :=
  ∀ (t : OpTag) (c : Chan) (s u : State) (o : Op) (y : ChanSt), opOf s t.val = some o → dispatching s = true → 8 ≤ c.val →
    chanBusy (chanOf s c.val) = false → chanWaits s o = true → chanTurn s o = true →
    y = { chanOf s c.val with host := o.host, tag := t.val, head := o.addr, nextAddr := o.addr.toNat, nextHost := o.host,
                              descs := [], cur := 0, offs := [], buf := [], pos := 0, read := none, wrote := [], flushes := [],
                              count := 1, phase := .data } →
    u = putOp s t.val { o with stage := .onChan c.val } →
    (o.kind = .xfer → exec (.dmaPoolChannelAssign t c) s
      = .next (dmaGo (putChan u c.val { y with kind := .xfer, phase := .walk, count := o.len })))
    ∧ (o.kind ≠ .xfer → copyBad o = true → exec (.dmaPoolChannelAssign t c) s
      = .next (dmaGo (putChan u c.val (chanEnd { y with kind := if o.kind = .rxBuf then .rxWrite else .txCopy } 3 0))))
    ∧ (o.kind = .rxBuf → copyBad o = false → rxTotal o ≠ 0 → exec (.dmaPoolChannelAssign t c) s
      = .next (dmaGo (putChan u c.val { y with kind := .rxWrite })))
    ∧ (o.kind = .rxBuf → copyBad o = false → rxTotal o = 0 → exec (.dmaPoolChannelAssign t c) s
      = .next (dmaGo (putChan u c.val { chanEnd y 0 0 with kind := .rxWrite })))
    ∧ (o.kind = .stream ∨ o.kind = .frame → copyBad o = false → exec (.dmaPoolChannelAssign t c) s
      = .next (dmaGo (putChan u c.val { y with kind := .txCopy })))

/-- The other DMA rows on their own paths: data reach the read that a channel has issued and advance it; an ended chain
completes its operation; a flush read ends or faults; a bus error or a completion timeout on a pool channel stops the pool,
which latches the first of two in one cycle by its place, and a bus error on a privileged channel halts it alone (R181, R182,
R185); a halt is released once its Move is taken as committed (R181, R552); a resume, an abort or an automatic abort ends the
stop (R183); a late completion is discarded (R184); an internal requester withdraws its request (R186). -/
def Obligations.DmaEventsComplete : Prop :=
  (∀ (c : Chan) b s x q, x = chanOf s c.val → dispatching s = true → s.dma.stopped = false → 8 ≤ c.val → x.read = some q →
    x.phase ≠ .flush → streamChan s x = false → q.space = 0 →
    exec (.dmaReadCompletion c b) s = .next (dmaGo (takeRead c.val (putChan s c.val { x with
      read := some { q with got := q.got ++ b.take (rawLen q - q.got.length) } }))))
  ∧ (∀ (c : Chan) b s x q, x = chanOf s c.val → dispatching s = true → s.dma.stopped = false → 8 ≤ c.val → x.read = some q →
    x.phase ≠ .flush → streamChan s x = false → q.space ≠ 0 →
    exec (.dmaReadCompletion c b) s = .next (dmaGo (takeRead c.val (putChan s c.val { x with
      read := some { q with got := q.got ++ (List.replicate (rawLen q) 0).take (rawLen q - q.got.length) } }))))
  ∧ (∀ (c : Chan) s x, x = chanOf s c.val → dispatching s = true → s.dma.stopped = false → chanBusy x = true → 8 ≤ c.val →
    x.phase = .ended → exec (.dmaChainEnd c) s = .next (dmaGo (endOp x.tag x (freeChan c.val s))))
  ∧ (∀ (c : Chan) s x y q, x = chanOf s c.val → dispatching s = true → x.phase = .flush → x.read = some q →
    y = { x with read := none, flushes := x.flushes.tail } →
    exec (.dmaBarrierFlushComplete c true) s
      = .next (dmaGo (putChan s c.val (if x.flushes.tail = [] then afterDesc y else y))))
  ∧ (∀ (c : Chan) s x q, x = chanOf s c.val → dispatching s = true → x.phase = .flush → x.read = some q →
    exec (.dmaBarrierFlushComplete c false) s
      = .next (poolError c.val 7 (BitVec.ofNat 64 (dDst (x.descs.getD x.cur 0))) s))
  ∧ (∀ (c : Chan) e addr s, dispatching s = true → 8 ≤ c.val → canFail (chanOf s c.val) e = true →
    exec (.dmaBusErrorPool c e addr none) s = .next (poolError c.val (busCode e) addr s))
  ∧ (∀ (c : Chan) e addr f s, dispatching s = true → 8 ≤ c.val → canFail (chanOf s c.val) e = true → f.chan ≠ c →
    8 ≤ f.chan.val → canFail (chanOf s f.chan.val) f.err = true →
    exec (.dmaBusErrorPool c e addr (some f)) s = .next (if faultPlace s c.val (busCode e) ≤ faultPlace s f.chan.val (busCode f.err) then
        poolError f.chan.val (busCode f.err) f.addr (poolError c.val (busCode e) addr s)
      else poolError c.val (busCode e) addr (poolError f.chan.val (busCode f.err) f.addr s)))
  ∧ (∀ (c : Chan) e addr (sp : Fin 4) (h : Host) s u, dispatching s = true → c.val < 8 → (chanOf s c.val).halted = false →
    u = endServed c.val (endStatusOf (busCode e)) s →
    exec (.dmaBusErrorPrivileged c e addr sp h) s
      = .next (pchError c.val (busCode e) (e == .writeErr) addr sp.val (if sp.val = 0 then h.val else 0) u))
  ∧ (∀ (c : Chan) s, (chanOf s c.val).halted = true → sideCommit s (chanOf s c.val).haltMove = true →
    exec (.pchHaltRelease c) s
      = .next (fwNext c.val (moreOn s c.val) (putChan s c.val { chanOf s c.val with halted := false })))
  ∧ (∀ (h : Host) s, exec (.dmaPoolResume h) s = .next (writeSide h.val .dmaPoolCtl [] 1 s))
  ∧ (∀ (h : Host) s, exec (.dmaPoolAbortCand h) s = .next (writeSide h.val .dmaPoolCtl [] 2 s))
  ∧ (∀ s u, dispatching s = true → s.dma.stopped = true → regFld s .dmaPoolCfg [] 24 8 ≠ 0 →
    s.dma.stopAt + regFld s .dmaPoolCfg [] 24 8 ≤ s.time.optime → u = poolAbort s →
    exec .dmaPoolAutoAbort s = .next { u with dma := { u.dma with auto := true } })
  ∧ (∀ (c : Chan) s, exec (.lateCompletionDiscard c) s = .next s)
  ∧ (∀ (c : Chan) addr a s x q, x = chanOf s c.val → dispatching s = true → 8 ≤ c.val → x.read = some q → q.space = 0 →
    readDone x = false → q.tick + timeoutTicks s q.host ≤ s.time.tick →
    exec (.dmaCompletionTimeout c addr a) s = .next (poolErrors c.val (if x.phase = .flush then 7 else 8) addr a s))
  ∧ (∀ (c : Chan) n s u, dispatching s = true → c.val < 8 → (chanOf s c.val).halted = false → requestOn s c.val = true →
    u = withdrawn c.val (min n (requested s c.val)) (endServed c.val stState s) →
    exec (.dmaWithdraw c n) s = .next (fwNext c.val (moreOn u c.val) u))

/-- While the pool is stopped no channel moves (R182): no operation completes, nothing is read or written, the latched fault
stands, and completions that arrive are only kept. -/
def Obligations.PoolStopHoldsChannels : Prop :=
  ∀ (c : Chan) b ok s, s.dma.stopped = true → exec (.dmaChainEnd c) s = .next s
    ∧ ∀ i, i = .dmaReadCompletion c b ∨ i = .dmaBarrierFlushComplete c ok → ∃ t, exec i s = .next t ∧ t.que = s.que
        ∧ t.jrn = s.jrn ∧ t.bus = s.bus ∧ t.ctrs = s.ctrs ∧ t.dma.stopped = true ∧ t.dma.err = s.dma.err
        ∧ ∀ k, k ≠ c.val → chanOf t k = chanOf s k

/-! ### Egress scheduling (R190 to R221) -/

/-- SCHEDULER_PICK stages the flow that R196 to R207 pick and charges it, at the time of the last record (R213), and only for
the side that may write to the rim (R23); EXPRESS_LANE_ARRIVAL stages an inline frame that fits at once, or queues it;
SEGMENT_PICK stages the next segment of a stream; PAYLOAD_PREFETCH adds to its window; FRAME_EXPIRY skips a staged frame
held for MAX_HOLD_US, or takes one out of its queue; TAG_SWEEP moves a finish tag that would wrap; MONITOR_SAMPLE counts one
depth each period; RATE_TICK adds rate each µs and caps at BURST (R201). -/
def Obligations.SchedulingEventsComplete : Prop :=
  (∀ (d : SideId) (p : Port) (t : Cls) s u f x e es, mayWrite d s = true → serving s = true → ticksDone s = true →
    u = countWaiting p.val t.val s → pickOf u p.val t.val = some (f, x) → x.elems = e :: es → e.kind ≠ .stream →
    exec (.schedulerPick p t d) s = .next (dequeue f (stage p.val t.val
      { src := if e.kind = .frame then 0 else 2, tag := e.tag, flow := f, bytes := e.bytes, seq := e.seq, since := e.since }
      (charge f p.val t.val (counted x (flowLen e.seq e.bytes)) x.tag (measure f p.val t.val (eventEl u - e.enter) u)))))
  ∧ (∀ (d : SideId) (p : Port) (t : Cls) s, mayWrite d s = false → exec (.schedulerPick p t d) s = .next (gatedWrite d s))
  ∧ (∀ (d : SideId) (h : Host) (q : QId) (t : OpTag) s x a e b u, sqOf s h.val q.val = some x → firstNoLane x.entries = some (a, e, b) →
    mayWrite d s = true → laneReady s t.val x e = true → laneRoom s h.val x e = true →
    entryFindings h s x e (inlineFindings s e.bytes) = [] →
    u = takeTag h.val q.val t.val (decideRx x e.bytes (sqeFindings e.bytes ++ portFindings s h.val e.bytes
        ++ inlineFindings s e.bytes)) (if e.accepted then a ++ b else a ++ { e with lane := some t.val } :: b)
      (opFor s h.val q.val e .inline) s →
    laneFits u (sqeFlow e.bytes) (sqePort e.bytes) (sqeTc e.bytes)
      (flowLen (if rtagLen u (sqeFlow e.bytes) = 0 then none else some 0) (inlineBytes e.bytes)) = true →
    exec (.expressLaneArrival h q t d) s
      = .next (laneStage (sqeFlow e.bytes) (sqePort e.bytes) (sqeTc e.bytes) t.val (inlineBytes e.bytes) u))
  ∧ (∀ (d : SideId) (h : Host) (q : QId) (t : OpTag) s x a e b u, sqOf s h.val q.val = some x → firstNoLane x.entries = some (a, e, b) →
    mayWrite d s = true → laneReady s t.val x e = true → laneRoom s h.val x e = true →
    entryFindings h s x e (inlineFindings s e.bytes) = [] →
    u = takeTag h.val q.val t.val (decideRx x e.bytes (sqeFindings e.bytes ++ portFindings s h.val e.bytes
        ++ inlineFindings s e.bytes)) (if e.accepted then a ++ b else a ++ { e with lane := some t.val } :: b)
      (opFor s h.val q.val e .inline) s →
    laneFits u (sqeFlow e.bytes) (sqePort e.bytes) (sqeTc e.bytes)
      (flowLen (if rtagLen u (sqeFlow e.bytes) = 0 then none else some 0) (inlineBytes e.bytes)) = false →
    exec (.expressLaneArrival h q t d) s
      = .next (enterFlow (sqeFlow e.bytes) .frame (some t.val) (inlineBytes e.bytes)
          (updOp t.val (fun o => { o with held := (inlineBytes e.bytes).length })
            { u with txHeld := u.txHeld + (inlineBytes e.bytes).length })))
  ∧ (∀ (d : SideId) (h : Host) (q : QId) (t : OpTag) s x a e b, sqOf s h.val q.val = some x → firstNoLane x.entries = some (a, e, b) →
    mayWrite d s = true → laneReady s t.val x e = true → laneRoom s h.val x e = false →
    exec (.expressLaneArrival h q t d) s
      = .next (putSq s h.val q.val { x with entries := a ++ { e with express := false } :: b }))
  ∧ (∀ (d : SideId) (h : Host) (q : QId) (t : OpTag) s, mayWrite d s = false →
    exec (.expressLaneArrival h q t d) s = .next (gatedWrite d s))
  ∧ (∀ (d : SideId) (p : Port) (t : Cls) s, mayWrite d s = false → exec (.segmentPick p t d) s = .next (gatedWrite d s))
  ∧ (∀ (d : SideId) (p : Port) (t : Cls) s f x e es tag o n v sq lc fin st y, mayWrite d s = true → serving s = true →
    ticksDone s = true → pickOf s p.val t.val = some (f, x) →
    x.elems = e :: es → e.kind = .stream → e.tag = some tag → opOf s tag = some o → e.tags = some st →
    segmentLen s f p.val t.val o = some n → y = (o.sentBytes + n == o.payLen) →
    takeSeq f s = (v, sq) →
    lc = counted x (flowLen sq (segmentBytes o.tpl o.edits (slice o.payload o.sentBytes n) o.seg o.sentBytes y)) →
    fin = finishTag x st.1 lc →
    exec (.segmentPick p t d) s = .next ((if y = true then dequeue f else becomeHead f false) (putOp (stage p.val t.val
        { src := 1, tag := some tag, flow := f,
          bytes := segmentBytes o.tpl o.edits (slice o.payload o.sentBytes n) o.seg o.sentBytes y, seq := sq,
          since := e.since, ref := if o.tsReq then some (w32 (tag * 2 ^ 13 + o.seg % 8192)) else none, lastSeg := y }
        (charge f p.val t.val lc fin (measure f p.val t.val (eventEl v - e.enter)
          (putFlow v f { x with tag := fin, elems := { e with enter := eventEl v } :: es })))) tag
      { o with seg := o.seg + 1, sentBytes := o.sentBytes + n, copies := o.copies + 1 })))
  ∧ (∀ (t : OpTag) b s o c u q, opOf s t.val = some o → o.kind = .stream → o.stage = .onChan c → dispatching s = true →
    u = dmaGo s → (chanOf u c).read = some q → q.space = 0 → u.dma.stopped = false →
    exec (.payloadPrefetch t b) s = .next (dmaGo (takeRead c (putChan u c { chanOf u c with
      read := some { q with got := q.got ++ b.take (rawLen q - q.got.length) } }))))
  ∧ (∀ (t : OpTag) b s o c u q, opOf s t.val = some o → o.kind = .stream → o.stage = .onChan c → dispatching s = true →
    u = dmaGo s → (chanOf u c).read = some q → q.space = 0 → u.dma.stopped = true →
    exec (.payloadPrefetch t b) s = .next (putChan u c { chanOf u c with
      read := some { q with got := q.got ++ b.take (rawLen q - q.got.length) } }))
  ∧ (∀ (f : Flow) s p t before y behind, overdueIn s f.val = some (p, t, before, y, behind) →
    exec (.frameExpiry f) s = .next (reportDepart p t { y with expired := true } false noTs
      (refill p t (putGate s p { gateOf s p with staged := tput [] (gateOf s p).staged t (before ++ behind) }))))
  ∧ (∀ (f : Flow) s before e behind, overdueIn s f.val = none → consuming s = true →
    splitAtFirst (elemOver s (flowOf s f.val) (elapsed s)) (flowOf s f.val).elems = some (before, e, behind) →
    exec (.frameExpiry f) s = .next (expireAt f.val before e behind s))
  ∧ (∀ (f : Flow) s x d, x = flowOf s f.val → consuming s = true →
    d = (vtOf s x.port x.tc + 2 ^ 48 - x.tag % 2 ^ 48) % 2 ^ 48 → 2 ^ 40 < d → d < 2 ^ 47 →
    exec (.tagSweep f) s = .next (putFlow s f.val { x with tag := (vtOf s x.port x.tc + 2 ^ 48 - 2 ^ 40) % 2 ^ 48 }))
  ∧ (∀ (m : Fin 64) s, consuming s = true → regFld s .schMonCfg [m.val] 31 1 = 1 → nextSample s m.val ≤ elapsed s →
    exec (.monitorSample m) s = .next (count .schMonQbin [m.val, depthBin (monDepth s m.val)] 0 1
      { s with sch := { s.sch with sampled := tput 0 s.sch.sampled m.val (nextSample s m.val) } }))
  ∧ (∀ s n, n = (s.sch.ticks + 1) * 1000 → n ≤ elapsed s → exec .rateTick s = .next { s with
      sch := { s.sch with ticks := s.sch.ticks + 1, flows := s.sch.flows.map (fun fx => (fx.1, flowTick s n fx.2)) },
      jrn := { s.jrn with last := { s.jrn.last with el := max s.jrn.last.el n } } })

/-! ### Gates and the MAC Merge sublayer (R222 to R258) -/

/-- The tape of a port runs entry by entry; at its end the port meets the next Midnight, or the pending tape's first one
(R224 to R231), each once its time has come; hold is asserted HOLD_ADV_NS before an entry with OP 1 (R246); the executor starts the first frame that may start;
a departure frees the wire; a response verifies the merge and three misses fail it (R247). -/
def Obligations.GateEventsComplete : Prop :=
  (∀ (p : Port) s m el first, (gateOf s p.val).fill = some (m, el, first) → el ≤ elapsed s →
    exec (.gateEntryStart p) s = .next (midnight p.val m el first s))
  ∧ (∀ (p : Port) s g, g = gateOf s p.val → g.fill = none → g.entry + 1 < g.tape.length →
    g.midEl + cycleOf (g.tape.take (g.entry + 1)) ≤ elapsed s →
    exec (.gateEntryStart p) s
      = .next (startEntry p.val (g.entry + 1) (g.midEl + cycleOf (g.tape.take (g.entry + 1))) false s))
  ∧ (∀ (p : Port) s g e, g = gateOf s p.val → e = cycleEndNet s g → cycleOver s g = true → switchAt g e = none →
    exec (.gateCycleEnd p) s
      = .next (toMidnight p.val (cycleEndEl g) e (nextGrid g.origin (cycleOf g.tape) e) false (lastGates g.tape) s))
  ∧ (∀ (p : Port) s g e t o m, g = gateOf s p.val → e = cycleEndNet s g → cycleOver s g = true → g.pend = some t →
    switchAt g e = some (o, m) →
    exec (.tapeSwitch p) s = .next (toMidnight p.val (cycleEndEl g) e m true (lastGates g.tape)
      (raise (evGateSwitch p.val) (putGate s p.val { g with tape := t.tape, origin := o, pend := none, bank := !g.bank }))))
  ∧ (∀ (p : Port) s x, preActive s p.val = true → x ∈ upcoming s (gateOf s p.val) → x.2.action.toNat % 4 = 1 →
    x.1 ≤ elapsed s + regFld s .gateMmCfg [p.val] 16 12 →
    exec (.gateHoldAdvance p) s = .next (assertHold p.val s))
  ∧ (∀ (p : Port) s t x r, txReady s p.val = true → (gateOf s p.val).wire = none → firstOf s p.val false 8 = some (t, x, r) →
    exec (.executorFrameStart p) s = .next (startFrame p.val t x r (elapsedPs s) s))
  ∧ (∀ (p : Port) s t x r, txReady s p.val = true → (gateOf s p.val).wire = none → firstOf s p.val false 8 = none →
    (gateOf s p.val).cut = none → (preActive s p.val && (gateOf s p.val).hold) = false → firstOf s p.val true 8 = some (t, x, r) →
    exec (.executorFrameStart p) s = .next (startFrame p.val t x r (elapsedPs s) s))
  ∧ (∀ (p : Port) s c, txReady s p.val = true → (gateOf s p.val).wire = none → firstOf s p.val false 8 = none →
    (gateOf s p.val).cut = some c → canResume s p.val c = true →
    exec (.executorFrameStart p) s
      = .next (putGate s p.val { gateOf s p.val with cut := none, wire := some { c with startPs := elapsedPs s } }))
  ∧ (∀ (p : Port) s w t x r d, txReady s p.val = true → (gateOf s p.val).wire = some w → w.pre = true →
    preActive s p.val = true → firstCut s p.val w = some d →
    firstBy s p.val false (candidateAt s p.val (afterCut s p.val w d - elapsedPs s)) 8 = some (t, x, r) →
    exec (.executorFrameStart p) s = .next (startFrame p.val t x r (max (elapsedPs s) (afterCut s p.val w d)) (cutWire p.val w d s)))
  ∧ (∀ (p : Port) s w, (gateOf s p.val).wire = some w →
    exec (.frameDeparture p) s = .next (settleOff p.val (endWire p.val w s)))
  ∧ (∀ (p : Port) s, (gateOf s p.val).verify = 2 →
    exec (.mmVerifyResponse p) s = .next (putGate s p.val { gateOf s p.val with verify := 3 }))
  ∧ (∀ (p : Port) s, (gateOf s p.val).verify = 2 → (gateOf s p.val).attempts < 3 →
    exec (.mmVerifyTimeout p) s
      = .next (putGate s p.val { gateOf s p.val with attempts := (gateOf s p.val).attempts + 1 }))
  ∧ (∀ (p : Port) s, (gateOf s p.val).verify = 2 → 3 ≤ (gateOf s p.val).attempts →
    exec (.mmVerifyTimeout p) s = .next (raise evMmVerifyFail (putGate s p.val { gateOf s p.val with verify := 4 })))

/-! ### Ethernet ports and streams (R259 to R318) -/

/-- A frame's reception: its reservation or RX_OVF at the start (R274), its path at the end, the classifier when the side
consumes it; and a recovery function's reset (R311). -/
def Obligations.ReceiveEventsComplete : Prop :=
  (∀ (p : Port) s u x n, x = portOf s p.val → x.en = true → x.link = true → x.rxHeld = none → n = x.rxMax + 8 →
    reserve p.val n s = some u →
    exec (.portFrameRxStart p) s = .next (putPort u p.val { portOf u p.val with
      rx := some n, rxTs := portTs s (regFld s .timePortCorrIng [p.val] 0 16) 0 0, rxEl := stampEl u (regFld s .timePortCorrIng [p.val] 0 16),
      rxHeld := x.rx.map (fun r => (r, x.rxTs, x.rxEl)) }))
  ∧ (∀ (p : Port) s x, x = portOf s p.val → x.en = true → x.link = true → x.rxHeld = none → reserve p.val (x.rxMax + 8) s = none →
    exec (.portFrameRxStart p) s = .next (raise evPortRxOvf (portCount p.val 11 1 (putPort s p.val { x with
      rx := some 0, rxHeld := x.rx.map (fun r => (r, x.rxTs, x.rxEl)) }))))
  ∧ (∀ (p : Port) f s n, (portOf s p.val).rx = some n → exec (.portFrameRxEnd p f) s = .next (rxEnd p.val f s))
  ∧ (∀ (p : Port) f c s, isTransit s p.val f.bytes = true → exec (.transitRelay p f c) s = .next (rxEnd p.val f s))
  ∧ (∀ (p : Port) s x r, (portOf s p.val).sums = x :: r → consuming s = true →
    ((chanOf s 3).halted = true → claimOf s p.val x.bytes = none) →
    exec (.rxClassify p) s = .next (consumeAt x.stamp (rxPath p.val x) (putPort s p.val { portOf s p.val with sums := r })))
  ∧ (∀ (r : Fin 4096) s, consuming s = true → frerDue (recOf s r.val) (elapsed s) = true →
    exec (.frerResetTimeout r) s = .next (frerReset r.val s))

/-- Link, Energy-Efficient Ethernet and PCS events of one port (R263, R264, R281 to R287). -/
def Obligations.LinkEventsComplete : Prop :=
  (∀ (p : Port) s x, x = portOf s p.val → x.en = true → x.link = false → x.recal = false → x.txOff = false → peEn s p.val = false →
    s.fab.open_.getLsbD (p.val / 2) = false →
    ∃ t, exec (.linkUp p) s = .next t ∧ (portOf t p.val).link = true ∧ (portOf t p.val).peerTw = none
      ∧ (portOf t p.val).mismatch = false ∧ (portOf t p.val).idleSince = elapsed s ∧ t.evt.fw &&& evtBit (evLinkUp p.val) ≠ 0
      ∧ ∀ k, k ≠ p.val → portOf t k = portOf s k)
  ∧ (∀ (p : Port) lock ber s u, (portOf s p.val).link = true → u = linkLost p.val lock s →
    exec (.linkDown p lock ber) s = .next (putPort u p.val { portOf u p.val with
      hiBer := decide ((portOf s p.val).iface ≤ 1) && ber,
      inband := if hasInband s p.val && lock then inbandDown (portOf u p.val).inband else (portOf u p.val).inband }))
  ∧ (∀ (p : Port) (sp : BitVec 3) fd s, (portOf s p.val).en = true → hasInband s p.val = true →
    (sp.toNat ≠ (portOf s p.val).speed ∨ fd = false) →
    exec (.inbandMismatch p sp fd) s = .next (raise evInbandMismatch (putPort (linkLost p.val true s) p.val
      { portOf (linkLost p.val true s) p.val with
        mismatch := true, blockLock := true, inband := some (BitVec.ofNat 5 (16 + 8 * b2n fd + sp.toNat)) })))
  ∧ (∀ (p : Port) s x, x = portOf s p.val → x.link = true → x.en = true → x.eee = true → x.peerTw.isSome = true → x.txLpi = false →
    x.waking = false → (gateOf s p.val).wire = none → (gateOf s p.val).cut = none → nothingStaged s p.val = true →
    (someOpen s p.val = true ∨ dawnNear s p.val 0 = false) →
    regFld s .portEeeIdle [p.val] 0 16 ≤ elapsed s - x.idleSince →
    exec (.lpiEnter p) s = .next (portCount p.val 31 1 (putPort s p.val { x with txLpi := true, lpiSince := elapsed s })))
  ∧ (∀ (p : Port) s, nothingStaged s p.val = false ∨ dawnNear s p.val 1 = true → exec (.lpiWake p) s = .next (wake p.val s))
  ∧ (∀ (p : Port) s, (portOf s p.val).waking = true → (portOf s p.val).wakeAt + twNs s p.val ≤ elapsed s →
    exec (.lpiWakeDone p) s = .next (putPort s p.val { portOf s p.val with waking := false }))
  ∧ (∀ (p : Port) n fr s, consuming s = true → (portOf s p.val).link = true →
    exec (.lldpEeeTlvRx p n fr) s
      = .next (sendLldp p.val (pushSet [.portPeer p.val (if n ≤ 255 then some n else none) fr] s)))
  ∧ (∀ (p : Port) s, consuming s = true →
    exec (.lldpTlvAgeOut p) s = .next (pushSet [.portPeer p.val none (gateOf s p.val).peerFrag] s))
  ∧ (∀ (p : Port) s, (portOf s p.val).en = true → regFld s .portPcsCfg [p.val] 0 2 ≠ 0 →
    exec (.fecUncorrectableBlock p) s = .next (raise evFecUncorr (portCount p.val 37 1 s)))
  ∧ (∀ (p : Port) us s, (portOf s p.val).link = true → (portOf s p.val).rxLpi = false →
    exec (.rxLpiSignaled p us true) s
      = .next (portCount p.val 33 1 (putPort s p.val { portOf s p.val with rxLpi := true, rxLpiSince := elapsed s })))
  ∧ (∀ (p : Port) us s u, (portOf s p.val).link = true → u = accrueRxLpi p.val s →
    exec (.rxLpiSignaled p us false) s = .next (putPort u p.val { portOf u p.val with rxLpi := false }))
  ∧ (∀ (p : Port) lock ber s, (portOf s p.val).link = false → (portOf s p.val).en = true →
    exec (.linkDown p lock ber) s = .next (putPort s p.val { portOf s p.val with
      blockLock := lock, hiBer := decide ((portOf s p.val).iface ≤ 1) && ber,
      inband := if hasInband s p.val && lock then inbandDown (portOf s p.val).inband else (portOf s p.val).inband }))
/-! ### Time (R85 to R118) -/

/-- Every 2 ns tick advances network time by 2 ns + 2 × ADJ × 2^−16 / 1,000 ns: in units of 2^−32 ns, by the whole part of
(2^33 × 125 + ADJ × 2^14 + what was left over) / 125 (R85), and elapsed network time with it, from every state and under every
upset; a whole ms of reference time counts in operating time (R89). A copy that differs is set from the other two, counted and
told; with no two equal the part raises TIME_TMR_FAIL once and enters Safe-Hold (R86). The flags of timestamps taken from then
on are not this statement's. -/
def Obligations.TimeTickAdvances : Prop :=
  (∀ s u v, s.glb.porst = true → s.time.copyA = s.time.copyB → s.time.copyA = s.time.copyC →
    u = tickAdvance s.time → v = s.time.copyA + BitVec.ofNat 96 u.1 →
    exec (.timeTick 0 0 0) s = .next (opTick { s with time := { s.time with
      copyA := v, copyB := v, copyC := v, elapsed := s.time.elapsed + BitVec.ofNat 96 u.1, residue := u.2, tick := s.time.tick + 1,
      ppsDue := reaches s.time.copyA u.1 } }))
  ∧ (∀ a b c s, s.glb.porst = true → ∃ t, exec (.timeTick a b c) s = .next t ∧ t.time.tick = s.time.tick + 1
    ∧ t.time.elapsed = s.time.elapsed + BitVec.ofNat 96 (tickAdvance s.time).1 ∧ t.time.residue = (tickAdvance s.time).2
    ∧ t.time.epoch = s.time.epoch ∧ t.time.adj = s.time.adj)
  ∧ (∀ (d : BitVec 96) s, s.glb.porst = true → s.time.copyA = s.time.copyB → s.time.copyA = s.time.copyC → d ≠ 0 →
    (∃ t, exec (.timeTick d 0 0) s = .next t ∧ t.time.copyA = t.time.copyB ∧ t.time.copyA = t.time.copyC
      ∧ t.time.copyA = s.time.copyA + BitVec.ofNat 96 (tickAdvance s.time).1 ∧ t.evt.fw &&& evtBit evTmrFix ≠ 0)
    ∧ (∃ t, exec (.timeTick 0 d 0) s = .next t ∧ t.time.copyA = t.time.copyB ∧ t.time.copyA = t.time.copyC
      ∧ t.time.copyA = s.time.copyA + BitVec.ofNat 96 (tickAdvance s.time).1 ∧ t.evt.fw &&& evtBit evTmrFix ≠ 0)
    ∧ (∃ t, exec (.timeTick 0 0 d) s = .next t ∧ t.time.copyA = t.time.copyB ∧ t.time.copyA = t.time.copyC
      ∧ t.time.copyA = s.time.copyA + BitVec.ofNat 96 (tickAdvance s.time).1 ∧ t.evt.fw &&& evtBit evTmrFix ≠ 0))
  ∧ (∀ (a b c : BitVec 96) s, s.glb.porst = true → s.time.tmrFail = false → s.time.copyA ^^^ a ≠ s.time.copyB ^^^ b →
    s.time.copyA ^^^ a ≠ s.time.copyC ^^^ c → s.time.copyB ^^^ b ≠ s.time.copyC ^^^ c →
    ∃ t, exec (.timeTick a b c) s = .next t ∧ t.time.tmrFail = true ∧ t.glb.safeCause.getLsbD 3 = true
      ∧ t.glb.alarm.getLsbD 1 = true ∧ t.evt.fw &&& evtBit evTmrFail ≠ 0)
  ∧ (∀ a b c s, s.glb.porst = false → exec (.timeTick a b c) s = .next s)

/-- A TIME_TICK on three equal copies advances them, elapsed time and reference time together (R85, R86). STEP_APPLY takes, at a whole microsecond, every step and rate that waits, steps first, and waits while a Castling runs (R98,
R104; the order is the model's choice, log entry 85); the PPS rows mark a second that has come and capture an edge (R103); OPTIME_SAVE saves
operating time each second while a bank works (R90). -/
def Obligations.StepAndPpsComplete : Prop :=
  (∀ s n r, s.glb.porst = true → s.time.copyA = s.time.copyB → s.time.copyA = s.time.copyC → tickAdvance s.time = (n, r) →
    ∃ t, exec (.timeTick 0 0 0) s = .next t ∧ t.time.copyA = s.time.copyA + BitVec.ofNat 96 n ∧ t.time.copyB = t.time.copyA
      ∧ t.time.copyC = t.time.copyA ∧ t.time.elapsed = s.time.elapsed + BitVec.ofNat 96 n ∧ t.time.residue = r
      ∧ t.time.tick = s.time.tick + 1 ∧ t.que = s.que ∧ t.sides = s.sides ∧ t.jrn = s.jrn ∧ t.glb = s.glb ∧ t.evt = s.evt)
  ∧ (∀ s, s.sides.castling = none → s.time.tick % 500 = 0 →
    exec .stepApply s = .next (s.time.rates.foldl (fun s r => applyRate r s) (s.time.steps.foldl (fun s o => applyStep o s)
      { s with time := { s.time with steps := [], rates := [] } })))
  ∧ (∀ s, s.sides.castling ≠ none ∨ s.time.tick % 500 ≠ 0 → exec .stepApply s = .next s)
  ∧ (∀ s, s.time.ppsOut = true → s.time.ppsDue = true →
    exec .ppsOutPulse s = .next { s with time := { s.time with
      ppsPulses := s.time.ppsPulses + 1, ppsDue := false, ppsUntil := s.time.tick + s.time.ppsWidth * 500 } })
  ∧ (∀ s, s.time.ppsOut = false ∨ s.time.ppsDue = false → exec .ppsOutPulse s = .next s)
  ∧ (∀ s, s.time.ppsIn = true → exec .ppsInEdge s = .next (raise evPpsIn (count .timePpsInEpoch [] 31 1
      { s with time := { s.time with ppsCapture := BitVec.ofNat 64 (netNs s), ppsEpoch := s.time.epoch } })))
  ∧ (∀ s, s.recd.volatile = false → s.glb.porst = true → s.recd.ready = true → s.time.optimeSaved + 1000 ≤ s.time.optime →
    exec .optimeSave s = .next { s with time := { s.time with optimeSaved := s.time.optime } })
  ∧ (∀ s, s.recd.ready = true → exec .journalSummaryWrite s = .next (writeSummary (flushStands s) s))

/-- A step of the time base moves all three copies by the same amount on one tick and advances the epoch by one (R98,
R99), with the timestamps of frames whose message timestamp point lies ahead (R100). -/
def Obligations.StepMovesAllCopies : Prop :=
  ∀ s off, s.sides.castling = none → s.time.tick % 500 = 0 → s.time.steps = [off] → s.time.rates = [] →
    ∃ t, exec .stepApply s = .next t ∧ t.time.copyA = s.time.copyA + BitVec.ofInt 96 (off * 2 ^ 32)
      ∧ t.time.copyB = s.time.copyB + BitVec.ofInt 96 (off * 2 ^ 32) ∧ t.time.copyC = s.time.copyC + BitVec.ofInt 96 (off * 2 ^ 32)
      ∧ t.time.epoch = s.time.epoch + 1 ∧ t.time.adj = s.time.adj ∧ t.time.elapsed = s.time.elapsed ∧ t.time.steps = []
      ∧ t.evt.fw &&& evtBit evStepDone ≠ 0 ∧ t.que = s.que ∧ t.glb = s.glb
      ∧ t.gate = s.gate.map (fun g => (g.1, { g.2 with
          wire := g.2.wire.map (restamp { s with time := { s.time with epoch := s.time.epoch + 1 } } off),
          cut := g.2.cut.map (restamp { s with time := { s.time with epoch := s.time.epoch + 1 } } off) }))

/-- The gPTP rows (R91 to R96), reference switches (R88, R508 to R513) and TIME_TXTS_POP0 (R110). -/
def Obligations.GptpEventsComplete : Prop :=
  (∀ f s u v x, consuming s = true → (slotOf s f.slot.val).role ≠ 0 →
    u = settleSlot f.slot.val (syncInterval f.slot.val s) → hasSlave u f.slot.val = true →
    x = measured u (slotOf u f.slot.val) f.offset f.rate →
    v = putSlot u f.slot.val { x with regain := x.regain || losing f.slot.val f.offset u } →
    exec (.syncRx f) s = .next (servo f.slot.val f.offset f.adj (settlePtp v)))
  ∧ (∀ f s, consuming s = false → nobodyHolds s = false →
    exec (.syncRx f) s = .next { s with ptp := { s.ptp with rxWait := s.ptp.rxWait ++ [(.sync f, stampNow s)] } })
  ∧ (∀ (d : SideId) (k : Fin 2) (n : BitVec 16) s, mayWrite d s = true → consuming s = true → (slotOf s k.val).role ≠ 0 →
    intervalPast (syncNs s k.val) (slotOf s k.val).sentAt s = true →
    exec (.syncTransmit k n d) s = .next (sendPtp 0 k.val n.toNat 1
      (settlePtp (syncInterval k.val (putSlot s k.val { slotOf s k.val with sentAt := some (elapsed s) })))))
  ∧ (∀ (d : SideId) (k : Fin 2) (p : Port) (n : BitVec 16) s, mayWrite d s = true → consuming s = true →
    (slotOf s k.val).role ≠ 0 → ptpPortState s p.val k.val ≠ 0 →
    intervalPast (pdelayNs s k.val) (delayOf s p.val k.val).sentAt s = true →
    exec (.pdelayReqTransmit k p n d) s = .next (stagePtp p.val 2 k.val n.toNat none
      (putDelay s p.val k.val { delayOf s p.val k.val with sentAt := some (elapsed s) })))
  ∧ (∀ (d : SideId) (k : Fin 2) (p : Port) (n : BitVec 16) s, mayWrite d s = false →
    exec (.syncTransmit k n d) s = .next (gatedWrite d s) ∧ exec (.pdelayReqTransmit k p n d) s = .next (gatedWrite d s))
  ∧ (∀ m s, consuming s = true → m.messageType = 2 → (slotOf s m.slot.val).role ≠ 0 → ptpPortState s m.port.val m.slot.val ≠ 0 →
    exec (.pdelayRx m) s = .next (stagePtp m.port.val 3 m.slot.val m.sequenceId.toNat (some (rxStamp s m.port.val)) s))
  ∧ (∀ m s, consuming s = true → (m.messageType = 3 ∨ m.messageType = 10) → (slotOf s m.slot.val).role ≠ 0 →
    ptpPortState s m.port.val m.slot.val ≠ 0 → exec (.pdelayRx m) s = .next (takeResponse m (rxStamp s m.port.val) s))
  ∧ (∀ m s, consuming s = false → nobodyHolds s = false →
    exec (.pdelayRx m) s = .next { s with ptp := { s.ptp with rxWait := s.ptp.rxWait ++ [(.pdelay m (rxStamp s m.port.val), stampNow s)] } })
  ∧ (∀ (k : Fin 2) s, consuming s = true → ((slotOf s k.val).state = 1 ∨ (slotOf s k.val).state = 2) →
    (slotOf s k.val).heard + receiptNs s k.val ≤ elapsed s →
    exec (.syncReceiptTimeout k) s
      = .next (settlePtp (syncInterval k.val (putSlot s k.val { slotOf s k.val with state := 3, good := 0 }))))
  ∧ (∀ s, consuming s = true → s.ptp.slewing = true →
    exec .slewEnd s = .next (decideRate s.ptp.base { s with ptp := { s.ptp with slewing := false, slewOff := 0 } }))
  ∧ (∀ s, consuming s = true → s.ptp.slewing = false → exec .slewEnd s = .next s)
  ∧ (∀ s, consuming s = true → s.ptp.sel.val ≠ prefSlot s → slotLocked (slotOf s (prefSlot s)) = true →
    (slotOf s (prefSlot s)).lockedAt + 1000000000 ≤ elapsed s →
    exec .prefSlotReturn s = .next (acquired (domainSwitch (prefSlot s) s)))
  ∧ (∀ s, s.glb.porst = true → exec .msTimeEvent s
      = .next (if consuming (timeRecord .ms s) then settleDuePtp (frerCheck (timeRecord .ms s)) else timeRecord .ms s))
  ∧ (∀ (r : Fin 2) s u, s.glb.porst = true → u = putRef r.val false false s → mustSwitch u = true →
    exec (.refLost r) s = .next (switchRef u))
  ∧ (∀ (r : Fin 2) s u, u = putRef r.val false false s → mustSwitch u = false → exec (.refLost r) s = .next u)
  ∧ (∀ (r : Fin 2) qual s u, s.glb.porst = true → s.glb.relHeld = false → u = putRef r.val true qual s →
    (mustSwitch u = true ∨ (qual = true ∧ r = 0 ∧ u.glb.refSel = true ∧ regFld u .glbClkCfg [] 0 1 = 1)) →
    exec (.refQualified r qual) s = .next (regainLocks (switchRef u)))
  ∧ (∀ (r : Fin 2) qual s u, s.glb.porst = true → s.glb.relHeld = false → u = putRef r.val true qual s → mustSwitch u = false →
    (qual = false ∨ r ≠ 0 ∨ u.glb.refSel = false) → exec (.refQualified r qual) s = .next (regainLocks u))
  ∧ (∀ (r : Fin 2) qual s, s.glb.relHeld = true → exec (.refQualified r qual) s = .next (releasePorst (putRef r.val true qual s)))
  ∧ (∀ s, s.glb.ref0 = false → s.glb.ref1 = false → s.glb.porst = true →
    ∃ t, exec .refHoldExpiry s = .next t ∧ t.sides.white.alive = (s.sides.white.alive && !pulses s.sides.white)
      ∧ t.sides.black.alive = (s.sides.black.alive && !pulses s.sides.black) ∧ t.glb.lockTime = false ∧ t.glb.lockHost = false
      ∧ t.glb.safeCause.getLsbD 4 = true ∧ t.glb.alarm.getLsbD 0 = true)
  ∧ (∀ (h : Host) v s, exec (.forceSwitch h v) s = .next (writeAt h.val .glbClkCfg [] v s))
  ∧ (∀ (r : Reader) (p : Port) s u e, regFld s .timeTxtsCfg [p.val] 0 3 = whoOf r → popTxts p.val s = (u, e) →
    exec (.txtsPop0Read r p) s = .next (putRead r (w32 e.ns.toNat)
      (latchPut r (regAddr .timeTxtsPop3 [p.val]) e.ref.toNat
        (latchPut r (regAddr .timeTxtsPop2 [p.val]) (e.epoch.toNat + e.tsf.toNat * 2 ^ 16)
          (latchPut r (regAddr .timeTxtsPop1 [p.val]) (e.ns.toNat / 2 ^ 32) u)))))
  ∧ (∀ (r : Reader) (p : Port) s, regFld s .timeTxtsCfg [p.val] 0 3 ≠ whoOf r →
    exec (.txtsPop0Read r p) s = .next (putRead r 0 s))

/-! ### Sides, the Chess Clock and Moves (R349 to R408) -/

/-- The Chess Clock: an alive pulse stops or arrives, a Flag falls only where it does not, a side presses, the Clock grants
the earlier press, refuses one while the holder lives, and a planned Castling hands over or fails (R353 to R366). -/
def Obligations.ChessClockComplete : Prop :=
  (∀ d c s, pulses (sideOf s d) = true →
    exec (.alivePulseStop d c) s
      = .next (updSide d (fun r => { r with alive := false, healthy := false }) (loseLock d c s)))
  ∧ (∀ d c s, pulses (sideOf s d) = false → exec (.alivePulseStop d c) s = .next (loseLock d c s))
  ∧ (∀ d s, pulses (sideOf s d) = true → (sideOf s d).healthy = true →
    exec (.heartbeatSend d) s = .next (updSide d (fun r => { r with
      alive := true, toggle := s.time.tick, beat := some (beatOf r (Config.healthWord s.free)) }) (draw s).2))
  ∧ (∀ d s, pulses (sideOf s d) = true → (sideOf s d).healthy = false →
    exec (.heartbeatSend d) s = .next (updSide d (fun r => { r with beat := some (beatOf r (Config.healthWord s.free)) }) (draw s).2))
  ∧ (∀ d s, pulses (sideOf s d) = true → (sideOf s (other d)).alive = true → s.sides.mlOk = true →
    exec (.heartbeatMiss d) s = .next (mlFail s))
  ∧ (∀ n d s u, s.sides.mlOk = true → flitFails s d n < 2 →
    u = { s with sides := { s.sides with mlFails := tput 0 s.sides.mlFails (n * 2 + sideNum d) (flitFails s d n + 1) } } →
    exec (.mlFlitCrcFail n d) s = .next (count .sideMlStat [] 16 1 u))
  ∧ (∀ n d s u, s.sides.mlOk = true → 2 ≤ flitFails s d n →
    u = { s with sides := { s.sides with mlFails := tput 0 s.sides.mlFails (n * 2 + sideNum d) (flitFails s d n + 1) } } →
    exec (.mlFlitCrcFail n d) s = .next (mlFail u))
  ∧ (∀ d s, pulses (sideOf s d) = true → (sideOf s d).alive = false → exec (.flagFall d) s = .next (flagFall d s))
  ∧ (∀ d s, (sideOf s d).alive = true → exec (.flagFall d) s = .next s)
  ∧ (∀ d s, mayPress s d = true → (sideOf s d).press = false →
    exec (.chessClockPress d) s = .next (updSide d (fun r => { r with
      press := true, pressTick := s.time.tick, step := if r.state = 1 then 7 else r.step }) s))
  ∧ (∀ d s, s.sides.holder = none → pressWinner s = some d → exec .chessClockGrant s = .next (grantTo d s))
  ∧ (∀ d h s, s.sides.holder = some h → h ≠ d → (sideOf s d).press = true → (sideOf s h).alive = true →
    exec (.pressRefused d) s
      = .next (raise evClaimRefused (count .sideClaimCnt [] 0 1 (updSide d (fun r => { r with press := false }) s))))
  ∧ (∀ h s, s.sides.holder = some h → s.sides.handover = .sent → (sideOf s h).healthy = true → (sideOf s (other h)).state = 4 →
    (sideOf s (other h)).move + 1 = s.jrn.move →
    exec .handoverAck s = .next (releaseClock h (settlePending (other h) s)))
  ∧ (∀ h s u, s.sides.holder = some h → s.sides.handover = .sent →
    u = mlFail (castleOutcome stState h { s with sides := { s.sides with handover := .none } }) →
    exec .handoverTimeout s = .next (if u.sides.disp = .running then endIntr u else u))
  ∧ (∀ s, s.glb.porst = true → ∃ t, exec .moveMarker s = .next t ∧ t.jrn.move = s.jrn.move + 1 ∧ t.cmd.shortInMove = 0
      ∧ t.cmd.notesInMove = 0 ∧ t.jrn.throttled = false)
  ∧ (∀ (x : Token) h n s, s.sides.holder = some h → s.jrn.pending = some (n, true) → (sideOf s (other h)).state = 4 →
    (sideOf s h).healthy = true → (sideOf s (other h)).healthy = true → x.move % 2 ^ 32 = n % 2 ^ 32 → x.cutover = false →
    tokenSent x s = true → x.base % 2 ^ 32 = (sideOf s (other h)).move % 2 ^ 32 → x.flits = x.flitsSeen → x.crcGood = true →
    exec (.commitTokenRx x) s = .next (updSide (other h) (takeMove n) s))
  ∧ (∀ h n s, s.sides.holder = some h → s.jrn.pending = some (n, true) → (sideOf s (other h)).move = n → (sideOf s h).healthy = true →
    exec .commitAck s = .next (commitMove n s))
  ∧ (∀ h n s, s.sides.holder = some h → s.jrn.pending = some (n, true) → (sideOf s h).healthy = true →
    (sideOf s (other h)).alive = false → exec .commitAckTimeout s = .next (commitMove n s))
  ∧ (∀ h n s, s.sides.holder = some h → s.jrn.pending = some (n, false) → (sideOf s h).healthy = true →
    exec (.moveSlotWriteDone n) s = .next (commitMove n s))

/-- When both sides press in the same cycle, White wins; otherwise the earlier press wins (R359). The grant makes the
winner the only holder, ACTIVE, shown alive while its pulse runs, clears the other side's press and records network time. -/
def Obligations.ClockGrantsOneSide : Prop :=
  (∀ s, s.sides.white.press = true → s.sides.black.press = true →
    pressWinner s = some (if s.sides.white.pressTick ≤ s.sides.black.pressTick then .white else .black))
  ∧ ∀ s d, s.sides.holder = none → pressWinner s = some d → s.sides.handover = .none → s.glb.mode = 7 →
    s.sides.castling = some true → s.jrn.pending = none → (flashOf s d).confirmed = true → (flashOf s d).svnCommit = false →
    ∃ t, exec .chessClockGrant s = .next t ∧ t.sides.holder = some d ∧ (sideOf t d).state = 5 ∧ (sideOf t d).alive = (sideOf s d).healthy
      ∧ (sideOf t (other d)).press = false ∧ t.sides.disp = .replay ∧ t.sides.lastGrant = BitVec.ofNat 64 (netNs s)

/-- Moves: the marker ends the running Move, takes AI into its CQEs and offers it for commit; a commit token is taken only
whole and in order; the commit follows the standby's acknowledgement, its timeout, or the Move slot's write (R382 to R389);
a throttle stops consuming at 7,680 flits, and in phase 3 at 32 newly dirty granules, which raises nothing (R385, R405); a
Scoresheet whose ring and spill are full is told (R391). -/
def Obligations.MoveEventsComplete : Prop :=
  (∀ s u v, s.glb.porst = true → u = offerCommit (fixAi (timeRecord .marker (if consuming s then notLate s else s))) →
    v = { u with cmd := { u.cmd with shortInMove := 0, notesInMove := 0, gensMark := u.cmd.gensMark ++ [(u.jrn.move - 1, u.cmd.gens)] },
                 jrn := { u.jrn with throttled := false, capped := false, markEl := elapsed u }, sides := { u.sides with rsMoved := 0 } } →
    exec .moveMarker s = .next (dmaGo (holdAtMarker (beginCastling (exitLockstep (consumeInputs
      (if consuming v then caughtUp v else v)))))))
  ∧ (∀ s h, s.sides.holder = some h → s.sides.disp = .running → (sideOf s h).healthy = true →
    (offerCommit s).jrn.pending = some (s.jrn.move, byToken s) ∧ (offerCommit s).jrn.move = s.jrn.move + 1
    ∧ (offerCommit s).jrn.delta = [])
  ∧ (∀ (x : Token) h n s, s.sides.holder = some h → s.jrn.pending = some (n, true) → (sideOf s (other h)).state = 4 →
    (sideOf s h).healthy = true → (sideOf s (other h)).healthy = true → x.move % 2 ^ 32 = n % 2 ^ 32 → x.cutover = false →
    tokenSent x s = true → x.base % 2 ^ 32 = (sideOf s (other h)).move % 2 ^ 32 → x.flits = x.flitsSeen → x.crcGood = true →
    exec (.commitTokenRx x) s = .next (updSide (other h) (takeMove n) s))
  ∧ (∀ (x : Token) h n s, s.sides.holder = some h → s.jrn.pending = some (n, true) → (sideOf s (other h)).state = 4 →
    (sideOf s h).healthy = true → (sideOf s (other h)).healthy = true → x.move % 2 ^ 32 = n % 2 ^ 32 → x.cutover = false →
    tokenSent x s = true → (x.crcGood = false ∨ x.flits ≠ x.flitsSeen ∨ x.base % 2 ^ 32 ≠ (sideOf s (other h)).move % 2 ^ 32) →
    exec (.commitTokenRx x) s = .next (mlFail s))
  ∧ (∀ (x : Token) h s, s.sides.holder = some h → (∀ n, s.jrn.pending ≠ some (n, true)) → (sideOf s (other h)).state = 3 →
    s.sides.phase = 3 → tokenSent x s = true → x.cutover = true → x.flits = x.flitsSeen → x.crcGood = true →
    exec (.commitTokenRx x) s = .next (updSide (other h) (takeMove x.move) { s with sides := { s.sides with phase := 4 } }))
  ∧ (∀ h n s, s.sides.holder = some h → s.jrn.pending = some (n, true) → (sideOf s (other h)).move = n → (sideOf s h).healthy = true →
    exec .commitAck s = .next (commitMove n s))
  ∧ (∀ h n s, s.sides.holder = some h → s.jrn.pending = some (n, true) → (sideOf s h).healthy = true →
    (sideOf s (other h)).alive = true → exec .commitAckTimeout s = .next (mlFail s))
  ∧ (∀ h n s, s.sides.holder = some h → s.jrn.pending = some (n, true) → (sideOf s h).healthy = true →
    (sideOf s (other h)).alive = false → exec .commitAckTimeout s = .next (commitMove n s))
  ∧ (∀ h n s, s.sides.holder = some h → s.jrn.pending = some (n, false) → (sideOf s h).healthy = true →
    exec (.moveSlotWriteDone n) s = .next (commitMove n s))
  ∧ (∀ s, consuming s = true → 7680 ≤ flitsOf s.jrn.delta → exec .jrnThrottle s = .next (raiseS evJrnThrottle (throttle { s with jrn := { s.jrn with capped := true } })))
  ∧ (∀ s, consuming s = true → flitsOf s.jrn.delta < 7680 → s.sides.phase = 3 → 32 ≤ (granulesOf s.jrn.delta).length →
    exec .jrnThrottle s = .next (throttle s))
  ∧ (∀ s, flitsOf s.jrn.delta < 7680 → s.sides.phase ≠ 3 → exec .jrnThrottle s = .next s)
  ∧ (∀ s, s.jrn.full = false → sheetFull s.jrn = true →
    exec .scoresheetFull s = .next (raise evSsFull { s with jrn := { s.jrn with full := true } }))

/-- A Castling's replay and restart, Lockstep, self-tests and resynchronization (R366 to R381, R404 to R408). -/
def Obligations.CastlingEventsComplete : Prop :=
  (∀ s l rs u, s.sides.disp = .replay → s.sides.holder.isSome = true →
    u = count .sideJrnReplay [] 0 1 { s with sides := { s.sides with disp := .restart } } →
    exec (.replayEnd l rs) s = .next (l.foldl (fun s t => divergeCase s t.val) (rereadAll u.cmd.ibCmds rs u)))
  ∧ (∀ s n h u v w, s.sides.disp = .restart → s.sides.holder = some h → s.glb.mode ≠ 2 → s.sides.castling.isSome = true →
    u = dmaGo (settleDirect (endIntr (caughtUp { s with sides := { s.sides with disp := .running, castling := none } }))) →
    v = leaveCastling (raise evCastleDone u) → v.sides.holder = some h → v.sides.mlOk = true → w = admitWaiting v →
    (raise evCastleDone u).glb.mode ≠ 2 →
    exec (.dispatchRestartEnd n) s = .next (consumeInputs (beginPending w)))
  ∧ (∀ o w b s, w = b → exec (.lsOutputMismatch o w b) s = .next s)
  ∧ (∀ o w b s h, s.sides.holder = some h → (sideOf s (other h)).state = 7 → s.sides.disp ≠ .check → w ≠ b →
    exec (.lsOutputMismatch o w b) s = .next (raise evLsMismatch (count .sideLsStat [] 16 1 (beginIntr s.time.tick
      { s with sides := { s.sides with lsHold := true, lsKind := 1, lsOutput := lsCode o, disp := .check } }))))
  ∧ (∀ o s h, s.sides.holder = some h → (sideOf s (other h)).state = 7 → s.sides.disp ≠ .check →
    exec (.lsPartnerWaitTimeout o) s = .next (raise evLsMismatch (count .sideLsStat [] 16 1 (beginIntr s.time.tick
      { s with sides := { s.sides with lsHold := true, lsKind := 2, lsOutput := lsCode o, disp := .check } }))))
  ∧ (∀ s b u, s.sides.disp = .check → inStep s.sides.white = true → u = offer (verdictRecord s
      (if b && inStep s.sides.black then 3 else 2)) (raise evLsCheckDone { s with sides := { s.sides with
        lsHold := false, lsVerdict := if b && inStep s.sides.black then 3 else 2 } }) →
    exec (.lsSelfCheckEnd true b) s = .next (lsContinue .white u))
  ∧ (∀ s, s.sides.disp = .check → inStep s.sides.black = true →
    exec (.lsSelfCheckEnd false true) s = .next (lsContinue .black (offer (verdictRecord s 1) (raise evLsCheckDone
      { s with sides := { s.sides with lsHold := false, lsVerdict := 1 } }))))
  ∧ (∀ s h c, s.sides.holder = some h → (sideOf s (other h)).state = 7 →
    exec (.mlSelftestRun c) s = .next { s with sides := { s.sides with
      loopRuns := if c then min 10 (s.sides.loopRuns + 1) else 0,
      lsExit := (if c then min 10 (s.sides.loopRuns + 1) else 0) == 10 } })
  ∧ (∀ s d n (x : BitVec 7) u v, v = testDdr d (BitVec.ofNat 7 n) (x &&& BitVec.ofNat 7 n) s → workOf s 5 = some (.selftest d n true none) → (sideOf s d).state = 6 →
    BitVec.ofNat 7 n &&& ~~~x ≠ 0 →
    u = testOutcome stOk { v with sides := { v.sides with
      stRunning := false, stPassed := x &&& BitVec.ofNat 7 n, stFailed := BitVec.ofNat 7 n &&& ~~~x } } →
    exec (.selftestEnd x) s = .next (raiseS evStFail (followSides (goOut d u))))
  ∧ (∀ s d n (x : BitVec 7) u v, v = testDdr d (BitVec.ofNat 7 n) (x &&& BitVec.ofNat 7 n) s → workOf s 5 = some (.selftest d n true none) → (sideOf s d).state = 6 →
    BitVec.ofNat 7 n &&& ~~~x = 0 →
    u = testOutcome stOk { v with sides := { v.sides with
      stRunning := false, stPassed := x &&& BitVec.ofNat 7 n, stFailed := 0 } } → (u.sides.mlOk = true ∨ (x &&& BitVec.ofNat 7 n).getLsbD 5 = true) →
    exec (.selftestEnd x) s = .next (enterResync d u))
  ∧ (∀ s h g, s.sides.holder = some h → (sideOf s (other h)).state = 3 → s.sides.phase = 1 →
    exec (.resyncPhaseEnd g) s
      = .next { s with sides := { s.sides with phase := 2, rsCopied := 1024 * s.sides.rsInUse, rsDirty := g, rsDirtied := g } })
  ∧ (∀ s h g, s.sides.holder = some h → (sideOf s (other h)).state = 3 → s.sides.phase = 2 → 4096 < g → s.sides.pass < 15 →
    exec (.resyncPhaseEnd g) s = .next { s with sides := { s.sides with
      pass := s.sides.pass + 1, rsCopied := s.sides.rsCopied + s.sides.rsDirty, rsDirty := g,
      rsDirtied := s.sides.rsDirtied + g } })
  ∧ (∀ s h g n, s.sides.holder = some h → (sideOf s (other h)).state = 3 → s.sides.phase = 3 →
    n = min (100 - s.sides.rsMoved) s.sides.rsDirty →
    exec (.resyncPhaseEnd g) s = .next { s with sides := { s.sides with
      rsCopied := s.sides.rsCopied + n, rsMoved := s.sides.rsMoved + n, rsDirty := g,
      rsDirtied := s.sides.rsDirtied + (g - (s.sides.rsDirty - n)) } })
  ∧ (∀ s h, s.sides.holder = some h → (sideOf s (other h)).state = 2 → (sideOf s (other h)).mustLoop = true →
    9 ≤ s.sides.loopRuns → exec (.mlSelftestRun true) s
      = .next (enterResync (other h) { s with sides := { s.sides with loopRuns := 0 } }))
  ∧ (∀ s, consuming s = true → 7680 ≤ flitsOf s.jrn.delta → exec .jrnThrottle s = .next (raiseS evJrnThrottle (throttle { s with jrn := { s.jrn with capped := true } })))
  ∧ (∀ s, s.jrn.full = false → sheetFull s.jrn = true →
    exec .scoresheetFull s = .next (raise evSsFull { s with jrn := { s.jrn with full := true } }))
  ∧ (∀ s h, s.sides.holder = some h → (sideOf s (other h)).state = 3 → s.sides.phase = 4 →
    ∃ t, exec .resyncLoadEnd s = .next t ∧ (sideOf t (other h)).state = 4 ∧ t.sides.phase = 0
      ∧ t.evt.fw &&& evtBit evResyncDone ≠ 0 ∧ t.sides.holder = some h)
/-! ### Pins, hosts, power, clocks and modes (R435 to R460, R499 to R525) -/

/-- Reset pins: PORST_N takes the part to its reset state with the store, the flashes, the pins and the supplies kept; its
release begins a cold start, or Bypass mode with HOLD_N low, with the epoch and the power cycles counted (R89, R99, R435,
R454); a side pin resets its side, both together start the part warm (R445, R451). -/
def Obligations.ResetPinsComplete : Prop :=
  (∀ s, ∃ t, exec .porstNAssert s = .next t ∧ t.glb.porst = false ∧ t.glb.mode = 1 ∧ t.regs = [] ∧ t.que = {} ∧ t.cmd = {}
    ∧ t.gate = [] ∧ t.port = [] ∧ t.sides = {} ∧ t.time.copyA = 0 ∧ t.time.copyB = 0 ∧ t.time.copyC = 0
    ∧ t.recd.store = storeKept s.recd ∧ t.flashW.cells = s.flashW.cells ∧ t.flashB.cells = s.flashB.cells
    ∧ t.time.optimeSaved = s.time.optimeSaved ∧ t.fab.open_ = 0)
  ∧ (∀ s, s.glb.porst = false → s.glb.feedA || s.glb.feedB → s.glb.ref0 || s.glb.ref1 →
    ∃ t, exec .porstNRelease s = .next t ∧ t.glb.porst = true ∧ t.glb.mode = (if s.glb.holdN then 1 else 0)
      ∧ t.glb.startBusy = s.glb.holdN ∧ t.time.epoch = s.recd.epochSaved + 1
      ∧ t.time.pwrCycles = (s.time.pwrCycles + 1) % 2 ^ 32 ∧ t.glb.resetCause = 1 ∧ t.recd.powerUp = some 1)
  ∧ (∀ s, s.glb.porst = true ∨ ¬(s.glb.feedA || s.glb.feedB) → exec .porstNRelease s = .next s)
  ∧ (∀ s, s.glb.porst = false → s.glb.feedA || s.glb.feedB → ¬(s.glb.ref0 || s.glb.ref1) →
    exec .porstNRelease s = .next { s with glb := { s.glb with relHeld := true } })
  ∧ (∀ s t, s.glb.porst = true → s.glb.rstB = true → t = { s with glb := { s.glb with rstW := false } } →
    exec (.sideResetPinAssert .white) s = .next (pinReset .white 2 t))
  ∧ (∀ s t, s.glb.porst = true → s.glb.rstW = true → t = { s with glb := { s.glb with rstB := false } } →
    exec (.sideResetPinAssert .black) s = .next (pinReset .black 4 t))
  ∧ (∀ s, s.glb.porst = true → 3 ≤ s.glb.mode → s.glb.rstB = false →
    exec (.sideResetPinAssert .white) s = .next (warmStart 2 { s with glb := { s.glb with rstW := false } }))
  ∧ (∀ s, s.glb.porst = true → 3 ≤ s.glb.mode → s.glb.rstW = false →
    exec (.sideResetPinAssert .black) s = .next (warmStart 4 { s with glb := { s.glb with rstB := false } }))
  ∧ (∀ s, s.glb.porst = true → 3 ≤ s.glb.mode →
    exec .bothSidePinsLow s = .next (warmStart 6 { s with glb := { s.glb with rstW := false, rstB := false } }))
  ∧ (∀ d s, (sideOf s d).flushing = true →
    exec (.flushEnd d) s = .next (writeSummary true (selfRefresh d true (updSide d (fun r => { r with
      flushing := false, step := 2, flushWhole := true }) s))))
  ∧ (∀ d s, (sideOf s d).inReset = true → (sideOf s d).flushing = false → feedUp s d = true → s.glb.porst = true →
    s.glb.mode ≠ 11 →
    ∃ t, exec (.sideResetRelease d) s = .next t ∧ (sideOf t d).state = 1 ∧ (sideOf t d).inReset = false ∧ (sideOf t d).step = 3
      ∧ (sideOf t d).flag = false ∧ t.glb.mode = s.glb.mode ∧ sideOf t (other d) = sideOf s (other d))
  ∧ (∀ s t, s.glb.porst = true → 3 ≤ s.glb.mode → s.glb.mode ≤ 10 → t = { s with glb := { s.glb with holdN := false } } →
    exec .holdNLow s = .next { t with glb := { t.glb with holdReq := true } })
  ∧ (∀ s, exec .holdNHigh s = .next { s with glb := { s.glb with holdN := true, holdReq := false } })
  ∧ (∀ d s, (sideOf s d).state = 2 → regFld s .glbStartCfg [] 16 8 ≠ 0 → s.glb.porst = true → (sideOf s d).autoResets < autoMax s →
    exec (.autoReset d) s = .next (raise evAutoReset (resetSide d (16 * (1 + sideNum d))
      (updSide d (fun r => { r with autoResets := r.autoResets + 1 }) s))))

/-- Hosts, supplies, clocks, temperature and the start (R439 to R443, R500 to R525, R542 to R549). -/
def Obligations.HostAndPowerEventsComplete : Prop :=
  (∀ (h : Host) s u, s.glb.porst = true → u = perstRim h.val s → monitor u = true →
    exec (.perstAssert h) s = .next (perstSide h.val u))
  ∧ (∀ (h : Host) s u, s.glb.porst = true → u = perstRim h.val s → monitor u = false →
    exec (.perstAssert h) s = .next (keepReg (.perst h.val) u))
  ∧ (∀ (h : Host) up s, s.glb.porst = true → exec (.hostLinkChange h up) s = .next (changeLink h.val up s))
  ∧ (∀ (h : Host) x b s, (linkOf s h.val).up = true →
    exec (.busMasterEnableChange h x b) s = .next (dmaGo (putLink h.val { linkOf s h.val with cfg := x, bars := b } s)))
  ∧ (∀ (h : Host) (v : Fin 64) s x t, x = vecOf s h.val v.val → t = putVec s h.val v.val { x with masked := false, pba := false, pbaPlain := false } →
    x.pba = true → msixBlocked s h.val = false → s.jrn.full = false →
    exec (.msixUnmask h v) s = .next { t with bus := t.bus ++ [msixTlp h.val v.val x] })
  ∧ (∀ (h : Host) (v : Fin 64) s x, x = vecOf s h.val v.val → x.pba = false → s.jrn.full = false →
    exec (.msixUnmask h v) s = .next (putVec s h.val v.val { x with masked := false, pba := false, pbaPlain := false }))
  ∧ (∀ f s, feedUp s (feedSide f) = true → s.glb.porst = true → exec (.feedLoss f) s = .next (feedLost f s))
  ∧ (∀ f s, exec (.feedPresent f) s = .next (putFeed f true s))
  ∧ (∀ s, exec .rimSupplyFail s = .next (porstReset (loseQueued (putFeed .a false (putFeed .b false s)))))
  ∧ (∀ (k : Fin 15) b s, (tget 0 s.fld.viof k.val).getLsbD 1 = true →
    exec (.viofFault k b) s = .next (raise evViofFault
      ((bankPorts k.val s).foldl (fun s n => cutField n s) (putViof k.val (if b then 1 else 0) s))))
  ∧ (∀ (k : Fin 15) b s, (tget 0 s.fld.viof k.val).getLsbD 1 = false →
    exec (.viofFault k b) s = .next (putViof k.val (if b then 1 else 0) s))
  ∧ (∀ (k : Fin 15) b s, exec (.viofRecover k b) s
      = .next ((bankPorts k.val s).foldl (fun s n => startField n s) (putViof k.val (if b then 3 else 2) s)))
  ∧ (∀ i s, rimLock s i = true → s.glb.porst = true → exec (.rimClockUnlock i) s = .next (rimUnlock (putLock i false s)))
  ∧ (∀ i s, s.glb.porst = true → s.glb.noClock = false → s.glb.ref0 || s.glb.ref1 → rimLocked (putLock i true s) = true →
    exec (.rimClockRelock i) s = .next (rimStep 1 (clearAlarm 0 (putLock i true s))))
  ∧ (∀ i s, s.glb.noClock = true ∨ ¬(s.glb.ref0 || s.glb.ref1) → exec (.rimClockRelock i) s = .next s)
  ∧ (∀ n (x : BitVec 16) s, ∃ t, exec (.thermCross n x) s = .next t ∧ t.glb.therm = thermLevel t
      ∧ (n = .white → t.glb.tempW = x) ∧ (n = .black → t.glb.tempB = x) ∧ (n = .rim → t.glb.tempRim = x))
  ∧ (∀ r (n : Fin 4) s, n ≠ 0 → ∃ t, exec (.supplySelectorSwitch r n) s = .next t
      ∧ (r = .vcore → t.glb.selCore = n.val) ∧ (r = .vsram → t.glb.selSram = n.val) ∧ (r = .vio18 → t.glb.selIo = n.val))
  ∧ (∀ i s, loadReady s = true → exec (.configLoadItem i) s = .next (runItem s (loadItem s)))
  ∧ (∀ s d, s.sides.holder = some d → cfgVerified s d = false → loadItem s = some .noImage)
  ∧ (∀ p ib s, runItem s (some (.command p ib)) = commandItem p ib s)
  ∧ (∀ a v s, a % 4 = 0 → a < 0x2000000 → runItem s (some (.regWrite a v)) = nextItem (applyWrite .firmware a v s))
  ∧ (∀ a v s, a % 4 ≠ 0 ∨ 0x2000000 ≤ a → runItem s (some (.regWrite a v)) = nextItem s)
  ∧ (∀ s, runItem s (some (.endOfImage true)) = endLoad 3 s ∧ runItem s (some .noImage) = endLoad 3 s
      ∧ runItem s (some (.endOfImage false)) = endLoad 4 { s with glb := { s.glb with locked := true } }
      ∧ runItem s none = refuseItem s)
  ∧ (∀ s, regFld s .glbStartCfg [] 0 16 ≠ 0 → s.glb.acqFrom + regFld s .glbStartCfg [] 0 16 ≤ s.time.optime → s.glb.mode = 4 →
    exec .timeAcqTimeout s = .next (toMode (serviceMode s) false (raise evTacqTimeout s)))
  ∧ (∀ d s x y f, (sideOf s d).state = 1 → (sideOf s d).ready = false → bootImage (flashOf s d) x y = some f →
    exec (.sideBootEnd d .ready x y) s = .next (bootReady d (putFlash s d f)))
  ∧ (∀ d s x y c, (sideOf s d).state = 1 → (sideOf s d).ready = false →
    exec (.sideBootEnd d (.failed c) x y) s = .next (bootFailed d c s))
  ∧ (∀ d e s x y, (sideOf s d).state = 1 → (sideOf s d).ready = false → s.glb.mode = 1 →
    exec (.sideBootEnd d e x y true) s = .next (bypassFail s))

/-! ### Field ports and aggregation (R319 to R348) -/

/-- Reception, delivery, enqueue, the end of a transmission, a new setting, the CAN and PLCA states, and the runs of
aggregation functions. -/
def Obligations.FieldEventsComplete : Prop :=
  (∀ (n : FPort) s v x k u, v = leaveBus n.val s → x = fldOf v n.val → x.cfg.role ≠ 0 → x.busOff = false → x.rx = none → viofOk s n.val = true →
    k = (if x.cfg.role = 2 then 2080 else 1536) → s.fld.held + k ≤ regFld s .fldBufCfg [] 0 16 * 1024 → k ≤ sharedFree s →
    u = fwStart 4 (putFld v n.val { x with rx := some k, rxTs := tsNow s 0 }) →
    exec (.fieldFrameRxStart n) s = .next { u with fld := { u.fld with held := u.fld.held + k } })
  ∧ (∀ (n : FPort) s v x k, v = leaveBus n.val s → x = fldOf v n.val → x.cfg.role ≠ 0 → x.busOff = false → x.rx = none → viofOk s n.val = true →
    k = (if x.cfg.role = 2 then 2080 else 1536) → regFld s .fldBufCfg [] 0 16 * 1024 < s.fld.held + k →
    exec (.fieldFrameRxStart n) s = .next (raise evFldRxOvf (fldCount n.val 2 1 (putFld v n.val { x with rx := some 0 }))))
  ∧ (∀ (n : FPort) f s r, (fldOf s n.val).rx = some (r + 1) → (chanOf s 4).halted = false → viofOk s n.val = true → fmtTaken (fldOf s n.val).cfg f = true →
    exec (.fieldFrameRxEnd n (.good f)) s = .next (fieldMoved n.val f.data.length (fieldEnd n.val (r + 1) f s)))
  ∧ (∀ (n : FPort) f s r, (fldOf s n.val).rx = some (r + 1) → (chanOf s 4).halted = false → viofOk s n.val = true → fmtTaken (fldOf s n.val).cfg f = false →
    exec (.fieldFrameRxEnd n (.good f)) s = .next (startField n.val (fieldAbort n.val (r + 1) s)))
  ∧ (∀ (n : FPort) e s r, (fldOf s n.val).rx = some (r + 1) → (chanOf s 4).halted = false → viofOk s n.val = false →
    exec (.fieldFrameRxEnd n e) s = .next (fieldAbort n.val (r + 1) s))
  ∧ (∀ (n : FPort) s r, (fldOf s n.val).rx = some (r + 1) → (chanOf s 4).halted = false → viofOk s n.val = true →
    exec (.fieldFrameRxEnd n .error) s = .next (startField n.val (fieldAbort n.val (r + 1) s))
    ∧ exec (.fieldFrameRxEnd n .filtered) s = .next (fieldMoved n.val 0 (fieldDrop n.val 3 (r + 1) s)))
  ∧ (∀ (n : FPort) s b ts st r, (fldOf s n.val).sums = (b, ts, st) :: r → consuming s = true →
    exec (.fieldRxDeliver n) s = .next (consumeAt st (deliverRx (bitsN (setAt (fldOf s n.val).cfg 0 2) 10 2)
      (bitsN (setAt (fldOf s n.val).cfg 0 2) 0 10) (0x100 + n.val) b ts 0 false id id 33 b.length)
      (putFld s n.val { fldOf s n.val with sums := r })))
  ∧ (∀ d (n : FPort) num s f r, mayWrite d s = true → num = (fldOf s n.val).enq + 1 → (fldOf s n.val).enqWait = f :: r →
    f.num = num →
    exec (.fieldEnqueue n num d) s = .next (takeEnqueue n.val f (putFld s n.val { fldOf s n.val with enqWait := r })))
  ∧ (∀ d (n : FPort) num s, mayWrite d s = false → exec (.fieldEnqueue n num d) s = .next (gatedWrite d s))
  ∧ (∀ (n : FPort) s x f b, x = fldOf s n.val → x.bus = some b → x.txq[busIdx x]? = some f → x.busOff = false →
    viofOk s n.val = true → exec (.fieldTxEnd n true) s = .next (fieldSent n.val 6 f
      { x with txq := x.txq.eraseIdx (busIdx x), tec := x.tec - 1, link := true } s))
  ∧ (∀ (n : FPort) s x f b, x = fldOf s n.val → x.bus = some b → x.txq[busIdx x]? = some f → x.busOff = false →
    viofOk s n.val = true → x.cfg.role = 1 →
    exec (.fieldTxEnd n false) s = .next (fieldSent n.val 10 f { x with txq := x.txq.eraseIdx (busIdx x) } s))
  ∧ (∀ (n : FPort) s x f b, x = fldOf s n.val → x.bus = some b → x.txq[busIdx x]? = some f → x.busOff = false →
    viofOk s n.val = true → x.cfg.role ≠ 1 → errsOut x = true → setBit x.cfg 2 3 = false →
    exec (.fieldTxEnd n false) s = .next (goBusOff n.val (fldCount n.val 4 1 s)))
  ∧ (∀ (n : FPort) s x f b, x = fldOf s n.val → x.bus = some b → x.txq[busIdx x]? = some f → x.busOff = false →
    viofOk s n.val = true → x.cfg.role ≠ 1 → errsOut x = false → setBit x.cfg 2 3 = false →
    exec (.fieldTxEnd n false) s = .next (startField n.val (leaveBus n.val (putFld (fldCount n.val 4 1 s) n.val
      (passiveOf { x with tec := min 511 (x.tec + 8) })))))
  ∧ (∀ (n : FPort) s x y, x = fldOf s n.val → x.next = some y → x.rx = none → x.bus = none → y.role ≠ 0 →
    exec (.fieldSettingApply n) s = .next (startField n.val (putFld s n.val { x with
      cfg := y, next := none, link := false, busOff := false, passive := false, tec := 0, recErr := 0, csma := false,
      plcaOk := false, silent := s.glb.mode == 11 && bitN (setAt y 2 1) 2 })))
  ∧ (∀ (n : FPort) s x, x = fldOf s n.val → x.cfg.role = 2 → x.busOff = false → 248 ≤ x.tec →
    exec (.canBusOff n) s
      = .next (raise evFldBusoff (fldCount n.val 11 1 (leaveBus n.val (putFld s n.val
          { x with busOff := true, link := false, tec := min 511 (x.tec + 8) })))))
  ∧ (∀ (n : FPort) s, (fldOf s n.val).tec < 248 → exec (.canBusOff n) s = .next s)
  ∧ (∀ (n : FPort) s x, x = fldOf s n.val → x.cfg.role = 2 → x.busOff = true → setBit x.cfg 0x0C 5 = true →
    exec (.busoffRecovery n) s
      = .next (startField n.val (putFld s n.val { x with busOff := false, link := true, passive := false, tec := 0, recErr := 0 })))
  ∧ (∀ (n : FPort) s x, x = fldOf s n.val → plcaFollower x = true → x.csma = false →
    exec (.plcaBeaconLoss n) s = .next (raise evPlcaLost (putFld s n.val { x with csma := true, plcaOk := false })))
  ∧ (∀ (n : FPort) k s x, x = fldOf s n.val → plcaFollower x = true →
    exec (.plcaBeaconReturn n k) s = .next (putFld s n.val { x with csma := false, plcaOk := true, beaconCount := k }))
  ∧ (∀ (a : AggId) s t r u, consuming s = true → s.glb.mode ≠ 11 →
    takeFirst (fun t : Nat × Nat × Nat => trigMatch (seenAgg s a.val) t.1 t.2.1) s.jrn.triggers = some (t, r) →
    u = { s with jrn := { s.jrn with triggers := r } } → trigRoom s (trigAggs s t.1 t.2.1) = true →
    exec (.gatherTrigger a) s = .next ((trigAggs s t.1 t.2.1).foldl (fun s i => triggerRun t.2.2 i s) u))
  ∧ (∀ (a : AggId) s r u v, (aggOf s a.val).building = some r → dispatching s = true → (chanOf s 2).halted = false →
    u = countS .fldAggRuns [a.val] 0 1 (putAgg s a.val { aggOf s a.val with
      building := none, runCnt := runDone r (aggOf s a.val) }) →
    v = fwEnd 2 r.bytes.length (someBuilds u) u → (flowOf v r.flow).en = true →
    exec (.gatherBuildEnd a) s = .next (enterFlow r.flow .gather r.tag r.bytes v))
  ∧ (∀ (a : AggId) s, dispatching s = true → (chanOf s 3).halted = false →
    exec (.scatterWriteEnd a) s = .next (scatterEnd a.val s))

/-! ### Fabric and bypass (R409 to R434) -/

/-- Hellos, adjacencies, topology, routes, node IDs, relays and the bypass outputs. -/
def Obligations.FabricEventsComplete : Prop :=
  (∀ s u, fabRuns s = true → u = { s with fab := { s.fab with idAge := s.fab.idAge + 1 } } →
    exec .helloSend s = .next ((fabLinks u).foldl (fun s p => sendCtl p (helloFrame s p) s) u))
  ∧ (∀ (p : Port) x s u, fabRuns s = true → fabPort s p.val = true → (portOf s p.val).link = true →
    (tget {} s.fab.adjs p.val).up = (x.peerUid == Config.uid) →
    u = { s with fab := { s.fab with adjs := tput {} s.fab.adjs p.val (Adj.mk (x.peerUid == Config.uid) x.uid x.nodeId x.idState
      x.port x.interval (eventEl s)) } } →
    exec (.helloRx p x) s = .next (markConflicts (judgeId x.uid x.nodeId x.idState x.given u)))
  ∧ (∀ (p : Port) x s u v, fabRuns s = true → fabPort s p.val = true → (portOf s p.val).link = true →
    (tget {} s.fab.adjs p.val).up ≠ (x.peerUid == Config.uid) →
    u = { s with fab := { s.fab with adjs := tput {} s.fab.adjs p.val (Adj.mk (x.peerUid == Config.uid) x.uid x.nodeId x.idState
      x.port x.interval (eventEl s)) } } → v = { u with fab := { u.fab with topoDue := true } } →
    exec (.helloRx p x) s = .next (markConflicts (judgeId x.uid x.nodeId x.idState x.given (raiseS evAdjChange v))))
  ∧ (∀ (p : Port) x m s, consuming s = false →
    exec (.helloRx p x) s = .next (keepFab (.hello p.val x) s) ∧ exec (.topologyRx p m) s = .next (keepFab (.topo p.val m) s))
  ∧ (∀ (p : Port) s a, consuming s = true → a = tget {} s.fab.adjs p.val → a.heard + 3 * a.interval * 100000 ≤ elapsed s →
    exec (.adjacencyTimeout p) s = .next (adjLost p.val s))
  ∧ (∀ s u, fabRuns s = true → u = { s with fab := { s.fab with topoSeq := s.fab.topoSeq + 1, topoDue := false } } →
    exec .topologySend s = .next ((fabLinks u).foldl (fun s p => sendCtl p (topoFrame p (ownTopo s)) s) u))
  ∧ (∀ (p : Port) m s u, fabRuns s = true → fabPort s p.val = true → m.uid ≠ Config.uid →
    freshTopo s m = true →
    u = { s with fab := { s.fab with
      db := s.fab.db.filter (fun x => x.uid != m.uid) ++ [m], dbAt := s.fab.dbAt.filter (fun x => x.1 != m.uid) ++ [(m.uid, eventEl s)] } } →
    exec (.topologyRx p m) s = .next (markConflicts (endConflict (judgeId m.uid m.nodeId m.idState m.given (trimDb
      ((fabLinks u).foldl (fun s q => if q = p.val then s else sendCtl q (topoFrame q m) s) u))))))
  ∧ (∀ (p : Port) m x s, fabRuns s = true → fabPort s p.val = true → s.fab.db.find? (fun x => x.uid == m.uid) = some x →
    newer16 m.seq x.seq = false → exec (.topologyRx p m) s = .next s)
  ∧ (∀ uid s, consuming s = true → heardTopo s uid + 350000000 ≤ elapsed s → exec (.topologyAgeOut uid) s
      = .next (endConflict { s with fab := { s.fab with db := s.fab.db.filter (fun x => x.uid != uid),
                                                        dbAt := s.fab.dbAt.filter (fun x => x.1 != uid) } }))
  ∧ (∀ uid s, elapsed s < heardTopo s uid + 350000000 → exec (.topologyAgeOut uid) s = .next s)
  ∧ (∀ l s, fabRuns s = true → regFld s .fabCfg [] 1 1 = 0 → treesGood l s = true →
    exec (.routeCompute l) s = .next (pushSet [.routeTable (computeRoutes l s)] s))
  ∧ (∀ s en id, fabRuns s = true → fabNow s = (en, false, 1, id) → 4 ≤ s.fab.idAge → id ∉ dbIds s →
    exec .idClaim s = .next (setId 2 id s))
  ∧ (∀ (p : Port) (t : Cls) s x r, tget [] (gateOf s p.val).relay t.val = x :: r →
    x.since + regFld s .fabRelayCfg [] 16 16 * 1000 < elapsed s →
    exec (.relayHoldTimeout p t) s = .next (count .fabCntDrop [x.flow] 0 1
      (putGate s p.val { gateOf s p.val with relay := tput [] (gateOf s p.val).relay t.val r })))
  ∧ (∀ (k : Fin 8) s, exec (.bypassInsertTimeout k) s = .next (bypFailed k.val s))
  ∧ (∀ (k : Fin 8) s, exec (.bypassLinkLossTimeout k) s = .next (bypFailed k.val s))
  ∧ (∀ (k : Fin 8) s, exec (.bypassHoldoffEnd k) s
      = .next (bypDrive { s with fab := { s.fab with holdoff := s.fab.holdoff &&& ~~~(BitVec.ofNat 8 (2 ^ k.val)) } }))

/-! ### The event recorder (R461 to R481) -/

/-- The rim takes records in the order offered and writes them in the order taken; a failed bank is left; a reader's window
load shows what the store holds for it; the rebuild at a start ends. -/
def Obligations.RecorderEventsComplete : Prop :=
  (∀ s r rs, s.recd.offered = r :: rs →
    exec .recordTake s = .next (takeRecord r { s with recd := { s.recd with offered := rs } }))
  ∧ (∀ s r rs (n : Fin 5) u, s.recd.ready = true → s.recd.queue = r :: rs → s.recd.volatile = false →
    u = count .recBankStat [] 16 n.val s →
    exec (.recordWriteDone n) s = .next { u with recd := { u.recd with queue := rs, store := u.recd.store ++ [r] } })
  ∧ (∀ s r rs n, s.recd.ready = true → s.recd.queue = r :: rs → s.recd.volatile = true →
    exec (.recordWriteDone n) s = .next { s with recd := { s.recd with queue := rs, ring := s.recd.ring ++ [r] } })
  ∧ (∀ (c : Fin 5) s, c ≠ 0 → s.recd.fail0 = false →
    ∃ t, exec (.bankFail 0 c) s = .next t ∧ t.recd.fail0 = true ∧ t.evt.fw &&& evtBit evBankFail ≠ 0
      ∧ t.recd.volatile = (s.recd.volatile || s.recd.fail1))
  ∧ (∀ (r : Reader) v s, exec (.recCursorWrite r v) s = .next (readerWrite r .recCursor v s)
      ∧ exec (.recRdOldest r v) s = .next (readerWrite r .recRdCfg v s)
      ∧ exec (.recRdNewest r v) s = .next (readerWrite r .recRdCfg v s))
  ∧ (∀ (r : Reader) dm s u, (readerOf s r).busy = true → s.recd.ready = true → (readerOf s r).ask = 0 →
    u = (if (readerOf s r).source then s else markDamaged dm s) →
    ∃ t w, exec (.recWindowLoadEnd r dm) s = .next t
      ∧ w = fitWindow ((matching u (readerOf s r)).filter (fun x => atOrAfter x.seq (readerOf s r).cursor)) 4096
      ∧ (readerOf t r).busy = false ∧ (readerOf t r).count = w.length ∧ (readerOf t r).window = w.flatMap recBytes
      ∧ t.recd.store = u.recd.store ∧ t.recd.queue = s.recd.queue ∧ ∀ q, q ≠ r → readerOf t q = readerOf s q)
  ∧ (∀ s, s.recd.ready = false → s.recd.fail0 = false → s.recd.fail1 = false → s.recd.powerUp = none → s.jrn.summaries = [] →
    s.recd.asked = false →
    exec (.recorderRebuildEnd false false) s = .next (clearAlarm 5 { rimStep 2 { s with recd := { s.recd with ready := true } } with
      recd := { s.recd with ready := true, volatile := false } }))

/-! ### Numbered sets, events and registers (R65, R482 to R493, R526 to R538) -/

/-- RIM_SET_APPLY makes every write of the oldest committed set, in order, once (R65); a write of a side that does not hold the
Clock is discarded and counted for that side (R23, R45), but for the copy of a Lockstep partner; while the holder's gate is
closed its own write waits (R371, R373; log entry 115). -/
def Obligations.RimSetApplyComplete : Prop :=
  (∀ d s x r, s.jrn.sets = x :: r → committed s x.move = true → mayWrite d s = true → s.jrn.setTaken < x.num →
    exec (.rimSetApply d) s = .next (x.writes.foldl rimWrite
      { s with jrn := { s.jrn with sets := r, setTaken := max s.jrn.setTaken x.num } }))
  ∧ (∀ d s x r, s.jrn.sets = x :: r → committed s x.move = true → mayWrite d s = true → x.num ≤ s.jrn.setTaken →
    exec (.rimSetApply d) s = .next { s with jrn := { s.jrn with sets := r, setTaken := max s.jrn.setTaken x.num } })
  ∧ (∀ s, s.sides.holder ≠ some .white → s.sides.white.state ≠ 7 →
    exec (.rimSetApply .white) s = .next (count .sideGatedWr [] 0 1 s))
  ∧ (∀ s, s.sides.holder ≠ some .black → s.sides.black.state ≠ 7 →
    exec (.rimSetApply .black) s = .next (count .sideGatedWr [] 16 1 s))
  ∧ (∀ d s, s.sides.holder = some d → gateOpen s = false → exec (.rimSetApply d) s = .next s)
  ∧ (∀ d s, s.sides.holder = some (other d) → (sideOf s d).state = 7 → exec (.rimSetApply d) s = .next s)
  ∧ (∀ d s x r, s.jrn.sets = x :: r → committed s x.move = false → mayWrite d s = true → exec (.rimSetApply d) s = .next s)

/-- Event rows: route, coalescer, pin and test writes act as writes of their registers by the host; a coalescing time sends
what is pending; EVENT_N's pulse ends; a status bit is cleared in the reader's own copy. -/
def Obligations.EventRowsComplete : Prop :=
  (∀ (h n : Host) (x : Fin 256) v s, exec (.evtRouteWrite h n x v) s = .next (writeAt h.val .evtRoute [n.val, x.val] v s))
  ∧ (∀ (h n : Host) (x : Fin 64) v s, exec (.evtCoalWrite h n x v) s = .next (writeAt h.val .evtCoal [n.val, x.val] v s))
  ∧ (∀ (h : Host) (x : Fin 64) s, (vecOf s h.val x.val).pending ≠ 0 → coalOff s h.val x.val = false →
    exec (.coalesceTimeout h x) s = .next (sendDue h.val x.val s))
  ∧ (∀ (h : Host) v s, exec (.evtPinCfgWrite h v) s = .next (writeAt h.val .evtPinCfg [] v s))
  ∧ (∀ s, exec .eventNPulseEnd s = .next { s with evt := { s.evt with pulse := false } })
  ∧ (∀ (h : Host) v s, exec (.evtTestRaise h v) s = .next (writeAt h.val .evtTest [] v s))
  ∧ (∀ (h : Host) b (w : Fin 8) v s,
    exec (.evtStatClear (.host h) b w v) s = .next (writeAt h.val (if b then .evtPinStat else .evtStat) [w.val] v s))
  ∧ (∀ (w : Fin 8) v s, consuming s = true →
    exec (.evtStatClear .firmware false w v) s = .next (writeEvtStat .firmware w.val v s))

/-- Register rows: reads by a host or by firmware, writes of the CMD block, held reads, any write, and the side's taking
of a write at its Scoresheet place (R36, R37, R526 to R536). CMD_AQ_CFG_WRITE, HELD_SIDE_READ_COMPLETE and SIDE_REG_WRITE_APPLY
complete with their own effect: the host's admin queue pair exists under the sizes and the vector written (R48, R82); a held
read brings the register's value and waits no more, one that clears at its place in Scoresheet order; and the recorded write
acts on its register. -/
def Obligations.RegisterRowsComplete : Prop :=
  (∀ (h n : Host) v s, exec (.cmdAqCfgWrite h n v) s = .next (writeSide h.val .cmdAqCfg [n.val] v s))
  ∧ (∀ (r : Reader) (p : Port) (c : Fin 38) s,
    exec (.portCntLoRead r p c) s = .next (readerRead r (regAddr .portCntLo [p.val, c.val]) s))
  ∧ (∀ (r : Reader) a s, exec (.counterReadClear r a) s = .next (readerRead r a s))
  ∧ (∀ (r : Reader) a s, exec (.loWordRead r a) s = .next (readerRead r a s))
  ∧ (∀ (h : Host) a s, a < 0x2000000 →
    exec (.loWordRead (.host h) a .bar0 false) s = .next (putRead (.host h) 0 (accErr h.val 0 s)))
  ∧ (∀ (h : Host) a b s, exec (.loWordRead (.host h) a .bar2 b) s = .next (putRead (.host h) (w32 (pageWord s h.val a b)) s))
  ∧ (∀ (h : Host) a b s, exec (.loWordRead (.host h) a .bar4 b) s = .next (putRead (.host h) (w32 (msixWord s h.val a)) s))
  ∧ (∀ (h : Host) a s, exec (.heldSideReadComplete h a) s = .next (answerHeld h a s))
  ∧ (∀ (h : Host) a (e : BitVec 4) v s, s.jrn.full = false →
    exec (.registerWrite h a e v .bar0) s = .next (hostWrite h.val a e v s))
  ∧ (∀ (h : Host) a (e : BitVec 4) v s, s.jrn.full = false →
    exec (.registerWrite h a e v .bar2) s = .next (writePage h.val a e v s))
  ∧ (∀ (h : Host) a (e : BitVec 4) v s, s.jrn.full = false →
    exec (.registerWrite h a e v .bar4) s = .next (writeMsix h.val a e v s))
  ∧ (∀ (h : Host) a (e : BitVec 4) v b s, s.jrn.full = true → exec (.registerWrite h a e v b) s = .next s)
  ∧ (∀ (h : Host) a b s, exec (.loWordRead (.host h) a .config b) s = .next (putRead (.host h) (w32 (configWord s h.val a)) s))
  ∧ (∀ s, consuming s = true → exec .sideRegWriteApply s = .next (applyOldest s))
  ∧ (∀ (h : Host) v s, consuming s = true → s.jrn.full = false → s.jrn.regs = [] → (aqOf s h.val).en = false →
    bitN v.toNat 31 = true → aqCfgOk s h.val v = true →
    ∃ t x y, exec (.cmdAqCfgWrite h h v) s = .next t ∧ (aqOf t h.val).en = true ∧ (aqOf t h.val).cfgErr = false
      ∧ sqOf t h.val 0 = some x ∧ x.sizeLog2 = bitsN v.toNat 0 4 ∧ x.pi = 0 ∧ x.ai = 0xFFFF
      ∧ cqOf t h.val 0 = some y ∧ y.sizeLog2 = bitsN v.toNat 8 4 ∧ y.vec = bitsN v.toNat 16 6 ∧ y.wi = 0 ∧ y.ci = 0
      ∧ t.jrn.regs = [])
  ∧ (∀ (h : Host) a s, sidesAway s = true → (h.val, a) ∈ s.jrn.heldReads →
    exec (.heldSideReadComplete h a) s
      = .next (putRead (.host h) 0xFFFFFFFF { s with jrn := { s.jrn with heldReads := s.jrn.heldReads.erase (h.val, a) } }))
  ∧ (∀ (h : Host) a s, sidesAway s = false → sideAnswers s = true → s.jrn.regs = [] → (h.val, a) ∈ s.jrn.heldReads →
    exec (.heldSideReadComplete h a) s
      = .next (readAt (.host h) a { s with jrn := { s.jrn with heldReads := s.jrn.heldReads.erase (h.val, a) } }))
  ∧ (∀ (h : Host) a s r st, sidesAway s = false → sideAnswers s = true → s.jrn.regs = (.read h.val a, st) :: r →
    exec (.heldSideReadComplete h a) s = .next (readAt (.host h) a { s with jrn := { s.jrn with regs := r } }))
  ∧ (∀ (h : Host) a v e s r st, consuming s = true → s.jrn.regs = (.write h.val a v e, st) :: r →
    exec .sideRegWriteApply s = .next (consumeAt st (applyWrite (.host h) a v) { s with jrn := { s.jrn with regs := r } }))
  ∧ (∀ (h : Host) s r st, consuming s = true → s.jrn.regs = (.perst h.val, st) :: r →
    exec .sideRegWriteApply s = .next (consumeAt st (perstSide h.val) { s with jrn := { s.jrn with regs := r } }))
/-! ### What holds in every run -/

/-- After reset the mode is legal and both flashes' contents are in canonical form (R435). -/
def Obligations.InvAtReset : Prop := Inv State.reset

/-- Every step keeps it: GLB_MODE stays a mode of R435 whatever is commanded, and the flash contents stay in canonical
form. -/
def Obligations.InvKeptByEveryStep : Prop := ∀ s t : State, Inv s → step s = .next t → Inv t

/-! ### Rules over every admin command -/

/-- The status that a refusal reports is that of the first fault in the order of R62: no other fault that applies comes
before it. A command that its row does not name is refused as ST_BAD_OPCODE alone, and one that lacks permission as
ST_DENIED alone, whatever its parameters hold. -/
def Obligations.FirstFaultIsReported : Prop :=
  (∀ i s h p c b ib, HasTurn i s h p c b ib → findings c b (issuer h s) p ib (consumeAdmin h s) ≠ [] →
    ∃ t f d, exec i s = .next t ∧ f ∈ findings c b (issuer h s) p ib (consumeAdmin h s)
      ∧ (∀ g ∈ findings c b (issuer h s) p ib (consumeAdmin h s), g.before f = false)
      ∧ t.cmd.dueStatus = s.cmd.dueStatus ++ [d] ∧ d.host = h.val ∧ d.pkt.status = f.status ∧ d.pkt.tag = p.tag
      ∧ d.pkt.opcode = p.opcode ∧ d.pkt.result = 0 ∧ d.pkt.detail = w32 f.off)
  ∧ (∀ (c : CmdSpec) b (h : Host) p ib s, p.opcode.toNat ≠ c.opcode → findings c b (issuer h s) p ib s = [fOpcode])
  ∧ (∀ (c : CmdSpec) b (h : Host) p ib s, p.opcode.toNat = c.opcode →
    ((c.query = false ∧ regFld s .cmdPerm [h.val] (groupOf p) 1 = 0) ∨ (c.priv = true ∧ s.cmd.priv ≠ h.val)) →
    findings c b (issuer h s) p ib s = [fDenied])
  ∧ (∀ o o', fOpcode.before fDenied ∧ fDenied.before (fParam o) ∧ (fParam o).before (fRange o') ∧ (fRange o).before (fStateAt o')
    ∧ (fStateAt o).before (fBusyAt o') ∧ (fBusyAt o).before fStale ∧ fStale.before fNoResource ∧ fNoResource.before fBusError
    ∧ fBusError.before fIntegrity ∧ fIntegrity.before fAuth)

/-- A refused command is consumed and changes nothing but its refusal's own count and event: every register, table, queue,
generation, running command and counter other than CMD_AQ_CNT.REFUSED of its host stands, and the only numbered sets it
adds raise CMD_REFUSED and CMD_DENIED of its host (the start monitor, which commits no Move, raises them at once). A dry
run, whatever status it reports, changes nothing at all: not
CMD_AQ_CNT, not CMD_AQ_LAST, no event, no set (R64). Both still advance the admin SQ and give a status packet. What the command's
turn itself does comes first: at the last place of the host's admin CQ QUE_CQ_FULL is raised (R146), and an indirect buffer is
read over channel 0, which latches a fault and halts on a failed read, but for a dry run's, which changes nothing (R57, R64, R181);
no register, port, gate, flow, stream, side,
flash or time changes by it, and without a buffer and with a further place left nothing but the admin SQ moves. The command is judged
as of the time of its record, and the journal goes on from its last one (R60, R383). -/
def Obligations.RefusedCommandLeavesState : Prop :=
  (∀ i s h p c b ib f u, HasTurn i s h p c b ib → monitor s = false → dryRun p = false →
    worst (findings c b (issuer h s) p ib (consumeAdmin h s)) = some f → u = turnTaken c h p ib s →
    ∃ t d x, exec i s = .next t ∧ apart t = apart u ∧ t.evt = u.evt ∧ t.bus = u.bus
      ∧ apartSets t.jrn = apartSets { u.jrn with last := s.jrn.last } ∧ t.jrn.sets = u.jrn.sets ++ x
      ∧ (∀ y ∈ x, y.writes = [.raise (evCmdRefused h.val)] ∨ y.writes = [.raise (evCmdDenied h.val)])
      ∧ (∀ k, k ≠ ckey .cmdAqCnt [h.val] 16 → tget {} t.ctrs k = tget {} u.ctrs k)
      ∧ apartAdmin t.cmd = apartAdmin s.cmd ∧ t.cmd.waiting = s.cmd.waiting.eraseP (fun w => w.1 == h.val)
      ∧ (aqOf t h.val).head = (aqOf s h.val).head + 1 ∧ (∀ n, n ≠ h.val → aqOf t n = aqOf s n)
      ∧ (aqOf t h.val).lastStatus = f.status ∧ (aqOf t h.val).lastOpcode = p.opcode
      ∧ t.cmd.dueStatus = s.cmd.dueStatus ++ [d] ∧ d.host = h.val ∧ d.pkt.status = f.status)
  ∧ (∀ i s h p c b ib f u, HasTurn i s h p c b ib → monitor s = true → dryRun p = false →
    worst (findings c b (issuer h s) p ib (consumeAdmin h s)) = some f → u = turnTaken c h p ib s →
    ∃ t d, exec i s = .next t ∧ apart t = apart u ∧ t.jrn = { u.jrn with last := s.jrn.last } ∧ apartAdmin t.cmd = apartAdmin s.cmd
      ∧ t.cmd.waiting = s.cmd.waiting.eraseP (fun w => w.1 == h.val) ∧ (aqOf t h.val).head = (aqOf s h.val).head + 1
      ∧ (∀ n, n ≠ h.val → aqOf t n = aqOf s n) ∧ t.cmd.dueStatus = s.cmd.dueStatus ++ [d] ∧ d.host = h.val
      ∧ d.pkt.status = f.status)
  ∧ (∀ i s h p c b ib u, HasTurn i s h p c b ib → dryRun p = true → c.query = false → u = consumeAdmin h s →
    ∃ t d, exec i s = .next t ∧ apart t = apart u ∧ t.evt = u.evt ∧ t.bus = u.bus ∧ t.jrn = { u.jrn with last := s.jrn.last } ∧ t.ctrs = u.ctrs
      ∧ apartAdmin t.cmd = apartAdmin s.cmd ∧ t.cmd.waiting = s.cmd.waiting.eraseP (fun w => w.1 == h.val)
      ∧ aqOf t h.val = { aqOf s h.val with head := (aqOf s h.val).head + 1 } ∧ (∀ n, n ≠ h.val → aqOf t n = aqOf s n)
      ∧ t.cmd.dueStatus = s.cmd.dueStatus ++ [d] ∧ d.host = h.val
      ∧ d.pkt.status = ((worst (findings c b (issuer h s) p ib (consumeAdmin h s))).map (·.status)).getD stOk)
  ∧ (∀ c h p ib s u, u = turnTaken c h p ib s → u.regs = s.regs ∧ u.port = s.port ∧ u.gate = s.gate ∧ u.sch = s.sch
    ∧ u.strm = s.strm ∧ u.fld = s.fld ∧ u.fab = s.fab ∧ u.sides = s.sides ∧ u.glb = s.glb ∧ u.time = s.time ∧ u.ptp = s.ptp
    ∧ u.recd = s.recd ∧ u.flashW = s.flashW ∧ u.flashB = s.flashB ∧ u.que.ops = s.que.ops ∧ u.que.sqs = s.que.sqs
    ∧ apartAdmin u.cmd = apartAdmin s.cmd ∧ (∀ k, k ≠ 0 → tget {} u.dma.chans k = tget {} s.dma.chans k)
    ∧ (∀ k, k ≠ 0 → tget {} u.dma.pch k = tget {} s.dma.pch k))
  ∧ (∀ (c : CmdSpec) (h : Host) p ib s a, c.ibuf = none → (∀ x, cqOf s h.val 0 = some x → adminOut s h.val + 1 < cqPlaces x) →
    a = aqOf s h.val →
    turnTaken c h p ib s = putAq { s with jrn := { s.jrn with last := cmdStamp h.val s }, cmd := { s.cmd with
      waiting := s.cmd.waiting.eraseP (fun w => w.1 == h.val), shortInMove := s.cmd.shortInMove + 1 } } h.val
      { a with head := a.head + 1 })

/-- The generation of a command's group counts exactly one when a command that changes state ends with ST_OK, and no other
generation moves; a refused command, a query and a dry run leave every generation as it is; a class L command counts at
its end and only with ST_OK (R55). The count wraps, being a 32-bit word. -/
def Obligations.GenerationCounts : Prop :=
  (∀ i s h p c b ib g, HasTurn i s h p c b ib → monitor s = false →
    ∃ t, exec i s = .next t ∧ (tget 0 t.cmd.gens g = tget 0 s.cmd.gens g
      ∨ (g = groupOf p ∧ tget 0 t.cmd.gens g = tget 0 s.cmd.gens g + 1 ∧ c.query = false ∧ c.long = false ∧ dryRun p = false
        ∧ findings c b (issuer h s) p ib (consumeAdmin h s) = [])))
  ∧ (∀ (g k : Nat) result s r, tfind s.cmd.running g = some r →
    tget 0 (endLong g stOk result s).cmd.gens k = tget 0 s.cmd.gens k + (if r.changes = true ∧ k = groupOf r.pkt then 1 else 0))
  ∧ (∀ (g k : Nat) status result s, status ≠ stOk →
    tget 0 (endLong g status result s).cmd.gens k = tget 0 s.cmd.gens k)

/-- A query that no fault refuses changes nothing but the count of its own completion: no register, table, queue, event,
set or generation. -/
def Obligations.QueriesOnlyAnswer : Prop :=
  ∀ i s h p c b ib u, HasTurn i s h p c b ib → c.query = true → findings c b (issuer h s) p ib (consumeAdmin h s) = [] →
    u = turnTaken c h p ib s →
    ∃ t d, exec i s = .next t ∧ apart t = apart u ∧ t.evt = u.evt ∧ t.bus = u.bus ∧ t.jrn = { u.jrn with last := s.jrn.last }
      ∧ (∀ k, k ≠ ckey .cmdAqCnt [h.val] 0 → tget {} t.ctrs k = tget {} u.ctrs k)
      ∧ apartAdmin t.cmd = apartAdmin s.cmd ∧ t.cmd.dueStatus = s.cmd.dueStatus ++ [d] ∧ d.host = h.val
      ∧ d.pkt.status = stOk ∧ d.pkt.tag = p.tag ∧ d.pkt.gen = genOf s p

/-- A host may change state through a group only with that group's bit of its CMD_PERM: without it the command is refused
with ST_DENIED and changes nothing, and a query is never refused so. A host's queue commands name only that host's own
queues: no queue of another host is made, removed or changed by them. -/
def Obligations.HostNeedsPermissionAndOwnsQueues : Prop :=
  (∀ i s h p c b ib, HasTurn i s h p c b ib → p.opcode.toNat = c.opcode → c.query = false →
    regFld s .cmdPerm [h.val] (groupOf p) 1 = 0 →
    ∃ t d, exec i s = .next t ∧ apart t = apart (consumeAdmin h s) ∧ apartAdmin t.cmd = apartAdmin s.cmd
      ∧ t.cmd.dueStatus = s.cmd.dueStatus ++ [d] ∧ d.host = h.val ∧ d.pkt.status = stDenied)
  ∧ (∀ i s h p c b ib, HasTurn i s h p c b ib → p.opcode.toNat = c.opcode → c.query = true →
    ∃ t d, exec i s = .next t ∧ t.cmd.dueStatus = s.cmd.dueStatus ++ [d] ∧ d.host = h.val ∧ d.pkt.status ≠ stDenied)
  ∧ (∀ i s (h n : Host) p c b ib q, HasTurn i s h p c b ib → groupOf p = 0 → n ≠ h → q < 1024 →
    ∃ t, exec i s = .next t ∧ sqOf t n.val q = sqOf s n.val q ∧ cqOf t n.val q = cqOf s n.val q)

/-- A command's changes to rim blocks go through numbered sets: executing a command of groups 0x01 to 0x05, 0x07 or 0x08
leaves every port, gate, register, event, host link, side, both flashes, network time and the recorder as they are, and
adds to the sets that wait in this Move under new numbers (R65). Tables that the side owns may change: queues, flows, streams, slots. -/
def Obligations.CommandsReachRimThroughSets : Prop :=
  ∀ i s h p c b ib, HasTurn i s h p c b ib → monitor s = false → groupOf p ∈ [0, 1, 2, 3, 4, 6, 7] →
    ∃ t x, exec i s = .next t ∧ t.jrn.sets = s.jrn.sets ++ x ∧ (∀ y ∈ x, y.move = s.jrn.move ∧ s.jrn.setNo < y.num)
      ∧ t.gate = s.gate ∧ t.port = s.port ∧ t.regs = s.regs ∧ t.evt = s.evt ∧ t.pcie = s.pcie ∧ t.bus = s.bus
      ∧ t.sides = s.sides ∧ t.glb = s.glb ∧ t.flashW = s.flashW ∧ t.flashB = s.flashB ∧ t.time = s.time
      ∧ t.recd = s.recd ∧ t.fld = s.fld ∧ t.fab.routes = s.fab.routes ∧ t.fab.open_ = s.fab.open_

/-! ### Rings, registers, events, streams and gates -/

/-- PHASE (R122): a CQE or status packet that the part writes into the slot with index WI carries PHASE 1 when bit
SIZE_LOG2 of the index is 0 and 0 when it is 1; one round of the ring later it is the other, also where the index wraps. -/
def Obligations.PhaseBit : Prop :=
  (∀ (e : SideId) (h : Host) (c : QId) s x d rest, mayWrite e s = true → mayReport s h.val = true →
    takeFirst (fun d : DueCqe => d.host == h.val && d.cq == c.val) s.jrn.dueCqe = some (d, rest) → committed s d.move = true →
    cqOf s h.val c.val = some x → x.ovf = [] → ringFull x = false →
    ∃ t b l, exec (.cqeWrite h c e) s = .next t ∧ t.bus = s.bus ++ .cqe h.val (cqSlotAddr x x.wi) b {} :: l ∧ b.length = 32
      ∧ byteAt b 0x0B % 2 = if x.wi.getLsbD x.sizeLog2 then 0 else 1)
  ∧ (∀ (e : SideId) (h : Host) s x d rest, hostOk s h.val = true →
    takeFirst (fun d : DueStatus => d.host == h.val) s.cmd.dueStatus = some (d, rest) →
    (d.mon || (mayWrite e s && mayReport s h.val && committed s d.move)) = true → cqOf s h.val 0 = some x → x.ovf = [] → ringFull x = false →
    ∃ t b l, exec (.statusPacketWrite h e) s = .next t ∧ t.bus = s.bus ++ .cqe h.val (cqSlotAddr x x.wi) b {} :: l ∧ b.length = 32
      ∧ byteAt b 0x07 = if x.wi.getLsbD x.sizeLog2 then 0 else 1)
  ∧ (∀ (n : Nat) (i : Idx), n ≤ 15 → phaseOf n (i + BitVec.ofNat 16 (2 ^ n)) = 1 - phaseOf n i)
  ∧ (∀ (n : Nat) (i : Idx), n ≤ 15 → i.toNat % 2 ^ n ≠ 2 ^ n - 1 → phaseOf n (i + 1) = phaseOf n i)

/-- Each reader has one latch for each LO and HI pair (R531): a read of the LO word loads it with the HI word of the same
moment and leaves every other pair's; a read of the HI word returns it, with the word's own clearing bits; before any read it is
0. TIME_NOW's LO word also loads TIME_NOW_EPOCH, and TIME_PPS_IN's TIME_PPS_IN_EPOCH (R116). A port counter's LO word loads its HI
word with what the read returned and cleared (R277); low-power idle counts up to the read in both directions. -/
def Obligations.HighWordIsLatched : Prop :=
  (∀ r a g is s v, Names a g is → readNow r a s → pairVal s g is = some v →
    ∃ t, exec (.loWordRead r a) s = .next t ∧ tget 0 t.latch (latchKey r (a + 4)) = w32 (v / 2 ^ 32)
      ∧ (∀ k, k ≠ latchKey r (a + 4) → (g = .timeNowLo ∨ g = .timePpsInLo → k ≠ latchKey r (a + 8)) → tget 0 t.latch k = tget 0 s.latch k))
  ∧ (∀ r (p : Port) (c : Fin 38) s u, readNow r (regAddr .portCntLo [p.val, c.val]) s →
    u = (if c.val = 32 then accrueLpi p.val s else if c.val = 34 then accrueRxLpi p.val s else s) →
    ∃ t, exec (.portCntLoRead r p c) s = .next t
      ∧ tget 0 t.latch (latchKey r (regAddr .portCntLo [p.val, c.val] + 4))
        = w32 (rcVal u r .portCntLo [p.val, c.val] (0, 32) / 2 ^ 32)
      ∧ (∀ k, k ≠ latchKey r (regAddr .portCntLo [p.val, c.val] + 4) → tget 0 t.latch k = tget 0 s.latch k))
  ∧ (∀ r a g is s, Names a g is → readNow r a s → isLatched g = true →
    ∃ t, exec (.loWordRead r a) s = .next t ∧ t.latch = s.latch
      ∧ tget 0 t.rdData (whoOf r) = w32 ((tget 0 s.latch (latchKey r a)).toNat
        + ((rowOf g).rc.map (fun x => fieldAt (rcVal s r g is x) x.1 x.2)).sum))
  ∧ (∀ k, tget 0 State.reset.latch k = 0)

/-- Access masks (R535), for every register that R536 gives no rule of its own: a read without the block's RD bit returns 0
and clears nothing, a write without its WR bit is discarded, each counted in GLB_ACC_ERR.DENIED of the host and nothing
else; with the bit the access is carried out; firmware is not subject to the masks. -/
def Obligations.AccessMasks : Prop :=
  (∀ (h : Host) a g is s, Names a g is → ownRules g = false → permBit s h.val 0 a = false →
    exec (.counterReadClear (.host h) a) s = .next (putRead (.host h) 0 (accErr h.val 16 s))
      ∧ exec (.loWordRead (.host h) a) s = .next (putRead (.host h) 0 (accErr h.val 16 s)))
  ∧ (∀ (h : Host) a g is v s, Names a g is → ownRules g = false → permBit s h.val 16 a = false → s.jrn.full = false →
    exec (.registerWrite h a 0xF v) s = .next (accErr h.val 16 s))
  ∧ (∀ (h : Host) a g is s, Names a g is → ownRules g = false → permBit s h.val 0 a = true → sideAddr a = false →
    exec (.counterReadClear (.host h) a) s = .next (readAt (.host h) a s))
  ∧ (∀ (h : Host) a g is v s, Names a g is → ownRules g = false → permBit s h.val 16 a = true → sideAddr a = false → s.jrn.full = false →
    exec (.registerWrite h a 0xF v) s = .next (applyWrite (.host h) a v s))
  ∧ (∀ (h : Host) s, ∃ n, (accErr h.val 16 s) = { s with ctrs := n }
      ∧ tget {} n (ckey .glbAccErr [h.val] 16) = Five.add 16 1 (tget {} s.ctrs (ckey .glbAccErr [h.val] 16))
      ∧ (∀ k, k ≠ ckey .glbAccErr [h.val] 16 → tget {} n k = tget {} s.ctrs k)
      ∧ (putRead (.host h) 0 (accErr h.val 16 s)).ctrs = n
      ∧ tget 0 (putRead (.host h) 0 (accErr h.val 16 s)).rdData h.val = 0)
  ∧ (∀ a s, a < 0x2000000 → consuming s = true → exec (.counterReadClear .firmware a) s = .next (readAt .firmware a s))

/-- Six copies of the status bits (R485): a raise sets the source's bit in all six and leaves every other source's but that
of EVT_MSIX_BLOCKED; a host's clear clears its own copy alone, and any host may clear the EVENT_N copy, but for a write that waits at
full Scoresheets (R391). -/
def Obligations.StatusBitsHaveSixCopies : Prop :=
  (∀ src s, src < 256 →
    (raise src s).evt.h0.getLsbD src = true ∧ (raise src s).evt.h1.getLsbD src = true ∧ (raise src s).evt.h2.getLsbD src = true
    ∧ (raise src s).evt.h3.getLsbD src = true ∧ (raise src s).evt.fw.getLsbD src = true ∧ (raise src s).evt.pin.getLsbD src = true)
  ∧ (∀ src k s, src < 256 → k ≠ src → k ≠ 254 →
    (raise src s).evt.h0.getLsbD k = s.evt.h0.getLsbD k ∧ (raise src s).evt.h1.getLsbD k = s.evt.h1.getLsbD k
    ∧ (raise src s).evt.h2.getLsbD k = s.evt.h2.getLsbD k ∧ (raise src s).evt.h3.getLsbD k = s.evt.h3.getLsbD k
    ∧ (raise src s).evt.fw.getLsbD k = s.evt.fw.getLsbD k ∧ (raise src s).evt.pin.getLsbD k = s.evt.pin.getLsbD k)
  ∧ (∀ (h : Host) (w : Fin 8) v s, s.jrn.full = false → ∃ t, exec (.evtStatClear (.host h) false w v) s = .next t
    ∧ (∀ i : Nat, i < 256 → (evtCopy t.evt h.val).getLsbD i
        = ((evtCopy s.evt h.val).getLsbD i && !(decide (i / 32 = w.val) && v.getLsbD (i % 32))))
    ∧ (∀ n : Host, n ≠ h → evtCopy t.evt n.val = evtCopy s.evt n.val) ∧ t.evt.fw = s.evt.fw ∧ t.evt.pin = s.evt.pin
    ∧ t.regs = s.regs ∧ t.ctrs = s.ctrs ∧ t.jrn = s.jrn)
  ∧ (∀ (h : Host) (w : Fin 8) v s, permBit s h.val 16 (regAddr .evtPinStat [w.val]) = true → s.jrn.full = false →
    ∃ t, exec (.evtStatClear (.host h) true w v) s = .next t
    ∧ (∀ i : Nat, i < 256 → t.evt.pin.getLsbD i = (s.evt.pin.getLsbD i && !(decide (i / 32 = w.val) && v.getLsbD (i % 32))))
    ∧ (∀ n : Host, evtCopy t.evt n.val = evtCopy s.evt n.val) ∧ t.evt.fw = s.evt.fw
    ∧ t.regs = s.regs ∧ t.ctrs = s.ctrs ∧ t.jrn = s.jrn)

/-- The vector recovery function (R309): for every frame with an R-TAG that reaches an enabled function of ALG 0, the first
row of the rule's table that applies gives what becomes of the frame, of RECOV_SEQ, TAKE_ANY and the history; bit 0 of the
history is 1 after every frame that the table passes but an out-of-order one, whose own bit is set. -/
def Obligations.SequenceRecoveryVector : Prop :=
  ∀ r f el s q x, recOf s r = x → x.en = true → x.alg = false → rtagOf f = some q → frerDue x el = false →
    (∀ k, k ≠ r → recOf (recover r f el s).1 k = recOf s k)
    ∧ (x.takeAny = true → (recover r f el s).2 = true
      ∧ recOf (recover r f el s).1 r = { x with recov := q, hist := 1, takeAny := false, lastPass := el })
    ∧ (x.takeAny = false → (x.history : Int) ≤ |seqDiff q x.recov| → (recover r f el s).2 = false ∧ recOf (recover r f el s).1 r = x)
    ∧ (∀ d : Nat, x.takeAny = false → seqDiff q x.recov = d → 0 < d → d < x.history → x.history ≤ 128 →
      (recover r f el s).2 = true ∧ (recOf (recover r f el s).1 r).recov = q ∧ (recOf (recover r f el s).1 r).takeAny = false
      ∧ ∀ k, k < 128 → (recOf (recover r f el s).1 r).hist.getLsbD k
          = (decide (k < x.history) && (decide (k = 0) || (decide (d ≤ k) && x.hist.getLsbD (k - d)))))
    ∧ (∀ d : Nat, x.takeAny = false → seqDiff q x.recov = -(d : Int) → d < x.history → x.hist.getLsbD d = true →
      (recover r f el s).2 = false ∧ recOf (recover r f el s).1 r = x)
    ∧ (∀ d : Nat, x.takeAny = false → seqDiff q x.recov = -(d : Int) → d < x.history → x.history ≤ 128 → x.hist.getLsbD d = false →
      (recover r f el s).2 = true ∧ (recOf (recover r f el s).1 r).recov = x.recov
      ∧ ∀ k, k < 128 → (recOf (recover r f el s).1 r).hist.getLsbD k = (decide (k = d) || x.hist.getLsbD k))

/-- The rows of one port's gate tape, executor and MAC Merge verify leave every other port's gate and MAC, every queue,
flow, stream and field port, the registers, the mode and network time as they are, but for the time from which a stream is held once
one of its segments starts (R242). -/
def Obligations.GateRowsLeaveOtherPorts : Prop :=
  ∀ (p : Port) i s t, i ∈ [Instr.gateEntryStart p, .gateCycleEnd p, .tapeSwitch p, .gateHoldAdvance p, .executorFrameStart p,
      .mmVerifyResponse p, .mmVerifyTimeout p] → exec i s = .next t →
    (∀ k, k ≠ p.val → gateOf t k = gateOf s k ∧ portOf t k = portOf s k) ∧ t.que = s.que ∧ t.strm = s.strm
      ∧ t.fld = s.fld ∧ t.regs = s.regs ∧ t.glb = s.glb ∧ t.time = s.time ∧ t.sides = s.sides ∧ t.cmd = s.cmd
      ∧ { t.sch with flows := [] } = { s.sch with flows := [] }
      ∧ ∀ f, { flowOf t f with elems := [] } = { flowOf s f with elems := [] }
        ∧ (flowOf t f).elems.map (fun e => { e with since := 0 }) = (flowOf s f).elems.map (fun e => { e with since := 0 })
end

