-- ==== Sys2Proof/Laws/Tables.lean ====
section
/-!
SUPPORT. Laws/Tables.lean: read after write for the sparse tables, and the canonical form of a byte memory.
-/

namespace Sys2Proof.Machine

variable {α : Type}

@[simp] theorem tfind_tset_self (t : Tab α) (i : Nat) (x : α) : tfind (tset t i x) i = some x := by
  induction t with
  | nil => simp [tset, tfind]
  | cons a t ih =>
    obtain ⟨k, v⟩ := a
    simp only [tset]
    (repeat' split) <;> simp_all [tfind]

theorem tfind_tset_ne {t : Tab α} {i j : Nat} {x : α} (h : j ≠ i) : tfind (tset t i x) j = tfind t j := by
  induction t with
  | nil => simp [tset, tfind, Ne.symm h]
  | cons a t ih =>
    obtain ⟨k, v⟩ := a
    simp only [tset]
    split
    · simp [tfind, Ne.symm h]
    · split
      · next hk => subst hk; simp [tfind, Ne.symm h]
      · simp only [tfind]; split <;> simp [ih]

@[simp] theorem tfind_tdel_self (t : Tab α) (i : Nat) : tfind (tdel t i) i = none := by
  induction t with
  | nil => rfl
  | cons a t ih =>
    obtain ⟨k, v⟩ := a
    simp only [tdel]
    split
    · exact ih
    · next h => simp [tfind, h, ih]

theorem tfind_tdel_ne {t : Tab α} {i j : Nat} (h : j ≠ i) : tfind (tdel t i) j = tfind t j := by
  induction t with
  | nil => rfl
  | cons a t ih =>
    obtain ⟨k, v⟩ := a
    simp only [tdel]
    split
    · next hk => subst hk; simp [tfind, Ne.symm h, ih]
    · simp only [tfind]; split <;> simp [ih]

@[simp] theorem tget_tset_self (d : α) (t : Tab α) (i : Nat) (x : α) : tget d (tset t i x) i = x := by simp [tget]

theorem tget_tset_ne {d : α} {t : Tab α} {i j : Nat} {x : α} (h : j ≠ i) : tget d (tset t i x) j = tget d t j := by
  simp [tget, tfind_tset_ne h]

@[simp] theorem tget_tput_self [DecidableEq α] (d : α) (t : Tab α) (i : Nat) (x : α) : tget d (tput d t i x) i = x := by
  unfold tput; split
  · next h => simp [tget, h]
  · simp

theorem tget_tput_ne [DecidableEq α] {d : α} {t : Tab α} {i j : Nat} {x : α} (h : j ≠ i) :
    tget d (tput d t i x) j = tget d t j := by
  unfold tput; split
  · simp [tget, tfind_tdel_ne h]
  · exact tget_tset_ne h

@[simp] theorem tget_nil (d : α) (i : Nat) : tget d [] i = d := rfl

/-! ### Byte memories -/

@[simp] theorem readCell_writeCell_self (d b : Byte) (m : List Host.Cell) (a : Nat) : readCell d (writeCell d m a b) a = b :=
  tget_tput_self d m a b

theorem readCell_writeCell_ne {d b : Byte} {m : List Host.Cell} {a k : Nat} (h : k ≠ a) :
    readCell d (writeCell d m a b) k = readCell d m k := tget_tput_ne h

/-- The first key of a canonical memory lies above `a`, if it has one. -/
def above (a : Nat) : List Host.Cell → Prop
  | [] => True
  | x :: _ => a < x.1

theorem wf_cons {d : Byte} {x : Host.Cell} {t : List Host.Cell} :
    Memory.wf d (x :: t) = true ↔ x.2 ≠ d ∧ above x.1 t ∧ Memory.wf d t = true := by
  cases t <;> simp [Memory.wf, above, and_assoc, and_comm, and_left_comm]

theorem tset_wf {d b : Byte} (hb : b ≠ d) (m : List Host.Cell) (a : Nat) (h : Memory.wf d m = true) :
    Memory.wf d (tset m a b) = true ∧ ∀ k, k < a → above k m → above k (tset m a b) := by
  induction m with
  | nil => exact ⟨by simp [tset, hb, Memory.wf], fun k hk _ => hk⟩
  | cons x t ih =>
    obtain ⟨n, v⟩ := x
    obtain ⟨h1, h2, h3⟩ := wf_cons.mp h
    obtain ⟨i1, i2⟩ := ih h3
    simp only [tset]
    split
    · next c => exact ⟨wf_cons.mpr ⟨hb, c, h⟩, fun k hk _ => hk⟩
    · split
      · next c e => subst e; exact ⟨wf_cons.mpr ⟨hb, h2, h3⟩, fun k hk _ => hk⟩
      · next c e => exact ⟨wf_cons.mpr ⟨h1, i2 n (by omega) h2, i1⟩, fun k _ hk => hk⟩

theorem tdel_wf {d : Byte} (m : List Host.Cell) (a : Nat) (h : Memory.wf d m = true) :
    Memory.wf d (tdel m a) = true ∧ ∀ k, above k m → above k (tdel m a) := by
  induction m with
  | nil => exact ⟨h, fun _ _ => trivial⟩
  | cons x t ih =>
    obtain ⟨n, v⟩ := x
    obtain ⟨h1, h2, h3⟩ := wf_cons.mp h
    obtain ⟨i1, i2⟩ := ih h3
    simp only [tdel]
    split
    · refine ⟨i1, fun k hk => i2 k ?_⟩
      cases t with
      | nil => trivial
      | cons y u => exact Nat.lt_trans hk h2
    · exact ⟨wf_cons.mpr ⟨h1, i2 n h2, i1⟩, fun k hk => hk⟩

/-- Writing a byte keeps the canonical form. -/
theorem writeCell_wf {d : Byte} {m : List Host.Cell} (a : Nat) (b : Byte) (h : Memory.wf d m = true) :
    Memory.wf d (writeCell d m a b) = true := by
  unfold writeCell tput; split
  · exact (tdel_wf m a h).1
  · next hb => exact (tset_wf hb m a h).1

/-- Writing consecutive bytes keeps the canonical form. -/
theorem writeCells_wf {d : Byte} {m : List Host.Cell} (a : Nat) (l : List Byte) (h : Memory.wf d m = true) :
    Memory.wf d (writeCells d m a l) = true := by
  induction l generalizing m a with
  | nil => exact h
  | cons b bs ih => exact ih (a + 1) (writeCell_wf a b h)

/-- Bytes outside the written range read as before. -/
theorem readCell_writeCells_out {d : Byte} {m : List Host.Cell} {a k : Nat} {l : List Byte} (h : k < a ∨ a + l.length ≤ k) :
    readCell d (writeCells d m a l) k = readCell d m k := by
  induction l generalizing m a with
  | nil => rfl
  | cons b bs ih =>
    have h' : k ≠ a ∧ (k < a + 1 ∨ a + 1 + bs.length ≤ k) := by simp at h; omega
    exact (ih h'.2).trans (readCell_writeCell_ne h'.1)

/-- The flash of the part as it is delivered is in canonical form. -/
theorem reset_flash_wf : flashWf State.reset.flashW = true ∧ flashWf State.reset.flashB = true := by decide

end Sys2Proof.Machine
end

