-- ==== Sys2Proof/Laws/State.lean ====
section
/-!
SUPPORT. Laws/State.lean: for each named update of State, one lemma per field that it leaves (the queue, the mode and the
flashes: Laws/FramePending.lean, FrameMode.lean, FrameFlash.lean), and read after write for each accessor.
-/

namespace Sys2Proof.Machine

@[simp] theorem regStore_ctrs (s : State) (g : Reg) (is : List Nat) (v : W32) : (regStore s g is v).ctrs = s.ctrs := rfl
@[simp] theorem regStore_snap (s : State) (g : Reg) (is : List Nat) (v : W32) : (regStore s g is v).snap = s.snap := rfl
@[simp] theorem regStore_fwRead (s : State) (g : Reg) (is : List Nat) (v : W32) : (regStore s g is v).fwRead = s.fwRead := rfl
@[simp] theorem regStore_latch (s : State) (g : Reg) (is : List Nat) (v : W32) : (regStore s g is v).latch = s.latch := rfl
@[simp] theorem regStore_rdData (s : State) (g : Reg) (is : List Nat) (v : W32) : (regStore s g is v).rdData = s.rdData := rfl
@[simp] theorem regStore_glb (s : State) (g : Reg) (is : List Nat) (v : W32) : (regStore s g is v).glb = s.glb := rfl
@[simp] theorem regStore_time (s : State) (g : Reg) (is : List Nat) (v : W32) : (regStore s g is v).time = s.time := rfl
@[simp] theorem regStore_ptp (s : State) (g : Reg) (is : List Nat) (v : W32) : (regStore s g is v).ptp = s.ptp := rfl
@[simp] theorem regStore_cmd (s : State) (g : Reg) (is : List Nat) (v : W32) : (regStore s g is v).cmd = s.cmd := rfl
@[simp] theorem regStore_que (s : State) (g : Reg) (is : List Nat) (v : W32) : (regStore s g is v).que = s.que := rfl
@[simp] theorem regStore_dma (s : State) (g : Reg) (is : List Nat) (v : W32) : (regStore s g is v).dma = s.dma := rfl
@[simp] theorem regStore_sch (s : State) (g : Reg) (is : List Nat) (v : W32) : (regStore s g is v).sch = s.sch := rfl
@[simp] theorem regStore_gate (s : State) (g : Reg) (is : List Nat) (v : W32) : (regStore s g is v).gate = s.gate := rfl
@[simp] theorem regStore_port (s : State) (g : Reg) (is : List Nat) (v : W32) : (regStore s g is v).port = s.port := rfl
@[simp] theorem regStore_strm (s : State) (g : Reg) (is : List Nat) (v : W32) : (regStore s g is v).strm = s.strm := rfl
@[simp] theorem regStore_fld (s : State) (g : Reg) (is : List Nat) (v : W32) : (regStore s g is v).fld = s.fld := rfl
@[simp] theorem regStore_sides (s : State) (g : Reg) (is : List Nat) (v : W32) : (regStore s g is v).sides = s.sides := rfl
@[simp] theorem regStore_jrn (s : State) (g : Reg) (is : List Nat) (v : W32) : (regStore s g is v).jrn = s.jrn := rfl
@[simp] theorem regStore_fab (s : State) (g : Reg) (is : List Nat) (v : W32) : (regStore s g is v).fab = s.fab := rfl
@[simp] theorem regStore_recd (s : State) (g : Reg) (is : List Nat) (v : W32) : (regStore s g is v).recd = s.recd := rfl
@[simp] theorem regStore_evt (s : State) (g : Reg) (is : List Nat) (v : W32) : (regStore s g is v).evt = s.evt := rfl
@[simp] theorem regStore_pcie (s : State) (g : Reg) (is : List Nat) (v : W32) : (regStore s g is v).pcie = s.pcie := rfl
@[simp] theorem regStore_ddrW (s : State) (g : Reg) (is : List Nat) (v : W32) : (regStore s g is v).ddrW = s.ddrW := rfl
@[simp] theorem regStore_ddrB (s : State) (g : Reg) (is : List Nat) (v : W32) : (regStore s g is v).ddrB = s.ddrB := rfl
@[simp] theorem regStore_txHeld (s : State) (g : Reg) (is : List Nat) (v : W32) : (regStore s g is v).txHeld = s.txHeld := rfl
@[simp] theorem regStore_free (s : State) (g : Reg) (is : List Nat) (v : W32) : (regStore s g is v).free = s.free := rfl
@[simp] theorem regStore_bus (s : State) (g : Reg) (is : List Nat) (v : W32) : (regStore s g is v).bus = s.bus := rfl

@[simp] theorem bumpW_regs (key w n : Nat) (s : State) : (bumpW key w n s).regs = s.regs := rfl
@[simp] theorem bumpW_snap (key w n : Nat) (s : State) : (bumpW key w n s).snap = s.snap := rfl
@[simp] theorem bumpW_fwRead (key w n : Nat) (s : State) : (bumpW key w n s).fwRead = s.fwRead := rfl
@[simp] theorem bumpW_latch (key w n : Nat) (s : State) : (bumpW key w n s).latch = s.latch := rfl
@[simp] theorem bumpW_rdData (key w n : Nat) (s : State) : (bumpW key w n s).rdData = s.rdData := rfl
@[simp] theorem bumpW_glb (key w n : Nat) (s : State) : (bumpW key w n s).glb = s.glb := rfl
@[simp] theorem bumpW_time (key w n : Nat) (s : State) : (bumpW key w n s).time = s.time := rfl
@[simp] theorem bumpW_ptp (key w n : Nat) (s : State) : (bumpW key w n s).ptp = s.ptp := rfl
@[simp] theorem bumpW_cmd (key w n : Nat) (s : State) : (bumpW key w n s).cmd = s.cmd := rfl
@[simp] theorem bumpW_que (key w n : Nat) (s : State) : (bumpW key w n s).que = s.que := rfl
@[simp] theorem bumpW_dma (key w n : Nat) (s : State) : (bumpW key w n s).dma = s.dma := rfl
@[simp] theorem bumpW_sch (key w n : Nat) (s : State) : (bumpW key w n s).sch = s.sch := rfl
@[simp] theorem bumpW_gate (key w n : Nat) (s : State) : (bumpW key w n s).gate = s.gate := rfl
@[simp] theorem bumpW_port (key w n : Nat) (s : State) : (bumpW key w n s).port = s.port := rfl
@[simp] theorem bumpW_strm (key w n : Nat) (s : State) : (bumpW key w n s).strm = s.strm := rfl
@[simp] theorem bumpW_fld (key w n : Nat) (s : State) : (bumpW key w n s).fld = s.fld := rfl
@[simp] theorem bumpW_sides (key w n : Nat) (s : State) : (bumpW key w n s).sides = s.sides := rfl
@[simp] theorem bumpW_jrn (key w n : Nat) (s : State) : (bumpW key w n s).jrn = s.jrn := rfl
@[simp] theorem bumpW_fab (key w n : Nat) (s : State) : (bumpW key w n s).fab = s.fab := rfl
@[simp] theorem bumpW_recd (key w n : Nat) (s : State) : (bumpW key w n s).recd = s.recd := rfl
@[simp] theorem bumpW_evt (key w n : Nat) (s : State) : (bumpW key w n s).evt = s.evt := rfl
@[simp] theorem bumpW_pcie (key w n : Nat) (s : State) : (bumpW key w n s).pcie = s.pcie := rfl
@[simp] theorem bumpW_ddrW (key w n : Nat) (s : State) : (bumpW key w n s).ddrW = s.ddrW := rfl
@[simp] theorem bumpW_ddrB (key w n : Nat) (s : State) : (bumpW key w n s).ddrB = s.ddrB := rfl
@[simp] theorem bumpW_txHeld (key w n : Nat) (s : State) : (bumpW key w n s).txHeld = s.txHeld := rfl
@[simp] theorem bumpW_free (key w n : Nat) (s : State) : (bumpW key w n s).free = s.free := rfl
@[simp] theorem bumpW_bus (key w n : Nat) (s : State) : (bumpW key w n s).bus = s.bus := rfl

@[simp] theorem count_regs (g : Reg) (is : List Nat) (lo n : Nat) (s : State) : (count g is lo n s).regs = s.regs := rfl
@[simp] theorem count_snap (g : Reg) (is : List Nat) (lo n : Nat) (s : State) : (count g is lo n s).snap = s.snap := rfl
@[simp] theorem count_fwRead (g : Reg) (is : List Nat) (lo n : Nat) (s : State) : (count g is lo n s).fwRead = s.fwRead := rfl
@[simp] theorem count_latch (g : Reg) (is : List Nat) (lo n : Nat) (s : State) : (count g is lo n s).latch = s.latch := rfl
@[simp] theorem count_rdData (g : Reg) (is : List Nat) (lo n : Nat) (s : State) : (count g is lo n s).rdData = s.rdData := rfl
@[simp] theorem count_glb (g : Reg) (is : List Nat) (lo n : Nat) (s : State) : (count g is lo n s).glb = s.glb := rfl
@[simp] theorem count_time (g : Reg) (is : List Nat) (lo n : Nat) (s : State) : (count g is lo n s).time = s.time := rfl
@[simp] theorem count_ptp (g : Reg) (is : List Nat) (lo n : Nat) (s : State) : (count g is lo n s).ptp = s.ptp := rfl
@[simp] theorem count_cmd (g : Reg) (is : List Nat) (lo n : Nat) (s : State) : (count g is lo n s).cmd = s.cmd := rfl
@[simp] theorem count_que (g : Reg) (is : List Nat) (lo n : Nat) (s : State) : (count g is lo n s).que = s.que := rfl
@[simp] theorem count_dma (g : Reg) (is : List Nat) (lo n : Nat) (s : State) : (count g is lo n s).dma = s.dma := rfl
@[simp] theorem count_sch (g : Reg) (is : List Nat) (lo n : Nat) (s : State) : (count g is lo n s).sch = s.sch := rfl
@[simp] theorem count_gate (g : Reg) (is : List Nat) (lo n : Nat) (s : State) : (count g is lo n s).gate = s.gate := rfl
@[simp] theorem count_port (g : Reg) (is : List Nat) (lo n : Nat) (s : State) : (count g is lo n s).port = s.port := rfl
@[simp] theorem count_strm (g : Reg) (is : List Nat) (lo n : Nat) (s : State) : (count g is lo n s).strm = s.strm := rfl
@[simp] theorem count_fld (g : Reg) (is : List Nat) (lo n : Nat) (s : State) : (count g is lo n s).fld = s.fld := rfl
@[simp] theorem count_sides (g : Reg) (is : List Nat) (lo n : Nat) (s : State) : (count g is lo n s).sides = s.sides := rfl
@[simp] theorem count_jrn (g : Reg) (is : List Nat) (lo n : Nat) (s : State) : (count g is lo n s).jrn = s.jrn := rfl
@[simp] theorem count_fab (g : Reg) (is : List Nat) (lo n : Nat) (s : State) : (count g is lo n s).fab = s.fab := rfl
@[simp] theorem count_recd (g : Reg) (is : List Nat) (lo n : Nat) (s : State) : (count g is lo n s).recd = s.recd := rfl
@[simp] theorem count_evt (g : Reg) (is : List Nat) (lo n : Nat) (s : State) : (count g is lo n s).evt = s.evt := rfl
@[simp] theorem count_pcie (g : Reg) (is : List Nat) (lo n : Nat) (s : State) : (count g is lo n s).pcie = s.pcie := rfl
@[simp] theorem count_ddrW (g : Reg) (is : List Nat) (lo n : Nat) (s : State) : (count g is lo n s).ddrW = s.ddrW := rfl
@[simp] theorem count_ddrB (g : Reg) (is : List Nat) (lo n : Nat) (s : State) : (count g is lo n s).ddrB = s.ddrB := rfl
@[simp] theorem count_txHeld (g : Reg) (is : List Nat) (lo n : Nat) (s : State) : (count g is lo n s).txHeld = s.txHeld := rfl
@[simp] theorem count_free (g : Reg) (is : List Nat) (lo n : Nat) (s : State) : (count g is lo n s).free = s.free := rfl
@[simp] theorem count_bus (g : Reg) (is : List Nat) (lo n : Nat) (s : State) : (count g is lo n s).bus = s.bus := rfl

@[simp] theorem countMax_regs (g : Reg) (is : List Nat) (lo n : Nat) (s : State) : (countMax g is lo n s).regs = s.regs := rfl
@[simp] theorem countMax_snap (g : Reg) (is : List Nat) (lo n : Nat) (s : State) : (countMax g is lo n s).snap = s.snap := rfl
@[simp] theorem countMax_fwRead (g : Reg) (is : List Nat) (lo n : Nat) (s : State) : (countMax g is lo n s).fwRead = s.fwRead := rfl
@[simp] theorem countMax_latch (g : Reg) (is : List Nat) (lo n : Nat) (s : State) : (countMax g is lo n s).latch = s.latch := rfl
@[simp] theorem countMax_rdData (g : Reg) (is : List Nat) (lo n : Nat) (s : State) : (countMax g is lo n s).rdData = s.rdData := rfl
@[simp] theorem countMax_glb (g : Reg) (is : List Nat) (lo n : Nat) (s : State) : (countMax g is lo n s).glb = s.glb := rfl
@[simp] theorem countMax_time (g : Reg) (is : List Nat) (lo n : Nat) (s : State) : (countMax g is lo n s).time = s.time := rfl
@[simp] theorem countMax_ptp (g : Reg) (is : List Nat) (lo n : Nat) (s : State) : (countMax g is lo n s).ptp = s.ptp := rfl
@[simp] theorem countMax_cmd (g : Reg) (is : List Nat) (lo n : Nat) (s : State) : (countMax g is lo n s).cmd = s.cmd := rfl
@[simp] theorem countMax_que (g : Reg) (is : List Nat) (lo n : Nat) (s : State) : (countMax g is lo n s).que = s.que := rfl
@[simp] theorem countMax_dma (g : Reg) (is : List Nat) (lo n : Nat) (s : State) : (countMax g is lo n s).dma = s.dma := rfl
@[simp] theorem countMax_sch (g : Reg) (is : List Nat) (lo n : Nat) (s : State) : (countMax g is lo n s).sch = s.sch := rfl
@[simp] theorem countMax_gate (g : Reg) (is : List Nat) (lo n : Nat) (s : State) : (countMax g is lo n s).gate = s.gate := rfl
@[simp] theorem countMax_port (g : Reg) (is : List Nat) (lo n : Nat) (s : State) : (countMax g is lo n s).port = s.port := rfl
@[simp] theorem countMax_strm (g : Reg) (is : List Nat) (lo n : Nat) (s : State) : (countMax g is lo n s).strm = s.strm := rfl
@[simp] theorem countMax_fld (g : Reg) (is : List Nat) (lo n : Nat) (s : State) : (countMax g is lo n s).fld = s.fld := rfl
@[simp] theorem countMax_sides (g : Reg) (is : List Nat) (lo n : Nat) (s : State) : (countMax g is lo n s).sides = s.sides := rfl
@[simp] theorem countMax_jrn (g : Reg) (is : List Nat) (lo n : Nat) (s : State) : (countMax g is lo n s).jrn = s.jrn := rfl
@[simp] theorem countMax_fab (g : Reg) (is : List Nat) (lo n : Nat) (s : State) : (countMax g is lo n s).fab = s.fab := rfl
@[simp] theorem countMax_recd (g : Reg) (is : List Nat) (lo n : Nat) (s : State) : (countMax g is lo n s).recd = s.recd := rfl
@[simp] theorem countMax_evt (g : Reg) (is : List Nat) (lo n : Nat) (s : State) : (countMax g is lo n s).evt = s.evt := rfl
@[simp] theorem countMax_pcie (g : Reg) (is : List Nat) (lo n : Nat) (s : State) : (countMax g is lo n s).pcie = s.pcie := rfl
@[simp] theorem countMax_ddrW (g : Reg) (is : List Nat) (lo n : Nat) (s : State) : (countMax g is lo n s).ddrW = s.ddrW := rfl
@[simp] theorem countMax_ddrB (g : Reg) (is : List Nat) (lo n : Nat) (s : State) : (countMax g is lo n s).ddrB = s.ddrB := rfl
@[simp] theorem countMax_txHeld (g : Reg) (is : List Nat) (lo n : Nat) (s : State) : (countMax g is lo n s).txHeld = s.txHeld := rfl
@[simp] theorem countMax_free (g : Reg) (is : List Nat) (lo n : Nat) (s : State) : (countMax g is lo n s).free = s.free := rfl
@[simp] theorem countMax_bus (g : Reg) (is : List Nat) (lo n : Nat) (s : State) : (countMax g is lo n s).bus = s.bus := rfl

@[simp] theorem portCount_regs (p c n : Nat) (s : State) : (portCount p c n s).regs = s.regs := rfl
@[simp] theorem portCount_snap (p c n : Nat) (s : State) : (portCount p c n s).snap = s.snap := rfl
@[simp] theorem portCount_fwRead (p c n : Nat) (s : State) : (portCount p c n s).fwRead = s.fwRead := rfl
@[simp] theorem portCount_latch (p c n : Nat) (s : State) : (portCount p c n s).latch = s.latch := rfl
@[simp] theorem portCount_rdData (p c n : Nat) (s : State) : (portCount p c n s).rdData = s.rdData := rfl
@[simp] theorem portCount_glb (p c n : Nat) (s : State) : (portCount p c n s).glb = s.glb := rfl
@[simp] theorem portCount_time (p c n : Nat) (s : State) : (portCount p c n s).time = s.time := rfl
@[simp] theorem portCount_ptp (p c n : Nat) (s : State) : (portCount p c n s).ptp = s.ptp := rfl
@[simp] theorem portCount_cmd (p c n : Nat) (s : State) : (portCount p c n s).cmd = s.cmd := rfl
@[simp] theorem portCount_que (p c n : Nat) (s : State) : (portCount p c n s).que = s.que := rfl
@[simp] theorem portCount_dma (p c n : Nat) (s : State) : (portCount p c n s).dma = s.dma := rfl
@[simp] theorem portCount_sch (p c n : Nat) (s : State) : (portCount p c n s).sch = s.sch := rfl
@[simp] theorem portCount_gate (p c n : Nat) (s : State) : (portCount p c n s).gate = s.gate := rfl
@[simp] theorem portCount_port (p c n : Nat) (s : State) : (portCount p c n s).port = s.port := rfl
@[simp] theorem portCount_strm (p c n : Nat) (s : State) : (portCount p c n s).strm = s.strm := rfl
@[simp] theorem portCount_fld (p c n : Nat) (s : State) : (portCount p c n s).fld = s.fld := rfl
@[simp] theorem portCount_sides (p c n : Nat) (s : State) : (portCount p c n s).sides = s.sides := rfl
@[simp] theorem portCount_jrn (p c n : Nat) (s : State) : (portCount p c n s).jrn = s.jrn := rfl
@[simp] theorem portCount_fab (p c n : Nat) (s : State) : (portCount p c n s).fab = s.fab := rfl
@[simp] theorem portCount_recd (p c n : Nat) (s : State) : (portCount p c n s).recd = s.recd := rfl
@[simp] theorem portCount_evt (p c n : Nat) (s : State) : (portCount p c n s).evt = s.evt := rfl
@[simp] theorem portCount_pcie (p c n : Nat) (s : State) : (portCount p c n s).pcie = s.pcie := rfl
@[simp] theorem portCount_ddrW (p c n : Nat) (s : State) : (portCount p c n s).ddrW = s.ddrW := rfl
@[simp] theorem portCount_ddrB (p c n : Nat) (s : State) : (portCount p c n s).ddrB = s.ddrB := rfl
@[simp] theorem portCount_txHeld (p c n : Nat) (s : State) : (portCount p c n s).txHeld = s.txHeld := rfl
@[simp] theorem portCount_free (p c n : Nat) (s : State) : (portCount p c n s).free = s.free := rfl
@[simp] theorem portCount_bus (p c n : Nat) (s : State) : (portCount p c n s).bus = s.bus := rfl

@[simp] theorem putSide_regs (s : State) (d : SideId) (r : SideRec) : (putSide s d r).regs = s.regs := by cases d <;> rfl
@[simp] theorem putSide_ctrs (s : State) (d : SideId) (r : SideRec) : (putSide s d r).ctrs = s.ctrs := by cases d <;> rfl
@[simp] theorem putSide_snap (s : State) (d : SideId) (r : SideRec) : (putSide s d r).snap = s.snap := by cases d <;> rfl
@[simp] theorem putSide_fwRead (s : State) (d : SideId) (r : SideRec) : (putSide s d r).fwRead = s.fwRead := by cases d <;> rfl
@[simp] theorem putSide_latch (s : State) (d : SideId) (r : SideRec) : (putSide s d r).latch = s.latch := by cases d <;> rfl
@[simp] theorem putSide_rdData (s : State) (d : SideId) (r : SideRec) : (putSide s d r).rdData = s.rdData := by cases d <;> rfl
@[simp] theorem putSide_glb (s : State) (d : SideId) (r : SideRec) : (putSide s d r).glb = s.glb := by cases d <;> rfl
@[simp] theorem putSide_time (s : State) (d : SideId) (r : SideRec) : (putSide s d r).time = s.time := by cases d <;> rfl
@[simp] theorem putSide_ptp (s : State) (d : SideId) (r : SideRec) : (putSide s d r).ptp = s.ptp := by cases d <;> rfl
@[simp] theorem putSide_cmd (s : State) (d : SideId) (r : SideRec) : (putSide s d r).cmd = s.cmd := by cases d <;> rfl
@[simp] theorem putSide_que (s : State) (d : SideId) (r : SideRec) : (putSide s d r).que = s.que := by cases d <;> rfl
@[simp] theorem putSide_dma (s : State) (d : SideId) (r : SideRec) : (putSide s d r).dma = s.dma := by cases d <;> rfl
@[simp] theorem putSide_sch (s : State) (d : SideId) (r : SideRec) : (putSide s d r).sch = s.sch := by cases d <;> rfl
@[simp] theorem putSide_gate (s : State) (d : SideId) (r : SideRec) : (putSide s d r).gate = s.gate := by cases d <;> rfl
@[simp] theorem putSide_port (s : State) (d : SideId) (r : SideRec) : (putSide s d r).port = s.port := by cases d <;> rfl
@[simp] theorem putSide_strm (s : State) (d : SideId) (r : SideRec) : (putSide s d r).strm = s.strm := by cases d <;> rfl
@[simp] theorem putSide_fld (s : State) (d : SideId) (r : SideRec) : (putSide s d r).fld = s.fld := by cases d <;> rfl
@[simp] theorem putSide_jrn (s : State) (d : SideId) (r : SideRec) : (putSide s d r).jrn = s.jrn := by cases d <;> rfl
@[simp] theorem putSide_fab (s : State) (d : SideId) (r : SideRec) : (putSide s d r).fab = s.fab := by cases d <;> rfl
@[simp] theorem putSide_recd (s : State) (d : SideId) (r : SideRec) : (putSide s d r).recd = s.recd := by cases d <;> rfl
@[simp] theorem putSide_evt (s : State) (d : SideId) (r : SideRec) : (putSide s d r).evt = s.evt := by cases d <;> rfl
@[simp] theorem putSide_pcie (s : State) (d : SideId) (r : SideRec) : (putSide s d r).pcie = s.pcie := by cases d <;> rfl
@[simp] theorem putSide_ddrW (s : State) (d : SideId) (r : SideRec) : (putSide s d r).ddrW = s.ddrW := by cases d <;> rfl
@[simp] theorem putSide_ddrB (s : State) (d : SideId) (r : SideRec) : (putSide s d r).ddrB = s.ddrB := by cases d <;> rfl
@[simp] theorem putSide_txHeld (s : State) (d : SideId) (r : SideRec) : (putSide s d r).txHeld = s.txHeld := by cases d <;> rfl
@[simp] theorem putSide_free (s : State) (d : SideId) (r : SideRec) : (putSide s d r).free = s.free := by cases d <;> rfl
@[simp] theorem putSide_bus (s : State) (d : SideId) (r : SideRec) : (putSide s d r).bus = s.bus := by cases d <;> rfl

@[simp] theorem record_regs (b : SsBody) (s : State) : (record b s).regs = s.regs := rfl
@[simp] theorem record_ctrs (b : SsBody) (s : State) : (record b s).ctrs = s.ctrs := rfl
@[simp] theorem record_snap (b : SsBody) (s : State) : (record b s).snap = s.snap := rfl
@[simp] theorem record_fwRead (b : SsBody) (s : State) : (record b s).fwRead = s.fwRead := rfl
@[simp] theorem record_latch (b : SsBody) (s : State) : (record b s).latch = s.latch := rfl
@[simp] theorem record_rdData (b : SsBody) (s : State) : (record b s).rdData = s.rdData := rfl
@[simp] theorem record_glb (b : SsBody) (s : State) : (record b s).glb = s.glb := rfl
@[simp] theorem record_time (b : SsBody) (s : State) : (record b s).time = s.time := rfl
@[simp] theorem record_ptp (b : SsBody) (s : State) : (record b s).ptp = s.ptp := rfl
@[simp] theorem record_cmd (b : SsBody) (s : State) : (record b s).cmd = s.cmd := rfl
@[simp] theorem record_que (b : SsBody) (s : State) : (record b s).que = s.que := rfl
@[simp] theorem record_dma (b : SsBody) (s : State) : (record b s).dma = s.dma := rfl
@[simp] theorem record_sch (b : SsBody) (s : State) : (record b s).sch = s.sch := rfl
@[simp] theorem record_gate (b : SsBody) (s : State) : (record b s).gate = s.gate := rfl
@[simp] theorem record_port (b : SsBody) (s : State) : (record b s).port = s.port := rfl
@[simp] theorem record_strm (b : SsBody) (s : State) : (record b s).strm = s.strm := rfl
@[simp] theorem record_fld (b : SsBody) (s : State) : (record b s).fld = s.fld := rfl
@[simp] theorem record_sides (b : SsBody) (s : State) : (record b s).sides = s.sides := rfl
@[simp] theorem record_fab (b : SsBody) (s : State) : (record b s).fab = s.fab := rfl
@[simp] theorem record_recd (b : SsBody) (s : State) : (record b s).recd = s.recd := rfl
@[simp] theorem record_evt (b : SsBody) (s : State) : (record b s).evt = s.evt := rfl
@[simp] theorem record_pcie (b : SsBody) (s : State) : (record b s).pcie = s.pcie := rfl
@[simp] theorem record_ddrW (b : SsBody) (s : State) : (record b s).ddrW = s.ddrW := rfl
@[simp] theorem record_ddrB (b : SsBody) (s : State) : (record b s).ddrB = s.ddrB := rfl
@[simp] theorem record_txHeld (b : SsBody) (s : State) : (record b s).txHeld = s.txHeld := rfl
@[simp] theorem record_free (b : SsBody) (s : State) : (record b s).free = s.free := rfl
@[simp] theorem record_bus (b : SsBody) (s : State) : (record b s).bus = s.bus := rfl

@[simp] theorem timeRecord_regs (sub : TimeSub) (s : State) : (timeRecord sub s).regs = s.regs := rfl
@[simp] theorem timeRecord_ctrs (sub : TimeSub) (s : State) : (timeRecord sub s).ctrs = s.ctrs := rfl
@[simp] theorem timeRecord_snap (sub : TimeSub) (s : State) : (timeRecord sub s).snap = s.snap := rfl
@[simp] theorem timeRecord_fwRead (sub : TimeSub) (s : State) : (timeRecord sub s).fwRead = s.fwRead := rfl
@[simp] theorem timeRecord_latch (sub : TimeSub) (s : State) : (timeRecord sub s).latch = s.latch := rfl
@[simp] theorem timeRecord_rdData (sub : TimeSub) (s : State) : (timeRecord sub s).rdData = s.rdData := rfl
@[simp] theorem timeRecord_glb (sub : TimeSub) (s : State) : (timeRecord sub s).glb = s.glb := rfl
@[simp] theorem timeRecord_time (sub : TimeSub) (s : State) : (timeRecord sub s).time = s.time := rfl
@[simp] theorem timeRecord_ptp (sub : TimeSub) (s : State) : (timeRecord sub s).ptp = s.ptp := rfl
@[simp] theorem timeRecord_cmd (sub : TimeSub) (s : State) : (timeRecord sub s).cmd = s.cmd := rfl
@[simp] theorem timeRecord_que (sub : TimeSub) (s : State) : (timeRecord sub s).que = s.que := rfl
@[simp] theorem timeRecord_dma (sub : TimeSub) (s : State) : (timeRecord sub s).dma = s.dma := rfl
@[simp] theorem timeRecord_sch (sub : TimeSub) (s : State) : (timeRecord sub s).sch = s.sch := rfl
@[simp] theorem timeRecord_gate (sub : TimeSub) (s : State) : (timeRecord sub s).gate = s.gate := rfl
@[simp] theorem timeRecord_port (sub : TimeSub) (s : State) : (timeRecord sub s).port = s.port := rfl
@[simp] theorem timeRecord_strm (sub : TimeSub) (s : State) : (timeRecord sub s).strm = s.strm := rfl
@[simp] theorem timeRecord_fld (sub : TimeSub) (s : State) : (timeRecord sub s).fld = s.fld := rfl
@[simp] theorem timeRecord_sides (sub : TimeSub) (s : State) : (timeRecord sub s).sides = s.sides := rfl
@[simp] theorem timeRecord_fab (sub : TimeSub) (s : State) : (timeRecord sub s).fab = s.fab := rfl
@[simp] theorem timeRecord_recd (sub : TimeSub) (s : State) : (timeRecord sub s).recd = s.recd := rfl
@[simp] theorem timeRecord_evt (sub : TimeSub) (s : State) : (timeRecord sub s).evt = s.evt := rfl
@[simp] theorem timeRecord_pcie (sub : TimeSub) (s : State) : (timeRecord sub s).pcie = s.pcie := rfl
@[simp] theorem timeRecord_ddrW (sub : TimeSub) (s : State) : (timeRecord sub s).ddrW = s.ddrW := rfl
@[simp] theorem timeRecord_ddrB (sub : TimeSub) (s : State) : (timeRecord sub s).ddrB = s.ddrB := rfl
@[simp] theorem timeRecord_txHeld (sub : TimeSub) (s : State) : (timeRecord sub s).txHeld = s.txHeld := rfl
@[simp] theorem timeRecord_free (sub : TimeSub) (s : State) : (timeRecord sub s).free = s.free := rfl
@[simp] theorem timeRecord_bus (sub : TimeSub) (s : State) : (timeRecord sub s).bus = s.bus := rfl

@[simp] theorem pushSet_regs (w : List RimWrite) (s : State) : (pushSet w s).regs = s.regs := rfl
@[simp] theorem pushSet_ctrs (w : List RimWrite) (s : State) : (pushSet w s).ctrs = s.ctrs := rfl
@[simp] theorem pushSet_snap (w : List RimWrite) (s : State) : (pushSet w s).snap = s.snap := rfl
@[simp] theorem pushSet_fwRead (w : List RimWrite) (s : State) : (pushSet w s).fwRead = s.fwRead := rfl
@[simp] theorem pushSet_latch (w : List RimWrite) (s : State) : (pushSet w s).latch = s.latch := rfl
@[simp] theorem pushSet_rdData (w : List RimWrite) (s : State) : (pushSet w s).rdData = s.rdData := rfl
@[simp] theorem pushSet_glb (w : List RimWrite) (s : State) : (pushSet w s).glb = s.glb := rfl
@[simp] theorem pushSet_time (w : List RimWrite) (s : State) : (pushSet w s).time = s.time := rfl
@[simp] theorem pushSet_ptp (w : List RimWrite) (s : State) : (pushSet w s).ptp = s.ptp := rfl
@[simp] theorem pushSet_cmd (w : List RimWrite) (s : State) : (pushSet w s).cmd = s.cmd := rfl
@[simp] theorem pushSet_que (w : List RimWrite) (s : State) : (pushSet w s).que = s.que := rfl
@[simp] theorem pushSet_dma (w : List RimWrite) (s : State) : (pushSet w s).dma = s.dma := rfl
@[simp] theorem pushSet_sch (w : List RimWrite) (s : State) : (pushSet w s).sch = s.sch := rfl
@[simp] theorem pushSet_gate (w : List RimWrite) (s : State) : (pushSet w s).gate = s.gate := rfl
@[simp] theorem pushSet_port (w : List RimWrite) (s : State) : (pushSet w s).port = s.port := rfl
@[simp] theorem pushSet_strm (w : List RimWrite) (s : State) : (pushSet w s).strm = s.strm := rfl
@[simp] theorem pushSet_fld (w : List RimWrite) (s : State) : (pushSet w s).fld = s.fld := rfl
@[simp] theorem pushSet_sides (w : List RimWrite) (s : State) : (pushSet w s).sides = s.sides := rfl
@[simp] theorem pushSet_fab (w : List RimWrite) (s : State) : (pushSet w s).fab = s.fab := rfl
@[simp] theorem pushSet_recd (w : List RimWrite) (s : State) : (pushSet w s).recd = s.recd := rfl
@[simp] theorem pushSet_evt (w : List RimWrite) (s : State) : (pushSet w s).evt = s.evt := rfl
@[simp] theorem pushSet_pcie (w : List RimWrite) (s : State) : (pushSet w s).pcie = s.pcie := rfl
@[simp] theorem pushSet_ddrW (w : List RimWrite) (s : State) : (pushSet w s).ddrW = s.ddrW := rfl
@[simp] theorem pushSet_ddrB (w : List RimWrite) (s : State) : (pushSet w s).ddrB = s.ddrB := rfl
@[simp] theorem pushSet_txHeld (w : List RimWrite) (s : State) : (pushSet w s).txHeld = s.txHeld := rfl
@[simp] theorem pushSet_free (w : List RimWrite) (s : State) : (pushSet w s).free = s.free := rfl
@[simp] theorem pushSet_bus (w : List RimWrite) (s : State) : (pushSet w s).bus = s.bus := rfl

@[simp] theorem raiseS_regs (src : Nat) (s : State) : (raiseS src s).regs = s.regs := rfl
@[simp] theorem raiseS_ctrs (src : Nat) (s : State) : (raiseS src s).ctrs = s.ctrs := rfl
@[simp] theorem raiseS_snap (src : Nat) (s : State) : (raiseS src s).snap = s.snap := rfl
@[simp] theorem raiseS_fwRead (src : Nat) (s : State) : (raiseS src s).fwRead = s.fwRead := rfl
@[simp] theorem raiseS_latch (src : Nat) (s : State) : (raiseS src s).latch = s.latch := rfl
@[simp] theorem raiseS_rdData (src : Nat) (s : State) : (raiseS src s).rdData = s.rdData := rfl
@[simp] theorem raiseS_glb (src : Nat) (s : State) : (raiseS src s).glb = s.glb := rfl
@[simp] theorem raiseS_time (src : Nat) (s : State) : (raiseS src s).time = s.time := rfl
@[simp] theorem raiseS_ptp (src : Nat) (s : State) : (raiseS src s).ptp = s.ptp := rfl
@[simp] theorem raiseS_cmd (src : Nat) (s : State) : (raiseS src s).cmd = s.cmd := rfl
@[simp] theorem raiseS_que (src : Nat) (s : State) : (raiseS src s).que = s.que := rfl
@[simp] theorem raiseS_dma (src : Nat) (s : State) : (raiseS src s).dma = s.dma := rfl
@[simp] theorem raiseS_sch (src : Nat) (s : State) : (raiseS src s).sch = s.sch := rfl
@[simp] theorem raiseS_gate (src : Nat) (s : State) : (raiseS src s).gate = s.gate := rfl
@[simp] theorem raiseS_port (src : Nat) (s : State) : (raiseS src s).port = s.port := rfl
@[simp] theorem raiseS_strm (src : Nat) (s : State) : (raiseS src s).strm = s.strm := rfl
@[simp] theorem raiseS_fld (src : Nat) (s : State) : (raiseS src s).fld = s.fld := rfl
@[simp] theorem raiseS_sides (src : Nat) (s : State) : (raiseS src s).sides = s.sides := rfl
@[simp] theorem raiseS_fab (src : Nat) (s : State) : (raiseS src s).fab = s.fab := rfl
@[simp] theorem raiseS_recd (src : Nat) (s : State) : (raiseS src s).recd = s.recd := rfl
@[simp] theorem raiseS_evt (src : Nat) (s : State) : (raiseS src s).evt = s.evt := rfl
@[simp] theorem raiseS_pcie (src : Nat) (s : State) : (raiseS src s).pcie = s.pcie := rfl
@[simp] theorem raiseS_ddrW (src : Nat) (s : State) : (raiseS src s).ddrW = s.ddrW := rfl
@[simp] theorem raiseS_ddrB (src : Nat) (s : State) : (raiseS src s).ddrB = s.ddrB := rfl
@[simp] theorem raiseS_txHeld (src : Nat) (s : State) : (raiseS src s).txHeld = s.txHeld := rfl
@[simp] theorem raiseS_free (src : Nat) (s : State) : (raiseS src s).free = s.free := rfl
@[simp] theorem raiseS_bus (src : Nat) (s : State) : (raiseS src s).bus = s.bus := rfl

@[simp] theorem countS_regs (g : Reg) (is : List Nat) (lo n : Nat) (s : State) : (countS g is lo n s).regs = s.regs := rfl
@[simp] theorem countS_ctrs (g : Reg) (is : List Nat) (lo n : Nat) (s : State) : (countS g is lo n s).ctrs = s.ctrs := rfl
@[simp] theorem countS_snap (g : Reg) (is : List Nat) (lo n : Nat) (s : State) : (countS g is lo n s).snap = s.snap := rfl
@[simp] theorem countS_fwRead (g : Reg) (is : List Nat) (lo n : Nat) (s : State) : (countS g is lo n s).fwRead = s.fwRead := rfl
@[simp] theorem countS_latch (g : Reg) (is : List Nat) (lo n : Nat) (s : State) : (countS g is lo n s).latch = s.latch := rfl
@[simp] theorem countS_rdData (g : Reg) (is : List Nat) (lo n : Nat) (s : State) : (countS g is lo n s).rdData = s.rdData := rfl
@[simp] theorem countS_glb (g : Reg) (is : List Nat) (lo n : Nat) (s : State) : (countS g is lo n s).glb = s.glb := rfl
@[simp] theorem countS_time (g : Reg) (is : List Nat) (lo n : Nat) (s : State) : (countS g is lo n s).time = s.time := rfl
@[simp] theorem countS_ptp (g : Reg) (is : List Nat) (lo n : Nat) (s : State) : (countS g is lo n s).ptp = s.ptp := rfl
@[simp] theorem countS_cmd (g : Reg) (is : List Nat) (lo n : Nat) (s : State) : (countS g is lo n s).cmd = s.cmd := rfl
@[simp] theorem countS_que (g : Reg) (is : List Nat) (lo n : Nat) (s : State) : (countS g is lo n s).que = s.que := rfl
@[simp] theorem countS_dma (g : Reg) (is : List Nat) (lo n : Nat) (s : State) : (countS g is lo n s).dma = s.dma := rfl
@[simp] theorem countS_sch (g : Reg) (is : List Nat) (lo n : Nat) (s : State) : (countS g is lo n s).sch = s.sch := rfl
@[simp] theorem countS_gate (g : Reg) (is : List Nat) (lo n : Nat) (s : State) : (countS g is lo n s).gate = s.gate := rfl
@[simp] theorem countS_port (g : Reg) (is : List Nat) (lo n : Nat) (s : State) : (countS g is lo n s).port = s.port := rfl
@[simp] theorem countS_strm (g : Reg) (is : List Nat) (lo n : Nat) (s : State) : (countS g is lo n s).strm = s.strm := rfl
@[simp] theorem countS_fld (g : Reg) (is : List Nat) (lo n : Nat) (s : State) : (countS g is lo n s).fld = s.fld := rfl
@[simp] theorem countS_sides (g : Reg) (is : List Nat) (lo n : Nat) (s : State) : (countS g is lo n s).sides = s.sides := rfl
@[simp] theorem countS_fab (g : Reg) (is : List Nat) (lo n : Nat) (s : State) : (countS g is lo n s).fab = s.fab := rfl
@[simp] theorem countS_recd (g : Reg) (is : List Nat) (lo n : Nat) (s : State) : (countS g is lo n s).recd = s.recd := rfl
@[simp] theorem countS_evt (g : Reg) (is : List Nat) (lo n : Nat) (s : State) : (countS g is lo n s).evt = s.evt := rfl
@[simp] theorem countS_pcie (g : Reg) (is : List Nat) (lo n : Nat) (s : State) : (countS g is lo n s).pcie = s.pcie := rfl
@[simp] theorem countS_ddrW (g : Reg) (is : List Nat) (lo n : Nat) (s : State) : (countS g is lo n s).ddrW = s.ddrW := rfl
@[simp] theorem countS_ddrB (g : Reg) (is : List Nat) (lo n : Nat) (s : State) : (countS g is lo n s).ddrB = s.ddrB := rfl
@[simp] theorem countS_txHeld (g : Reg) (is : List Nat) (lo n : Nat) (s : State) : (countS g is lo n s).txHeld = s.txHeld := rfl
@[simp] theorem countS_free (g : Reg) (is : List Nat) (lo n : Nat) (s : State) : (countS g is lo n s).free = s.free := rfl
@[simp] theorem countS_bus (g : Reg) (is : List Nat) (lo n : Nat) (s : State) : (countS g is lo n s).bus = s.bus := rfl

@[simp] theorem portCountS_regs (p c n : Nat) (s : State) : (portCountS p c n s).regs = s.regs := rfl
@[simp] theorem portCountS_ctrs (p c n : Nat) (s : State) : (portCountS p c n s).ctrs = s.ctrs := rfl
@[simp] theorem portCountS_snap (p c n : Nat) (s : State) : (portCountS p c n s).snap = s.snap := rfl
@[simp] theorem portCountS_fwRead (p c n : Nat) (s : State) : (portCountS p c n s).fwRead = s.fwRead := rfl
@[simp] theorem portCountS_latch (p c n : Nat) (s : State) : (portCountS p c n s).latch = s.latch := rfl
@[simp] theorem portCountS_rdData (p c n : Nat) (s : State) : (portCountS p c n s).rdData = s.rdData := rfl
@[simp] theorem portCountS_glb (p c n : Nat) (s : State) : (portCountS p c n s).glb = s.glb := rfl
@[simp] theorem portCountS_time (p c n : Nat) (s : State) : (portCountS p c n s).time = s.time := rfl
@[simp] theorem portCountS_ptp (p c n : Nat) (s : State) : (portCountS p c n s).ptp = s.ptp := rfl
@[simp] theorem portCountS_cmd (p c n : Nat) (s : State) : (portCountS p c n s).cmd = s.cmd := rfl
@[simp] theorem portCountS_que (p c n : Nat) (s : State) : (portCountS p c n s).que = s.que := rfl
@[simp] theorem portCountS_dma (p c n : Nat) (s : State) : (portCountS p c n s).dma = s.dma := rfl
@[simp] theorem portCountS_sch (p c n : Nat) (s : State) : (portCountS p c n s).sch = s.sch := rfl
@[simp] theorem portCountS_gate (p c n : Nat) (s : State) : (portCountS p c n s).gate = s.gate := rfl
@[simp] theorem portCountS_port (p c n : Nat) (s : State) : (portCountS p c n s).port = s.port := rfl
@[simp] theorem portCountS_strm (p c n : Nat) (s : State) : (portCountS p c n s).strm = s.strm := rfl
@[simp] theorem portCountS_fld (p c n : Nat) (s : State) : (portCountS p c n s).fld = s.fld := rfl
@[simp] theorem portCountS_sides (p c n : Nat) (s : State) : (portCountS p c n s).sides = s.sides := rfl
@[simp] theorem portCountS_fab (p c n : Nat) (s : State) : (portCountS p c n s).fab = s.fab := rfl
@[simp] theorem portCountS_recd (p c n : Nat) (s : State) : (portCountS p c n s).recd = s.recd := rfl
@[simp] theorem portCountS_evt (p c n : Nat) (s : State) : (portCountS p c n s).evt = s.evt := rfl
@[simp] theorem portCountS_pcie (p c n : Nat) (s : State) : (portCountS p c n s).pcie = s.pcie := rfl
@[simp] theorem portCountS_ddrW (p c n : Nat) (s : State) : (portCountS p c n s).ddrW = s.ddrW := rfl
@[simp] theorem portCountS_ddrB (p c n : Nat) (s : State) : (portCountS p c n s).ddrB = s.ddrB := rfl
@[simp] theorem portCountS_txHeld (p c n : Nat) (s : State) : (portCountS p c n s).txHeld = s.txHeld := rfl
@[simp] theorem portCountS_free (p c n : Nat) (s : State) : (portCountS p c n s).free = s.free := rfl
@[simp] theorem portCountS_bus (p c n : Nat) (s : State) : (portCountS p c n s).bus = s.bus := rfl

@[simp] theorem putVec_regs (s : State) (h v : Nat) (x : Vec) : (putVec s h v x).regs = s.regs := rfl
@[simp] theorem putVec_ctrs (s : State) (h v : Nat) (x : Vec) : (putVec s h v x).ctrs = s.ctrs := rfl
@[simp] theorem putVec_snap (s : State) (h v : Nat) (x : Vec) : (putVec s h v x).snap = s.snap := rfl
@[simp] theorem putVec_fwRead (s : State) (h v : Nat) (x : Vec) : (putVec s h v x).fwRead = s.fwRead := rfl
@[simp] theorem putVec_latch (s : State) (h v : Nat) (x : Vec) : (putVec s h v x).latch = s.latch := rfl
@[simp] theorem putVec_rdData (s : State) (h v : Nat) (x : Vec) : (putVec s h v x).rdData = s.rdData := rfl
@[simp] theorem putVec_glb (s : State) (h v : Nat) (x : Vec) : (putVec s h v x).glb = s.glb := rfl
@[simp] theorem putVec_time (s : State) (h v : Nat) (x : Vec) : (putVec s h v x).time = s.time := rfl
@[simp] theorem putVec_ptp (s : State) (h v : Nat) (x : Vec) : (putVec s h v x).ptp = s.ptp := rfl
@[simp] theorem putVec_cmd (s : State) (h v : Nat) (x : Vec) : (putVec s h v x).cmd = s.cmd := rfl
@[simp] theorem putVec_que (s : State) (h v : Nat) (x : Vec) : (putVec s h v x).que = s.que := rfl
@[simp] theorem putVec_dma (s : State) (h v : Nat) (x : Vec) : (putVec s h v x).dma = s.dma := rfl
@[simp] theorem putVec_sch (s : State) (h v : Nat) (x : Vec) : (putVec s h v x).sch = s.sch := rfl
@[simp] theorem putVec_gate (s : State) (h v : Nat) (x : Vec) : (putVec s h v x).gate = s.gate := rfl
@[simp] theorem putVec_port (s : State) (h v : Nat) (x : Vec) : (putVec s h v x).port = s.port := rfl
@[simp] theorem putVec_strm (s : State) (h v : Nat) (x : Vec) : (putVec s h v x).strm = s.strm := rfl
@[simp] theorem putVec_fld (s : State) (h v : Nat) (x : Vec) : (putVec s h v x).fld = s.fld := rfl
@[simp] theorem putVec_sides (s : State) (h v : Nat) (x : Vec) : (putVec s h v x).sides = s.sides := rfl
@[simp] theorem putVec_jrn (s : State) (h v : Nat) (x : Vec) : (putVec s h v x).jrn = s.jrn := rfl
@[simp] theorem putVec_fab (s : State) (h v : Nat) (x : Vec) : (putVec s h v x).fab = s.fab := rfl
@[simp] theorem putVec_recd (s : State) (h v : Nat) (x : Vec) : (putVec s h v x).recd = s.recd := rfl
@[simp] theorem putVec_pcie (s : State) (h v : Nat) (x : Vec) : (putVec s h v x).pcie = s.pcie := rfl
@[simp] theorem putVec_ddrW (s : State) (h v : Nat) (x : Vec) : (putVec s h v x).ddrW = s.ddrW := rfl
@[simp] theorem putVec_ddrB (s : State) (h v : Nat) (x : Vec) : (putVec s h v x).ddrB = s.ddrB := rfl
@[simp] theorem putVec_txHeld (s : State) (h v : Nat) (x : Vec) : (putVec s h v x).txHeld = s.txHeld := rfl
@[simp] theorem putVec_free (s : State) (h v : Nat) (x : Vec) : (putVec s h v x).free = s.free := rfl
@[simp] theorem putVec_bus (s : State) (h v : Nat) (x : Vec) : (putVec s h v x).bus = s.bus := rfl

@[simp] theorem offer_regs (r : RecIn) (s : State) : (offer r s).regs = s.regs := rfl
@[simp] theorem offer_ctrs (r : RecIn) (s : State) : (offer r s).ctrs = s.ctrs := rfl
@[simp] theorem offer_snap (r : RecIn) (s : State) : (offer r s).snap = s.snap := rfl
@[simp] theorem offer_fwRead (r : RecIn) (s : State) : (offer r s).fwRead = s.fwRead := rfl
@[simp] theorem offer_latch (r : RecIn) (s : State) : (offer r s).latch = s.latch := rfl
@[simp] theorem offer_rdData (r : RecIn) (s : State) : (offer r s).rdData = s.rdData := rfl
@[simp] theorem offer_glb (r : RecIn) (s : State) : (offer r s).glb = s.glb := rfl
@[simp] theorem offer_time (r : RecIn) (s : State) : (offer r s).time = s.time := rfl
@[simp] theorem offer_ptp (r : RecIn) (s : State) : (offer r s).ptp = s.ptp := rfl
@[simp] theorem offer_cmd (r : RecIn) (s : State) : (offer r s).cmd = s.cmd := rfl
@[simp] theorem offer_que (r : RecIn) (s : State) : (offer r s).que = s.que := rfl
@[simp] theorem offer_dma (r : RecIn) (s : State) : (offer r s).dma = s.dma := rfl
@[simp] theorem offer_sch (r : RecIn) (s : State) : (offer r s).sch = s.sch := rfl
@[simp] theorem offer_gate (r : RecIn) (s : State) : (offer r s).gate = s.gate := rfl
@[simp] theorem offer_port (r : RecIn) (s : State) : (offer r s).port = s.port := rfl
@[simp] theorem offer_strm (r : RecIn) (s : State) : (offer r s).strm = s.strm := rfl
@[simp] theorem offer_fld (r : RecIn) (s : State) : (offer r s).fld = s.fld := rfl
@[simp] theorem offer_sides (r : RecIn) (s : State) : (offer r s).sides = s.sides := rfl
@[simp] theorem offer_jrn (r : RecIn) (s : State) : (offer r s).jrn = s.jrn := rfl
@[simp] theorem offer_fab (r : RecIn) (s : State) : (offer r s).fab = s.fab := rfl
@[simp] theorem offer_evt (r : RecIn) (s : State) : (offer r s).evt = s.evt := rfl
@[simp] theorem offer_pcie (r : RecIn) (s : State) : (offer r s).pcie = s.pcie := rfl
@[simp] theorem offer_ddrW (r : RecIn) (s : State) : (offer r s).ddrW = s.ddrW := rfl
@[simp] theorem offer_ddrB (r : RecIn) (s : State) : (offer r s).ddrB = s.ddrB := rfl
@[simp] theorem offer_txHeld (r : RecIn) (s : State) : (offer r s).txHeld = s.txHeld := rfl
@[simp] theorem offer_free (r : RecIn) (s : State) : (offer r s).free = s.free := rfl
@[simp] theorem offer_bus (r : RecIn) (s : State) : (offer r s).bus = s.bus := rfl

@[simp] theorem setAlarm_regs (i : Nat) (s : State) : (setAlarm i s).regs = s.regs := rfl
@[simp] theorem setAlarm_ctrs (i : Nat) (s : State) : (setAlarm i s).ctrs = s.ctrs := rfl
@[simp] theorem setAlarm_snap (i : Nat) (s : State) : (setAlarm i s).snap = s.snap := rfl
@[simp] theorem setAlarm_fwRead (i : Nat) (s : State) : (setAlarm i s).fwRead = s.fwRead := rfl
@[simp] theorem setAlarm_latch (i : Nat) (s : State) : (setAlarm i s).latch = s.latch := rfl
@[simp] theorem setAlarm_rdData (i : Nat) (s : State) : (setAlarm i s).rdData = s.rdData := rfl
@[simp] theorem setAlarm_time (i : Nat) (s : State) : (setAlarm i s).time = s.time := rfl
@[simp] theorem setAlarm_ptp (i : Nat) (s : State) : (setAlarm i s).ptp = s.ptp := rfl
@[simp] theorem setAlarm_cmd (i : Nat) (s : State) : (setAlarm i s).cmd = s.cmd := rfl
@[simp] theorem setAlarm_que (i : Nat) (s : State) : (setAlarm i s).que = s.que := rfl
@[simp] theorem setAlarm_dma (i : Nat) (s : State) : (setAlarm i s).dma = s.dma := rfl
@[simp] theorem setAlarm_sch (i : Nat) (s : State) : (setAlarm i s).sch = s.sch := rfl
@[simp] theorem setAlarm_gate (i : Nat) (s : State) : (setAlarm i s).gate = s.gate := rfl
@[simp] theorem setAlarm_port (i : Nat) (s : State) : (setAlarm i s).port = s.port := rfl
@[simp] theorem setAlarm_strm (i : Nat) (s : State) : (setAlarm i s).strm = s.strm := rfl
@[simp] theorem setAlarm_fld (i : Nat) (s : State) : (setAlarm i s).fld = s.fld := rfl
@[simp] theorem setAlarm_sides (i : Nat) (s : State) : (setAlarm i s).sides = s.sides := rfl
@[simp] theorem setAlarm_jrn (i : Nat) (s : State) : (setAlarm i s).jrn = s.jrn := rfl
@[simp] theorem setAlarm_fab (i : Nat) (s : State) : (setAlarm i s).fab = s.fab := rfl
@[simp] theorem setAlarm_recd (i : Nat) (s : State) : (setAlarm i s).recd = s.recd := rfl
@[simp] theorem setAlarm_evt (i : Nat) (s : State) : (setAlarm i s).evt = s.evt := rfl
@[simp] theorem setAlarm_pcie (i : Nat) (s : State) : (setAlarm i s).pcie = s.pcie := rfl
@[simp] theorem setAlarm_ddrW (i : Nat) (s : State) : (setAlarm i s).ddrW = s.ddrW := rfl
@[simp] theorem setAlarm_ddrB (i : Nat) (s : State) : (setAlarm i s).ddrB = s.ddrB := rfl
@[simp] theorem setAlarm_txHeld (i : Nat) (s : State) : (setAlarm i s).txHeld = s.txHeld := rfl
@[simp] theorem setAlarm_free (i : Nat) (s : State) : (setAlarm i s).free = s.free := rfl
@[simp] theorem setAlarm_bus (i : Nat) (s : State) : (setAlarm i s).bus = s.bus := rfl

@[simp] theorem clearAlarm_regs (i : Nat) (s : State) : (clearAlarm i s).regs = s.regs := rfl
@[simp] theorem clearAlarm_ctrs (i : Nat) (s : State) : (clearAlarm i s).ctrs = s.ctrs := rfl
@[simp] theorem clearAlarm_snap (i : Nat) (s : State) : (clearAlarm i s).snap = s.snap := rfl
@[simp] theorem clearAlarm_fwRead (i : Nat) (s : State) : (clearAlarm i s).fwRead = s.fwRead := rfl
@[simp] theorem clearAlarm_latch (i : Nat) (s : State) : (clearAlarm i s).latch = s.latch := rfl
@[simp] theorem clearAlarm_rdData (i : Nat) (s : State) : (clearAlarm i s).rdData = s.rdData := rfl
@[simp] theorem clearAlarm_time (i : Nat) (s : State) : (clearAlarm i s).time = s.time := rfl
@[simp] theorem clearAlarm_ptp (i : Nat) (s : State) : (clearAlarm i s).ptp = s.ptp := rfl
@[simp] theorem clearAlarm_cmd (i : Nat) (s : State) : (clearAlarm i s).cmd = s.cmd := rfl
@[simp] theorem clearAlarm_que (i : Nat) (s : State) : (clearAlarm i s).que = s.que := rfl
@[simp] theorem clearAlarm_dma (i : Nat) (s : State) : (clearAlarm i s).dma = s.dma := rfl
@[simp] theorem clearAlarm_sch (i : Nat) (s : State) : (clearAlarm i s).sch = s.sch := rfl
@[simp] theorem clearAlarm_gate (i : Nat) (s : State) : (clearAlarm i s).gate = s.gate := rfl
@[simp] theorem clearAlarm_port (i : Nat) (s : State) : (clearAlarm i s).port = s.port := rfl
@[simp] theorem clearAlarm_strm (i : Nat) (s : State) : (clearAlarm i s).strm = s.strm := rfl
@[simp] theorem clearAlarm_fld (i : Nat) (s : State) : (clearAlarm i s).fld = s.fld := rfl
@[simp] theorem clearAlarm_sides (i : Nat) (s : State) : (clearAlarm i s).sides = s.sides := rfl
@[simp] theorem clearAlarm_jrn (i : Nat) (s : State) : (clearAlarm i s).jrn = s.jrn := rfl
@[simp] theorem clearAlarm_fab (i : Nat) (s : State) : (clearAlarm i s).fab = s.fab := rfl
@[simp] theorem clearAlarm_recd (i : Nat) (s : State) : (clearAlarm i s).recd = s.recd := rfl
@[simp] theorem clearAlarm_evt (i : Nat) (s : State) : (clearAlarm i s).evt = s.evt := rfl
@[simp] theorem clearAlarm_pcie (i : Nat) (s : State) : (clearAlarm i s).pcie = s.pcie := rfl
@[simp] theorem clearAlarm_ddrW (i : Nat) (s : State) : (clearAlarm i s).ddrW = s.ddrW := rfl
@[simp] theorem clearAlarm_ddrB (i : Nat) (s : State) : (clearAlarm i s).ddrB = s.ddrB := rfl
@[simp] theorem clearAlarm_txHeld (i : Nat) (s : State) : (clearAlarm i s).txHeld = s.txHeld := rfl
@[simp] theorem clearAlarm_free (i : Nat) (s : State) : (clearAlarm i s).free = s.free := rfl
@[simp] theorem clearAlarm_bus (i : Nat) (s : State) : (clearAlarm i s).bus = s.bus := rfl

@[simp] theorem putAq_regs (s : State) (h : Nat) (a : AdminHost) : (putAq s h a).regs = s.regs := rfl
@[simp] theorem putAq_ctrs (s : State) (h : Nat) (a : AdminHost) : (putAq s h a).ctrs = s.ctrs := rfl
@[simp] theorem putAq_snap (s : State) (h : Nat) (a : AdminHost) : (putAq s h a).snap = s.snap := rfl
@[simp] theorem putAq_fwRead (s : State) (h : Nat) (a : AdminHost) : (putAq s h a).fwRead = s.fwRead := rfl
@[simp] theorem putAq_latch (s : State) (h : Nat) (a : AdminHost) : (putAq s h a).latch = s.latch := rfl
@[simp] theorem putAq_rdData (s : State) (h : Nat) (a : AdminHost) : (putAq s h a).rdData = s.rdData := rfl
@[simp] theorem putAq_glb (s : State) (h : Nat) (a : AdminHost) : (putAq s h a).glb = s.glb := rfl
@[simp] theorem putAq_time (s : State) (h : Nat) (a : AdminHost) : (putAq s h a).time = s.time := rfl
@[simp] theorem putAq_ptp (s : State) (h : Nat) (a : AdminHost) : (putAq s h a).ptp = s.ptp := rfl
@[simp] theorem putAq_que (s : State) (h : Nat) (a : AdminHost) : (putAq s h a).que = s.que := rfl
@[simp] theorem putAq_dma (s : State) (h : Nat) (a : AdminHost) : (putAq s h a).dma = s.dma := rfl
@[simp] theorem putAq_sch (s : State) (h : Nat) (a : AdminHost) : (putAq s h a).sch = s.sch := rfl
@[simp] theorem putAq_gate (s : State) (h : Nat) (a : AdminHost) : (putAq s h a).gate = s.gate := rfl
@[simp] theorem putAq_port (s : State) (h : Nat) (a : AdminHost) : (putAq s h a).port = s.port := rfl
@[simp] theorem putAq_strm (s : State) (h : Nat) (a : AdminHost) : (putAq s h a).strm = s.strm := rfl
@[simp] theorem putAq_fld (s : State) (h : Nat) (a : AdminHost) : (putAq s h a).fld = s.fld := rfl
@[simp] theorem putAq_sides (s : State) (h : Nat) (a : AdminHost) : (putAq s h a).sides = s.sides := rfl
@[simp] theorem putAq_jrn (s : State) (h : Nat) (a : AdminHost) : (putAq s h a).jrn = s.jrn := rfl
@[simp] theorem putAq_fab (s : State) (h : Nat) (a : AdminHost) : (putAq s h a).fab = s.fab := rfl
@[simp] theorem putAq_recd (s : State) (h : Nat) (a : AdminHost) : (putAq s h a).recd = s.recd := rfl
@[simp] theorem putAq_evt (s : State) (h : Nat) (a : AdminHost) : (putAq s h a).evt = s.evt := rfl
@[simp] theorem putAq_pcie (s : State) (h : Nat) (a : AdminHost) : (putAq s h a).pcie = s.pcie := rfl
@[simp] theorem putAq_ddrW (s : State) (h : Nat) (a : AdminHost) : (putAq s h a).ddrW = s.ddrW := rfl
@[simp] theorem putAq_ddrB (s : State) (h : Nat) (a : AdminHost) : (putAq s h a).ddrB = s.ddrB := rfl
@[simp] theorem putAq_txHeld (s : State) (h : Nat) (a : AdminHost) : (putAq s h a).txHeld = s.txHeld := rfl
@[simp] theorem putAq_free (s : State) (h : Nat) (a : AdminHost) : (putAq s h a).free = s.free := rfl
@[simp] theorem putAq_bus (s : State) (h : Nat) (a : AdminHost) : (putAq s h a).bus = s.bus := rfl

@[simp] theorem bumpGen_regs (p : Packet) (s : State) : (bumpGen p s).regs = s.regs := rfl
@[simp] theorem bumpGen_ctrs (p : Packet) (s : State) : (bumpGen p s).ctrs = s.ctrs := rfl
@[simp] theorem bumpGen_snap (p : Packet) (s : State) : (bumpGen p s).snap = s.snap := rfl
@[simp] theorem bumpGen_fwRead (p : Packet) (s : State) : (bumpGen p s).fwRead = s.fwRead := rfl
@[simp] theorem bumpGen_latch (p : Packet) (s : State) : (bumpGen p s).latch = s.latch := rfl
@[simp] theorem bumpGen_rdData (p : Packet) (s : State) : (bumpGen p s).rdData = s.rdData := rfl
@[simp] theorem bumpGen_glb (p : Packet) (s : State) : (bumpGen p s).glb = s.glb := rfl
@[simp] theorem bumpGen_time (p : Packet) (s : State) : (bumpGen p s).time = s.time := rfl
@[simp] theorem bumpGen_ptp (p : Packet) (s : State) : (bumpGen p s).ptp = s.ptp := rfl
@[simp] theorem bumpGen_que (p : Packet) (s : State) : (bumpGen p s).que = s.que := rfl
@[simp] theorem bumpGen_dma (p : Packet) (s : State) : (bumpGen p s).dma = s.dma := rfl
@[simp] theorem bumpGen_sch (p : Packet) (s : State) : (bumpGen p s).sch = s.sch := rfl
@[simp] theorem bumpGen_gate (p : Packet) (s : State) : (bumpGen p s).gate = s.gate := rfl
@[simp] theorem bumpGen_port (p : Packet) (s : State) : (bumpGen p s).port = s.port := rfl
@[simp] theorem bumpGen_strm (p : Packet) (s : State) : (bumpGen p s).strm = s.strm := rfl
@[simp] theorem bumpGen_fld (p : Packet) (s : State) : (bumpGen p s).fld = s.fld := rfl
@[simp] theorem bumpGen_sides (p : Packet) (s : State) : (bumpGen p s).sides = s.sides := rfl
@[simp] theorem bumpGen_jrn (p : Packet) (s : State) : (bumpGen p s).jrn = s.jrn := rfl
@[simp] theorem bumpGen_fab (p : Packet) (s : State) : (bumpGen p s).fab = s.fab := rfl
@[simp] theorem bumpGen_recd (p : Packet) (s : State) : (bumpGen p s).recd = s.recd := rfl
@[simp] theorem bumpGen_evt (p : Packet) (s : State) : (bumpGen p s).evt = s.evt := rfl
@[simp] theorem bumpGen_pcie (p : Packet) (s : State) : (bumpGen p s).pcie = s.pcie := rfl
@[simp] theorem bumpGen_ddrW (p : Packet) (s : State) : (bumpGen p s).ddrW = s.ddrW := rfl
@[simp] theorem bumpGen_ddrB (p : Packet) (s : State) : (bumpGen p s).ddrB = s.ddrB := rfl
@[simp] theorem bumpGen_txHeld (p : Packet) (s : State) : (bumpGen p s).txHeld = s.txHeld := rfl
@[simp] theorem bumpGen_free (p : Packet) (s : State) : (bumpGen p s).free = s.free := rfl
@[simp] theorem bumpGen_bus (p : Packet) (s : State) : (bumpGen p s).bus = s.bus := rfl

@[simp] theorem dueStatus_regs (who : Issuer) (p : Packet) (status off result : Nat) (gen : W32) (epoch head : BitVec 16) (s : State) : (dueStatus who p status off result gen epoch head s).regs = s.regs := rfl
@[simp] theorem dueStatus_ctrs (who : Issuer) (p : Packet) (status off result : Nat) (gen : W32) (epoch head : BitVec 16) (s : State) : (dueStatus who p status off result gen epoch head s).ctrs = s.ctrs := rfl
@[simp] theorem dueStatus_snap (who : Issuer) (p : Packet) (status off result : Nat) (gen : W32) (epoch head : BitVec 16) (s : State) : (dueStatus who p status off result gen epoch head s).snap = s.snap := rfl
@[simp] theorem dueStatus_fwRead (who : Issuer) (p : Packet) (status off result : Nat) (gen : W32) (epoch head : BitVec 16) (s : State) : (dueStatus who p status off result gen epoch head s).fwRead = s.fwRead := rfl
@[simp] theorem dueStatus_latch (who : Issuer) (p : Packet) (status off result : Nat) (gen : W32) (epoch head : BitVec 16) (s : State) : (dueStatus who p status off result gen epoch head s).latch = s.latch := rfl
@[simp] theorem dueStatus_rdData (who : Issuer) (p : Packet) (status off result : Nat) (gen : W32) (epoch head : BitVec 16) (s : State) : (dueStatus who p status off result gen epoch head s).rdData = s.rdData := rfl
@[simp] theorem dueStatus_glb (who : Issuer) (p : Packet) (status off result : Nat) (gen : W32) (epoch head : BitVec 16) (s : State) : (dueStatus who p status off result gen epoch head s).glb = s.glb := rfl
@[simp] theorem dueStatus_time (who : Issuer) (p : Packet) (status off result : Nat) (gen : W32) (epoch head : BitVec 16) (s : State) : (dueStatus who p status off result gen epoch head s).time = s.time := rfl
@[simp] theorem dueStatus_ptp (who : Issuer) (p : Packet) (status off result : Nat) (gen : W32) (epoch head : BitVec 16) (s : State) : (dueStatus who p status off result gen epoch head s).ptp = s.ptp := rfl
@[simp] theorem dueStatus_que (who : Issuer) (p : Packet) (status off result : Nat) (gen : W32) (epoch head : BitVec 16) (s : State) : (dueStatus who p status off result gen epoch head s).que = s.que := rfl
@[simp] theorem dueStatus_dma (who : Issuer) (p : Packet) (status off result : Nat) (gen : W32) (epoch head : BitVec 16) (s : State) : (dueStatus who p status off result gen epoch head s).dma = s.dma := rfl
@[simp] theorem dueStatus_sch (who : Issuer) (p : Packet) (status off result : Nat) (gen : W32) (epoch head : BitVec 16) (s : State) : (dueStatus who p status off result gen epoch head s).sch = s.sch := rfl
@[simp] theorem dueStatus_gate (who : Issuer) (p : Packet) (status off result : Nat) (gen : W32) (epoch head : BitVec 16) (s : State) : (dueStatus who p status off result gen epoch head s).gate = s.gate := rfl
@[simp] theorem dueStatus_port (who : Issuer) (p : Packet) (status off result : Nat) (gen : W32) (epoch head : BitVec 16) (s : State) : (dueStatus who p status off result gen epoch head s).port = s.port := rfl
@[simp] theorem dueStatus_strm (who : Issuer) (p : Packet) (status off result : Nat) (gen : W32) (epoch head : BitVec 16) (s : State) : (dueStatus who p status off result gen epoch head s).strm = s.strm := rfl
@[simp] theorem dueStatus_fld (who : Issuer) (p : Packet) (status off result : Nat) (gen : W32) (epoch head : BitVec 16) (s : State) : (dueStatus who p status off result gen epoch head s).fld = s.fld := rfl
@[simp] theorem dueStatus_sides (who : Issuer) (p : Packet) (status off result : Nat) (gen : W32) (epoch head : BitVec 16) (s : State) : (dueStatus who p status off result gen epoch head s).sides = s.sides := rfl
@[simp] theorem dueStatus_jrn (who : Issuer) (p : Packet) (status off result : Nat) (gen : W32) (epoch head : BitVec 16) (s : State) : (dueStatus who p status off result gen epoch head s).jrn = s.jrn := rfl
@[simp] theorem dueStatus_fab (who : Issuer) (p : Packet) (status off result : Nat) (gen : W32) (epoch head : BitVec 16) (s : State) : (dueStatus who p status off result gen epoch head s).fab = s.fab := rfl
@[simp] theorem dueStatus_recd (who : Issuer) (p : Packet) (status off result : Nat) (gen : W32) (epoch head : BitVec 16) (s : State) : (dueStatus who p status off result gen epoch head s).recd = s.recd := rfl
@[simp] theorem dueStatus_evt (who : Issuer) (p : Packet) (status off result : Nat) (gen : W32) (epoch head : BitVec 16) (s : State) : (dueStatus who p status off result gen epoch head s).evt = s.evt := rfl
@[simp] theorem dueStatus_pcie (who : Issuer) (p : Packet) (status off result : Nat) (gen : W32) (epoch head : BitVec 16) (s : State) : (dueStatus who p status off result gen epoch head s).pcie = s.pcie := rfl
@[simp] theorem dueStatus_ddrW (who : Issuer) (p : Packet) (status off result : Nat) (gen : W32) (epoch head : BitVec 16) (s : State) : (dueStatus who p status off result gen epoch head s).ddrW = s.ddrW := rfl
@[simp] theorem dueStatus_ddrB (who : Issuer) (p : Packet) (status off result : Nat) (gen : W32) (epoch head : BitVec 16) (s : State) : (dueStatus who p status off result gen epoch head s).ddrB = s.ddrB := rfl
@[simp] theorem dueStatus_txHeld (who : Issuer) (p : Packet) (status off result : Nat) (gen : W32) (epoch head : BitVec 16) (s : State) : (dueStatus who p status off result gen epoch head s).txHeld = s.txHeld := rfl
@[simp] theorem dueStatus_free (who : Issuer) (p : Packet) (status off result : Nat) (gen : W32) (epoch head : BitVec 16) (s : State) : (dueStatus who p status off result gen epoch head s).free = s.free := rfl
@[simp] theorem dueStatus_bus (who : Issuer) (p : Packet) (status off result : Nat) (gen : W32) (epoch head : BitVec 16) (s : State) : (dueStatus who p status off result gen epoch head s).bus = s.bus := rfl

@[simp] theorem putSq_regs (s : State) (h q : Nat) (x : Sq) : (putSq s h q x).regs = s.regs := rfl
@[simp] theorem putSq_ctrs (s : State) (h q : Nat) (x : Sq) : (putSq s h q x).ctrs = s.ctrs := rfl
@[simp] theorem putSq_snap (s : State) (h q : Nat) (x : Sq) : (putSq s h q x).snap = s.snap := rfl
@[simp] theorem putSq_fwRead (s : State) (h q : Nat) (x : Sq) : (putSq s h q x).fwRead = s.fwRead := rfl
@[simp] theorem putSq_latch (s : State) (h q : Nat) (x : Sq) : (putSq s h q x).latch = s.latch := rfl
@[simp] theorem putSq_rdData (s : State) (h q : Nat) (x : Sq) : (putSq s h q x).rdData = s.rdData := rfl
@[simp] theorem putSq_glb (s : State) (h q : Nat) (x : Sq) : (putSq s h q x).glb = s.glb := rfl
@[simp] theorem putSq_time (s : State) (h q : Nat) (x : Sq) : (putSq s h q x).time = s.time := rfl
@[simp] theorem putSq_ptp (s : State) (h q : Nat) (x : Sq) : (putSq s h q x).ptp = s.ptp := rfl
@[simp] theorem putSq_cmd (s : State) (h q : Nat) (x : Sq) : (putSq s h q x).cmd = s.cmd := rfl
@[simp] theorem putSq_dma (s : State) (h q : Nat) (x : Sq) : (putSq s h q x).dma = s.dma := rfl
@[simp] theorem putSq_sch (s : State) (h q : Nat) (x : Sq) : (putSq s h q x).sch = s.sch := rfl
@[simp] theorem putSq_gate (s : State) (h q : Nat) (x : Sq) : (putSq s h q x).gate = s.gate := rfl
@[simp] theorem putSq_port (s : State) (h q : Nat) (x : Sq) : (putSq s h q x).port = s.port := rfl
@[simp] theorem putSq_strm (s : State) (h q : Nat) (x : Sq) : (putSq s h q x).strm = s.strm := rfl
@[simp] theorem putSq_fld (s : State) (h q : Nat) (x : Sq) : (putSq s h q x).fld = s.fld := rfl
@[simp] theorem putSq_sides (s : State) (h q : Nat) (x : Sq) : (putSq s h q x).sides = s.sides := rfl
@[simp] theorem putSq_jrn (s : State) (h q : Nat) (x : Sq) : (putSq s h q x).jrn = s.jrn := rfl
@[simp] theorem putSq_fab (s : State) (h q : Nat) (x : Sq) : (putSq s h q x).fab = s.fab := rfl
@[simp] theorem putSq_recd (s : State) (h q : Nat) (x : Sq) : (putSq s h q x).recd = s.recd := rfl
@[simp] theorem putSq_evt (s : State) (h q : Nat) (x : Sq) : (putSq s h q x).evt = s.evt := rfl
@[simp] theorem putSq_pcie (s : State) (h q : Nat) (x : Sq) : (putSq s h q x).pcie = s.pcie := rfl
@[simp] theorem putSq_ddrW (s : State) (h q : Nat) (x : Sq) : (putSq s h q x).ddrW = s.ddrW := rfl
@[simp] theorem putSq_ddrB (s : State) (h q : Nat) (x : Sq) : (putSq s h q x).ddrB = s.ddrB := rfl
@[simp] theorem putSq_txHeld (s : State) (h q : Nat) (x : Sq) : (putSq s h q x).txHeld = s.txHeld := rfl
@[simp] theorem putSq_free (s : State) (h q : Nat) (x : Sq) : (putSq s h q x).free = s.free := rfl
@[simp] theorem putSq_bus (s : State) (h q : Nat) (x : Sq) : (putSq s h q x).bus = s.bus := rfl

@[simp] theorem putCq_regs (s : State) (h c : Nat) (x : Cq) : (putCq s h c x).regs = s.regs := rfl
@[simp] theorem putCq_ctrs (s : State) (h c : Nat) (x : Cq) : (putCq s h c x).ctrs = s.ctrs := rfl
@[simp] theorem putCq_snap (s : State) (h c : Nat) (x : Cq) : (putCq s h c x).snap = s.snap := rfl
@[simp] theorem putCq_fwRead (s : State) (h c : Nat) (x : Cq) : (putCq s h c x).fwRead = s.fwRead := rfl
@[simp] theorem putCq_latch (s : State) (h c : Nat) (x : Cq) : (putCq s h c x).latch = s.latch := rfl
@[simp] theorem putCq_rdData (s : State) (h c : Nat) (x : Cq) : (putCq s h c x).rdData = s.rdData := rfl
@[simp] theorem putCq_glb (s : State) (h c : Nat) (x : Cq) : (putCq s h c x).glb = s.glb := rfl
@[simp] theorem putCq_time (s : State) (h c : Nat) (x : Cq) : (putCq s h c x).time = s.time := rfl
@[simp] theorem putCq_ptp (s : State) (h c : Nat) (x : Cq) : (putCq s h c x).ptp = s.ptp := rfl
@[simp] theorem putCq_cmd (s : State) (h c : Nat) (x : Cq) : (putCq s h c x).cmd = s.cmd := rfl
@[simp] theorem putCq_dma (s : State) (h c : Nat) (x : Cq) : (putCq s h c x).dma = s.dma := rfl
@[simp] theorem putCq_sch (s : State) (h c : Nat) (x : Cq) : (putCq s h c x).sch = s.sch := rfl
@[simp] theorem putCq_gate (s : State) (h c : Nat) (x : Cq) : (putCq s h c x).gate = s.gate := rfl
@[simp] theorem putCq_port (s : State) (h c : Nat) (x : Cq) : (putCq s h c x).port = s.port := rfl
@[simp] theorem putCq_strm (s : State) (h c : Nat) (x : Cq) : (putCq s h c x).strm = s.strm := rfl
@[simp] theorem putCq_fld (s : State) (h c : Nat) (x : Cq) : (putCq s h c x).fld = s.fld := rfl
@[simp] theorem putCq_sides (s : State) (h c : Nat) (x : Cq) : (putCq s h c x).sides = s.sides := rfl
@[simp] theorem putCq_jrn (s : State) (h c : Nat) (x : Cq) : (putCq s h c x).jrn = s.jrn := rfl
@[simp] theorem putCq_fab (s : State) (h c : Nat) (x : Cq) : (putCq s h c x).fab = s.fab := rfl
@[simp] theorem putCq_recd (s : State) (h c : Nat) (x : Cq) : (putCq s h c x).recd = s.recd := rfl
@[simp] theorem putCq_evt (s : State) (h c : Nat) (x : Cq) : (putCq s h c x).evt = s.evt := rfl
@[simp] theorem putCq_pcie (s : State) (h c : Nat) (x : Cq) : (putCq s h c x).pcie = s.pcie := rfl
@[simp] theorem putCq_ddrW (s : State) (h c : Nat) (x : Cq) : (putCq s h c x).ddrW = s.ddrW := rfl
@[simp] theorem putCq_ddrB (s : State) (h c : Nat) (x : Cq) : (putCq s h c x).ddrB = s.ddrB := rfl
@[simp] theorem putCq_txHeld (s : State) (h c : Nat) (x : Cq) : (putCq s h c x).txHeld = s.txHeld := rfl
@[simp] theorem putCq_free (s : State) (h c : Nat) (x : Cq) : (putCq s h c x).free = s.free := rfl
@[simp] theorem putCq_bus (s : State) (h c : Nat) (x : Cq) : (putCq s h c x).bus = s.bus := rfl

@[simp] theorem putGate_regs (s : State) (p : Nat) (g : GateP) : (putGate s p g).regs = s.regs := rfl
@[simp] theorem putGate_ctrs (s : State) (p : Nat) (g : GateP) : (putGate s p g).ctrs = s.ctrs := rfl
@[simp] theorem putGate_snap (s : State) (p : Nat) (g : GateP) : (putGate s p g).snap = s.snap := rfl
@[simp] theorem putGate_fwRead (s : State) (p : Nat) (g : GateP) : (putGate s p g).fwRead = s.fwRead := rfl
@[simp] theorem putGate_latch (s : State) (p : Nat) (g : GateP) : (putGate s p g).latch = s.latch := rfl
@[simp] theorem putGate_rdData (s : State) (p : Nat) (g : GateP) : (putGate s p g).rdData = s.rdData := rfl
@[simp] theorem putGate_glb (s : State) (p : Nat) (g : GateP) : (putGate s p g).glb = s.glb := rfl
@[simp] theorem putGate_time (s : State) (p : Nat) (g : GateP) : (putGate s p g).time = s.time := rfl
@[simp] theorem putGate_ptp (s : State) (p : Nat) (g : GateP) : (putGate s p g).ptp = s.ptp := rfl
@[simp] theorem putGate_cmd (s : State) (p : Nat) (g : GateP) : (putGate s p g).cmd = s.cmd := rfl
@[simp] theorem putGate_que (s : State) (p : Nat) (g : GateP) : (putGate s p g).que = s.que := rfl
@[simp] theorem putGate_dma (s : State) (p : Nat) (g : GateP) : (putGate s p g).dma = s.dma := rfl
@[simp] theorem putGate_sch (s : State) (p : Nat) (g : GateP) : (putGate s p g).sch = s.sch := rfl
@[simp] theorem putGate_port (s : State) (p : Nat) (g : GateP) : (putGate s p g).port = s.port := rfl
@[simp] theorem putGate_strm (s : State) (p : Nat) (g : GateP) : (putGate s p g).strm = s.strm := rfl
@[simp] theorem putGate_fld (s : State) (p : Nat) (g : GateP) : (putGate s p g).fld = s.fld := rfl
@[simp] theorem putGate_sides (s : State) (p : Nat) (g : GateP) : (putGate s p g).sides = s.sides := rfl
@[simp] theorem putGate_jrn (s : State) (p : Nat) (g : GateP) : (putGate s p g).jrn = s.jrn := rfl
@[simp] theorem putGate_fab (s : State) (p : Nat) (g : GateP) : (putGate s p g).fab = s.fab := rfl
@[simp] theorem putGate_recd (s : State) (p : Nat) (g : GateP) : (putGate s p g).recd = s.recd := rfl
@[simp] theorem putGate_evt (s : State) (p : Nat) (g : GateP) : (putGate s p g).evt = s.evt := rfl
@[simp] theorem putGate_pcie (s : State) (p : Nat) (g : GateP) : (putGate s p g).pcie = s.pcie := rfl
@[simp] theorem putGate_ddrW (s : State) (p : Nat) (g : GateP) : (putGate s p g).ddrW = s.ddrW := rfl
@[simp] theorem putGate_ddrB (s : State) (p : Nat) (g : GateP) : (putGate s p g).ddrB = s.ddrB := rfl
@[simp] theorem putGate_txHeld (s : State) (p : Nat) (g : GateP) : (putGate s p g).txHeld = s.txHeld := rfl
@[simp] theorem putGate_free (s : State) (p : Nat) (g : GateP) : (putGate s p g).free = s.free := rfl
@[simp] theorem putGate_bus (s : State) (p : Nat) (g : GateP) : (putGate s p g).bus = s.bus := rfl

@[simp] theorem putPort_regs (s : State) (p : Nat) (x : PortSt) : (putPort s p x).regs = s.regs := rfl
@[simp] theorem putPort_ctrs (s : State) (p : Nat) (x : PortSt) : (putPort s p x).ctrs = s.ctrs := rfl
@[simp] theorem putPort_snap (s : State) (p : Nat) (x : PortSt) : (putPort s p x).snap = s.snap := rfl
@[simp] theorem putPort_fwRead (s : State) (p : Nat) (x : PortSt) : (putPort s p x).fwRead = s.fwRead := rfl
@[simp] theorem putPort_latch (s : State) (p : Nat) (x : PortSt) : (putPort s p x).latch = s.latch := rfl
@[simp] theorem putPort_rdData (s : State) (p : Nat) (x : PortSt) : (putPort s p x).rdData = s.rdData := rfl
@[simp] theorem putPort_glb (s : State) (p : Nat) (x : PortSt) : (putPort s p x).glb = s.glb := rfl
@[simp] theorem putPort_time (s : State) (p : Nat) (x : PortSt) : (putPort s p x).time = s.time := rfl
@[simp] theorem putPort_ptp (s : State) (p : Nat) (x : PortSt) : (putPort s p x).ptp = s.ptp := rfl
@[simp] theorem putPort_cmd (s : State) (p : Nat) (x : PortSt) : (putPort s p x).cmd = s.cmd := rfl
@[simp] theorem putPort_que (s : State) (p : Nat) (x : PortSt) : (putPort s p x).que = s.que := rfl
@[simp] theorem putPort_dma (s : State) (p : Nat) (x : PortSt) : (putPort s p x).dma = s.dma := rfl
@[simp] theorem putPort_sch (s : State) (p : Nat) (x : PortSt) : (putPort s p x).sch = s.sch := rfl
@[simp] theorem putPort_gate (s : State) (p : Nat) (x : PortSt) : (putPort s p x).gate = s.gate := rfl
@[simp] theorem putPort_strm (s : State) (p : Nat) (x : PortSt) : (putPort s p x).strm = s.strm := rfl
@[simp] theorem putPort_fld (s : State) (p : Nat) (x : PortSt) : (putPort s p x).fld = s.fld := rfl
@[simp] theorem putPort_sides (s : State) (p : Nat) (x : PortSt) : (putPort s p x).sides = s.sides := rfl
@[simp] theorem putPort_jrn (s : State) (p : Nat) (x : PortSt) : (putPort s p x).jrn = s.jrn := rfl
@[simp] theorem putPort_fab (s : State) (p : Nat) (x : PortSt) : (putPort s p x).fab = s.fab := rfl
@[simp] theorem putPort_recd (s : State) (p : Nat) (x : PortSt) : (putPort s p x).recd = s.recd := rfl
@[simp] theorem putPort_evt (s : State) (p : Nat) (x : PortSt) : (putPort s p x).evt = s.evt := rfl
@[simp] theorem putPort_pcie (s : State) (p : Nat) (x : PortSt) : (putPort s p x).pcie = s.pcie := rfl
@[simp] theorem putPort_ddrW (s : State) (p : Nat) (x : PortSt) : (putPort s p x).ddrW = s.ddrW := rfl
@[simp] theorem putPort_ddrB (s : State) (p : Nat) (x : PortSt) : (putPort s p x).ddrB = s.ddrB := rfl
@[simp] theorem putPort_txHeld (s : State) (p : Nat) (x : PortSt) : (putPort s p x).txHeld = s.txHeld := rfl
@[simp] theorem putPort_free (s : State) (p : Nat) (x : PortSt) : (putPort s p x).free = s.free := rfl
@[simp] theorem putPort_bus (s : State) (p : Nat) (x : PortSt) : (putPort s p x).bus = s.bus := rfl

@[simp] theorem putRec_regs (s : State) (r : Nat) (x : SeqRec) : (putRec s r x).regs = s.regs := rfl
@[simp] theorem putRec_ctrs (s : State) (r : Nat) (x : SeqRec) : (putRec s r x).ctrs = s.ctrs := rfl
@[simp] theorem putRec_snap (s : State) (r : Nat) (x : SeqRec) : (putRec s r x).snap = s.snap := rfl
@[simp] theorem putRec_fwRead (s : State) (r : Nat) (x : SeqRec) : (putRec s r x).fwRead = s.fwRead := rfl
@[simp] theorem putRec_latch (s : State) (r : Nat) (x : SeqRec) : (putRec s r x).latch = s.latch := rfl
@[simp] theorem putRec_rdData (s : State) (r : Nat) (x : SeqRec) : (putRec s r x).rdData = s.rdData := rfl
@[simp] theorem putRec_glb (s : State) (r : Nat) (x : SeqRec) : (putRec s r x).glb = s.glb := rfl
@[simp] theorem putRec_time (s : State) (r : Nat) (x : SeqRec) : (putRec s r x).time = s.time := rfl
@[simp] theorem putRec_ptp (s : State) (r : Nat) (x : SeqRec) : (putRec s r x).ptp = s.ptp := rfl
@[simp] theorem putRec_cmd (s : State) (r : Nat) (x : SeqRec) : (putRec s r x).cmd = s.cmd := rfl
@[simp] theorem putRec_que (s : State) (r : Nat) (x : SeqRec) : (putRec s r x).que = s.que := rfl
@[simp] theorem putRec_dma (s : State) (r : Nat) (x : SeqRec) : (putRec s r x).dma = s.dma := rfl
@[simp] theorem putRec_sch (s : State) (r : Nat) (x : SeqRec) : (putRec s r x).sch = s.sch := rfl
@[simp] theorem putRec_gate (s : State) (r : Nat) (x : SeqRec) : (putRec s r x).gate = s.gate := rfl
@[simp] theorem putRec_port (s : State) (r : Nat) (x : SeqRec) : (putRec s r x).port = s.port := rfl
@[simp] theorem putRec_fld (s : State) (r : Nat) (x : SeqRec) : (putRec s r x).fld = s.fld := rfl
@[simp] theorem putRec_sides (s : State) (r : Nat) (x : SeqRec) : (putRec s r x).sides = s.sides := rfl
@[simp] theorem putRec_jrn (s : State) (r : Nat) (x : SeqRec) : (putRec s r x).jrn = s.jrn := rfl
@[simp] theorem putRec_fab (s : State) (r : Nat) (x : SeqRec) : (putRec s r x).fab = s.fab := rfl
@[simp] theorem putRec_recd (s : State) (r : Nat) (x : SeqRec) : (putRec s r x).recd = s.recd := rfl
@[simp] theorem putRec_evt (s : State) (r : Nat) (x : SeqRec) : (putRec s r x).evt = s.evt := rfl
@[simp] theorem putRec_pcie (s : State) (r : Nat) (x : SeqRec) : (putRec s r x).pcie = s.pcie := rfl
@[simp] theorem putRec_ddrW (s : State) (r : Nat) (x : SeqRec) : (putRec s r x).ddrW = s.ddrW := rfl
@[simp] theorem putRec_ddrB (s : State) (r : Nat) (x : SeqRec) : (putRec s r x).ddrB = s.ddrB := rfl
@[simp] theorem putRec_txHeld (s : State) (r : Nat) (x : SeqRec) : (putRec s r x).txHeld = s.txHeld := rfl
@[simp] theorem putRec_free (s : State) (r : Nat) (x : SeqRec) : (putRec s r x).free = s.free := rfl
@[simp] theorem putRec_bus (s : State) (r : Nat) (x : SeqRec) : (putRec s r x).bus = s.bus := rfl

@[simp] theorem putFlow_regs (s : State) (f : Nat) (x : FlowQ) : (putFlow s f x).regs = s.regs := rfl
@[simp] theorem putFlow_ctrs (s : State) (f : Nat) (x : FlowQ) : (putFlow s f x).ctrs = s.ctrs := rfl
@[simp] theorem putFlow_snap (s : State) (f : Nat) (x : FlowQ) : (putFlow s f x).snap = s.snap := rfl
@[simp] theorem putFlow_fwRead (s : State) (f : Nat) (x : FlowQ) : (putFlow s f x).fwRead = s.fwRead := rfl
@[simp] theorem putFlow_latch (s : State) (f : Nat) (x : FlowQ) : (putFlow s f x).latch = s.latch := rfl
@[simp] theorem putFlow_rdData (s : State) (f : Nat) (x : FlowQ) : (putFlow s f x).rdData = s.rdData := rfl
@[simp] theorem putFlow_glb (s : State) (f : Nat) (x : FlowQ) : (putFlow s f x).glb = s.glb := rfl
@[simp] theorem putFlow_time (s : State) (f : Nat) (x : FlowQ) : (putFlow s f x).time = s.time := rfl
@[simp] theorem putFlow_ptp (s : State) (f : Nat) (x : FlowQ) : (putFlow s f x).ptp = s.ptp := rfl
@[simp] theorem putFlow_cmd (s : State) (f : Nat) (x : FlowQ) : (putFlow s f x).cmd = s.cmd := rfl
@[simp] theorem putFlow_que (s : State) (f : Nat) (x : FlowQ) : (putFlow s f x).que = s.que := rfl
@[simp] theorem putFlow_dma (s : State) (f : Nat) (x : FlowQ) : (putFlow s f x).dma = s.dma := rfl
@[simp] theorem putFlow_gate (s : State) (f : Nat) (x : FlowQ) : (putFlow s f x).gate = s.gate := rfl
@[simp] theorem putFlow_port (s : State) (f : Nat) (x : FlowQ) : (putFlow s f x).port = s.port := rfl
@[simp] theorem putFlow_strm (s : State) (f : Nat) (x : FlowQ) : (putFlow s f x).strm = s.strm := rfl
@[simp] theorem putFlow_fld (s : State) (f : Nat) (x : FlowQ) : (putFlow s f x).fld = s.fld := rfl
@[simp] theorem putFlow_sides (s : State) (f : Nat) (x : FlowQ) : (putFlow s f x).sides = s.sides := rfl
@[simp] theorem putFlow_jrn (s : State) (f : Nat) (x : FlowQ) : (putFlow s f x).jrn = s.jrn := rfl
@[simp] theorem putFlow_fab (s : State) (f : Nat) (x : FlowQ) : (putFlow s f x).fab = s.fab := rfl
@[simp] theorem putFlow_recd (s : State) (f : Nat) (x : FlowQ) : (putFlow s f x).recd = s.recd := rfl
@[simp] theorem putFlow_evt (s : State) (f : Nat) (x : FlowQ) : (putFlow s f x).evt = s.evt := rfl
@[simp] theorem putFlow_pcie (s : State) (f : Nat) (x : FlowQ) : (putFlow s f x).pcie = s.pcie := rfl
@[simp] theorem putFlow_ddrW (s : State) (f : Nat) (x : FlowQ) : (putFlow s f x).ddrW = s.ddrW := rfl
@[simp] theorem putFlow_ddrB (s : State) (f : Nat) (x : FlowQ) : (putFlow s f x).ddrB = s.ddrB := rfl
@[simp] theorem putFlow_txHeld (s : State) (f : Nat) (x : FlowQ) : (putFlow s f x).txHeld = s.txHeld := rfl
@[simp] theorem putFlow_free (s : State) (f : Nat) (x : FlowQ) : (putFlow s f x).free = s.free := rfl
@[simp] theorem putFlow_bus (s : State) (f : Nat) (x : FlowQ) : (putFlow s f x).bus = s.bus := rfl

@[simp] theorem putFld_regs (s : State) (n : Nat) (x : FldP) : (putFld s n x).regs = s.regs := rfl
@[simp] theorem putFld_ctrs (s : State) (n : Nat) (x : FldP) : (putFld s n x).ctrs = s.ctrs := rfl
@[simp] theorem putFld_snap (s : State) (n : Nat) (x : FldP) : (putFld s n x).snap = s.snap := rfl
@[simp] theorem putFld_fwRead (s : State) (n : Nat) (x : FldP) : (putFld s n x).fwRead = s.fwRead := rfl
@[simp] theorem putFld_latch (s : State) (n : Nat) (x : FldP) : (putFld s n x).latch = s.latch := rfl
@[simp] theorem putFld_rdData (s : State) (n : Nat) (x : FldP) : (putFld s n x).rdData = s.rdData := rfl
@[simp] theorem putFld_glb (s : State) (n : Nat) (x : FldP) : (putFld s n x).glb = s.glb := rfl
@[simp] theorem putFld_time (s : State) (n : Nat) (x : FldP) : (putFld s n x).time = s.time := rfl
@[simp] theorem putFld_ptp (s : State) (n : Nat) (x : FldP) : (putFld s n x).ptp = s.ptp := rfl
@[simp] theorem putFld_cmd (s : State) (n : Nat) (x : FldP) : (putFld s n x).cmd = s.cmd := rfl
@[simp] theorem putFld_que (s : State) (n : Nat) (x : FldP) : (putFld s n x).que = s.que := rfl
@[simp] theorem putFld_dma (s : State) (n : Nat) (x : FldP) : (putFld s n x).dma = s.dma := rfl
@[simp] theorem putFld_sch (s : State) (n : Nat) (x : FldP) : (putFld s n x).sch = s.sch := rfl
@[simp] theorem putFld_gate (s : State) (n : Nat) (x : FldP) : (putFld s n x).gate = s.gate := rfl
@[simp] theorem putFld_port (s : State) (n : Nat) (x : FldP) : (putFld s n x).port = s.port := rfl
@[simp] theorem putFld_strm (s : State) (n : Nat) (x : FldP) : (putFld s n x).strm = s.strm := rfl
@[simp] theorem putFld_sides (s : State) (n : Nat) (x : FldP) : (putFld s n x).sides = s.sides := rfl
@[simp] theorem putFld_jrn (s : State) (n : Nat) (x : FldP) : (putFld s n x).jrn = s.jrn := rfl
@[simp] theorem putFld_fab (s : State) (n : Nat) (x : FldP) : (putFld s n x).fab = s.fab := rfl
@[simp] theorem putFld_recd (s : State) (n : Nat) (x : FldP) : (putFld s n x).recd = s.recd := rfl
@[simp] theorem putFld_evt (s : State) (n : Nat) (x : FldP) : (putFld s n x).evt = s.evt := rfl
@[simp] theorem putFld_pcie (s : State) (n : Nat) (x : FldP) : (putFld s n x).pcie = s.pcie := rfl
@[simp] theorem putFld_ddrW (s : State) (n : Nat) (x : FldP) : (putFld s n x).ddrW = s.ddrW := rfl
@[simp] theorem putFld_ddrB (s : State) (n : Nat) (x : FldP) : (putFld s n x).ddrB = s.ddrB := rfl
@[simp] theorem putFld_txHeld (s : State) (n : Nat) (x : FldP) : (putFld s n x).txHeld = s.txHeld := rfl
@[simp] theorem putFld_free (s : State) (n : Nat) (x : FldP) : (putFld s n x).free = s.free := rfl
@[simp] theorem putFld_bus (s : State) (n : Nat) (x : FldP) : (putFld s n x).bus = s.bus := rfl

@[simp] theorem putAgg_regs (s : State) (a : Nat) (x : Agg) : (putAgg s a x).regs = s.regs := rfl
@[simp] theorem putAgg_ctrs (s : State) (a : Nat) (x : Agg) : (putAgg s a x).ctrs = s.ctrs := rfl
@[simp] theorem putAgg_snap (s : State) (a : Nat) (x : Agg) : (putAgg s a x).snap = s.snap := rfl
@[simp] theorem putAgg_fwRead (s : State) (a : Nat) (x : Agg) : (putAgg s a x).fwRead = s.fwRead := rfl
@[simp] theorem putAgg_latch (s : State) (a : Nat) (x : Agg) : (putAgg s a x).latch = s.latch := rfl
@[simp] theorem putAgg_rdData (s : State) (a : Nat) (x : Agg) : (putAgg s a x).rdData = s.rdData := rfl
@[simp] theorem putAgg_glb (s : State) (a : Nat) (x : Agg) : (putAgg s a x).glb = s.glb := rfl
@[simp] theorem putAgg_time (s : State) (a : Nat) (x : Agg) : (putAgg s a x).time = s.time := rfl
@[simp] theorem putAgg_ptp (s : State) (a : Nat) (x : Agg) : (putAgg s a x).ptp = s.ptp := rfl
@[simp] theorem putAgg_cmd (s : State) (a : Nat) (x : Agg) : (putAgg s a x).cmd = s.cmd := rfl
@[simp] theorem putAgg_que (s : State) (a : Nat) (x : Agg) : (putAgg s a x).que = s.que := rfl
@[simp] theorem putAgg_dma (s : State) (a : Nat) (x : Agg) : (putAgg s a x).dma = s.dma := rfl
@[simp] theorem putAgg_sch (s : State) (a : Nat) (x : Agg) : (putAgg s a x).sch = s.sch := rfl
@[simp] theorem putAgg_gate (s : State) (a : Nat) (x : Agg) : (putAgg s a x).gate = s.gate := rfl
@[simp] theorem putAgg_port (s : State) (a : Nat) (x : Agg) : (putAgg s a x).port = s.port := rfl
@[simp] theorem putAgg_strm (s : State) (a : Nat) (x : Agg) : (putAgg s a x).strm = s.strm := rfl
@[simp] theorem putAgg_sides (s : State) (a : Nat) (x : Agg) : (putAgg s a x).sides = s.sides := rfl
@[simp] theorem putAgg_jrn (s : State) (a : Nat) (x : Agg) : (putAgg s a x).jrn = s.jrn := rfl
@[simp] theorem putAgg_fab (s : State) (a : Nat) (x : Agg) : (putAgg s a x).fab = s.fab := rfl
@[simp] theorem putAgg_recd (s : State) (a : Nat) (x : Agg) : (putAgg s a x).recd = s.recd := rfl
@[simp] theorem putAgg_evt (s : State) (a : Nat) (x : Agg) : (putAgg s a x).evt = s.evt := rfl
@[simp] theorem putAgg_pcie (s : State) (a : Nat) (x : Agg) : (putAgg s a x).pcie = s.pcie := rfl
@[simp] theorem putAgg_ddrW (s : State) (a : Nat) (x : Agg) : (putAgg s a x).ddrW = s.ddrW := rfl
@[simp] theorem putAgg_ddrB (s : State) (a : Nat) (x : Agg) : (putAgg s a x).ddrB = s.ddrB := rfl
@[simp] theorem putAgg_txHeld (s : State) (a : Nat) (x : Agg) : (putAgg s a x).txHeld = s.txHeld := rfl
@[simp] theorem putAgg_free (s : State) (a : Nat) (x : Agg) : (putAgg s a x).free = s.free := rfl
@[simp] theorem putAgg_bus (s : State) (a : Nat) (x : Agg) : (putAgg s a x).bus = s.bus := rfl

@[simp] theorem putSlot_regs (s : State) (k : Nat) (x : DomSlot) : (putSlot s k x).regs = s.regs := by unfold putSlot; split <;> rfl
@[simp] theorem putSlot_ctrs (s : State) (k : Nat) (x : DomSlot) : (putSlot s k x).ctrs = s.ctrs := by unfold putSlot; split <;> rfl
@[simp] theorem putSlot_snap (s : State) (k : Nat) (x : DomSlot) : (putSlot s k x).snap = s.snap := by unfold putSlot; split <;> rfl
@[simp] theorem putSlot_fwRead (s : State) (k : Nat) (x : DomSlot) : (putSlot s k x).fwRead = s.fwRead := by unfold putSlot; split <;> rfl
@[simp] theorem putSlot_latch (s : State) (k : Nat) (x : DomSlot) : (putSlot s k x).latch = s.latch := by unfold putSlot; split <;> rfl
@[simp] theorem putSlot_rdData (s : State) (k : Nat) (x : DomSlot) : (putSlot s k x).rdData = s.rdData := by unfold putSlot; split <;> rfl
@[simp] theorem putSlot_glb (s : State) (k : Nat) (x : DomSlot) : (putSlot s k x).glb = s.glb := by unfold putSlot; split <;> rfl
@[simp] theorem putSlot_time (s : State) (k : Nat) (x : DomSlot) : (putSlot s k x).time = s.time := by unfold putSlot; split <;> rfl
@[simp] theorem putSlot_cmd (s : State) (k : Nat) (x : DomSlot) : (putSlot s k x).cmd = s.cmd := by unfold putSlot; split <;> rfl
@[simp] theorem putSlot_que (s : State) (k : Nat) (x : DomSlot) : (putSlot s k x).que = s.que := by unfold putSlot; split <;> rfl
@[simp] theorem putSlot_dma (s : State) (k : Nat) (x : DomSlot) : (putSlot s k x).dma = s.dma := by unfold putSlot; split <;> rfl
@[simp] theorem putSlot_sch (s : State) (k : Nat) (x : DomSlot) : (putSlot s k x).sch = s.sch := by unfold putSlot; split <;> rfl
@[simp] theorem putSlot_gate (s : State) (k : Nat) (x : DomSlot) : (putSlot s k x).gate = s.gate := by unfold putSlot; split <;> rfl
@[simp] theorem putSlot_port (s : State) (k : Nat) (x : DomSlot) : (putSlot s k x).port = s.port := by unfold putSlot; split <;> rfl
@[simp] theorem putSlot_strm (s : State) (k : Nat) (x : DomSlot) : (putSlot s k x).strm = s.strm := by unfold putSlot; split <;> rfl
@[simp] theorem putSlot_fld (s : State) (k : Nat) (x : DomSlot) : (putSlot s k x).fld = s.fld := by unfold putSlot; split <;> rfl
@[simp] theorem putSlot_sides (s : State) (k : Nat) (x : DomSlot) : (putSlot s k x).sides = s.sides := by unfold putSlot; split <;> rfl
@[simp] theorem putSlot_jrn (s : State) (k : Nat) (x : DomSlot) : (putSlot s k x).jrn = s.jrn := by unfold putSlot; split <;> rfl
@[simp] theorem putSlot_fab (s : State) (k : Nat) (x : DomSlot) : (putSlot s k x).fab = s.fab := by unfold putSlot; split <;> rfl
@[simp] theorem putSlot_recd (s : State) (k : Nat) (x : DomSlot) : (putSlot s k x).recd = s.recd := by unfold putSlot; split <;> rfl
@[simp] theorem putSlot_evt (s : State) (k : Nat) (x : DomSlot) : (putSlot s k x).evt = s.evt := by unfold putSlot; split <;> rfl
@[simp] theorem putSlot_pcie (s : State) (k : Nat) (x : DomSlot) : (putSlot s k x).pcie = s.pcie := by unfold putSlot; split <;> rfl
@[simp] theorem putSlot_ddrW (s : State) (k : Nat) (x : DomSlot) : (putSlot s k x).ddrW = s.ddrW := by unfold putSlot; split <;> rfl
@[simp] theorem putSlot_ddrB (s : State) (k : Nat) (x : DomSlot) : (putSlot s k x).ddrB = s.ddrB := by unfold putSlot; split <;> rfl
@[simp] theorem putSlot_txHeld (s : State) (k : Nat) (x : DomSlot) : (putSlot s k x).txHeld = s.txHeld := by unfold putSlot; split <;> rfl
@[simp] theorem putSlot_free (s : State) (k : Nat) (x : DomSlot) : (putSlot s k x).free = s.free := by unfold putSlot; split <;> rfl
@[simp] theorem putSlot_bus (s : State) (k : Nat) (x : DomSlot) : (putSlot s k x).bus = s.bus := by unfold putSlot; split <;> rfl

@[simp] theorem putOp_regs (s : State) (t : Nat) (o : Op) : (putOp s t o).regs = s.regs := rfl
@[simp] theorem putOp_ctrs (s : State) (t : Nat) (o : Op) : (putOp s t o).ctrs = s.ctrs := rfl
@[simp] theorem putOp_snap (s : State) (t : Nat) (o : Op) : (putOp s t o).snap = s.snap := rfl
@[simp] theorem putOp_fwRead (s : State) (t : Nat) (o : Op) : (putOp s t o).fwRead = s.fwRead := rfl
@[simp] theorem putOp_latch (s : State) (t : Nat) (o : Op) : (putOp s t o).latch = s.latch := rfl
@[simp] theorem putOp_rdData (s : State) (t : Nat) (o : Op) : (putOp s t o).rdData = s.rdData := rfl
@[simp] theorem putOp_glb (s : State) (t : Nat) (o : Op) : (putOp s t o).glb = s.glb := rfl
@[simp] theorem putOp_time (s : State) (t : Nat) (o : Op) : (putOp s t o).time = s.time := rfl
@[simp] theorem putOp_ptp (s : State) (t : Nat) (o : Op) : (putOp s t o).ptp = s.ptp := rfl
@[simp] theorem putOp_cmd (s : State) (t : Nat) (o : Op) : (putOp s t o).cmd = s.cmd := rfl
@[simp] theorem putOp_dma (s : State) (t : Nat) (o : Op) : (putOp s t o).dma = s.dma := rfl
@[simp] theorem putOp_sch (s : State) (t : Nat) (o : Op) : (putOp s t o).sch = s.sch := rfl
@[simp] theorem putOp_gate (s : State) (t : Nat) (o : Op) : (putOp s t o).gate = s.gate := rfl
@[simp] theorem putOp_port (s : State) (t : Nat) (o : Op) : (putOp s t o).port = s.port := rfl
@[simp] theorem putOp_strm (s : State) (t : Nat) (o : Op) : (putOp s t o).strm = s.strm := rfl
@[simp] theorem putOp_fld (s : State) (t : Nat) (o : Op) : (putOp s t o).fld = s.fld := rfl
@[simp] theorem putOp_sides (s : State) (t : Nat) (o : Op) : (putOp s t o).sides = s.sides := rfl
@[simp] theorem putOp_jrn (s : State) (t : Nat) (o : Op) : (putOp s t o).jrn = s.jrn := rfl
@[simp] theorem putOp_fab (s : State) (t : Nat) (o : Op) : (putOp s t o).fab = s.fab := rfl
@[simp] theorem putOp_recd (s : State) (t : Nat) (o : Op) : (putOp s t o).recd = s.recd := rfl
@[simp] theorem putOp_evt (s : State) (t : Nat) (o : Op) : (putOp s t o).evt = s.evt := rfl
@[simp] theorem putOp_pcie (s : State) (t : Nat) (o : Op) : (putOp s t o).pcie = s.pcie := rfl
@[simp] theorem putOp_ddrW (s : State) (t : Nat) (o : Op) : (putOp s t o).ddrW = s.ddrW := rfl
@[simp] theorem putOp_ddrB (s : State) (t : Nat) (o : Op) : (putOp s t o).ddrB = s.ddrB := rfl
@[simp] theorem putOp_txHeld (s : State) (t : Nat) (o : Op) : (putOp s t o).txHeld = s.txHeld := rfl
@[simp] theorem putOp_free (s : State) (t : Nat) (o : Op) : (putOp s t o).free = s.free := rfl
@[simp] theorem putOp_bus (s : State) (t : Nat) (o : Op) : (putOp s t o).bus = s.bus := rfl

@[simp] theorem putChan_regs (s : State) (c : Nat) (x : ChanSt) : (putChan s c x).regs = s.regs := rfl
@[simp] theorem putChan_ctrs (s : State) (c : Nat) (x : ChanSt) : (putChan s c x).ctrs = s.ctrs := rfl
@[simp] theorem putChan_snap (s : State) (c : Nat) (x : ChanSt) : (putChan s c x).snap = s.snap := rfl
@[simp] theorem putChan_fwRead (s : State) (c : Nat) (x : ChanSt) : (putChan s c x).fwRead = s.fwRead := rfl
@[simp] theorem putChan_latch (s : State) (c : Nat) (x : ChanSt) : (putChan s c x).latch = s.latch := rfl
@[simp] theorem putChan_rdData (s : State) (c : Nat) (x : ChanSt) : (putChan s c x).rdData = s.rdData := rfl
@[simp] theorem putChan_glb (s : State) (c : Nat) (x : ChanSt) : (putChan s c x).glb = s.glb := rfl
@[simp] theorem putChan_time (s : State) (c : Nat) (x : ChanSt) : (putChan s c x).time = s.time := rfl
@[simp] theorem putChan_ptp (s : State) (c : Nat) (x : ChanSt) : (putChan s c x).ptp = s.ptp := rfl
@[simp] theorem putChan_cmd (s : State) (c : Nat) (x : ChanSt) : (putChan s c x).cmd = s.cmd := rfl
@[simp] theorem putChan_que (s : State) (c : Nat) (x : ChanSt) : (putChan s c x).que = s.que := rfl
@[simp] theorem putChan_sch (s : State) (c : Nat) (x : ChanSt) : (putChan s c x).sch = s.sch := rfl
@[simp] theorem putChan_gate (s : State) (c : Nat) (x : ChanSt) : (putChan s c x).gate = s.gate := rfl
@[simp] theorem putChan_port (s : State) (c : Nat) (x : ChanSt) : (putChan s c x).port = s.port := rfl
@[simp] theorem putChan_strm (s : State) (c : Nat) (x : ChanSt) : (putChan s c x).strm = s.strm := rfl
@[simp] theorem putChan_fld (s : State) (c : Nat) (x : ChanSt) : (putChan s c x).fld = s.fld := rfl
@[simp] theorem putChan_sides (s : State) (c : Nat) (x : ChanSt) : (putChan s c x).sides = s.sides := rfl
@[simp] theorem putChan_jrn (s : State) (c : Nat) (x : ChanSt) : (putChan s c x).jrn = s.jrn := rfl
@[simp] theorem putChan_fab (s : State) (c : Nat) (x : ChanSt) : (putChan s c x).fab = s.fab := rfl
@[simp] theorem putChan_recd (s : State) (c : Nat) (x : ChanSt) : (putChan s c x).recd = s.recd := rfl
@[simp] theorem putChan_evt (s : State) (c : Nat) (x : ChanSt) : (putChan s c x).evt = s.evt := rfl
@[simp] theorem putChan_pcie (s : State) (c : Nat) (x : ChanSt) : (putChan s c x).pcie = s.pcie := rfl
@[simp] theorem putChan_ddrW (s : State) (c : Nat) (x : ChanSt) : (putChan s c x).ddrW = s.ddrW := rfl
@[simp] theorem putChan_ddrB (s : State) (c : Nat) (x : ChanSt) : (putChan s c x).ddrB = s.ddrB := rfl
@[simp] theorem putChan_txHeld (s : State) (c : Nat) (x : ChanSt) : (putChan s c x).txHeld = s.txHeld := rfl
@[simp] theorem putChan_free (s : State) (c : Nat) (x : ChanSt) : (putChan s c x).free = s.free := rfl
@[simp] theorem putChan_bus (s : State) (c : Nat) (x : ChanSt) : (putChan s c x).bus = s.bus := rfl

@[simp] theorem putReader_regs (s : State) (r : Reader) (x : RecReader) : (putReader s r x).regs = s.regs := rfl
@[simp] theorem putReader_ctrs (s : State) (r : Reader) (x : RecReader) : (putReader s r x).ctrs = s.ctrs := rfl
@[simp] theorem putReader_snap (s : State) (r : Reader) (x : RecReader) : (putReader s r x).snap = s.snap := rfl
@[simp] theorem putReader_fwRead (s : State) (r : Reader) (x : RecReader) : (putReader s r x).fwRead = s.fwRead := rfl
@[simp] theorem putReader_latch (s : State) (r : Reader) (x : RecReader) : (putReader s r x).latch = s.latch := rfl
@[simp] theorem putReader_rdData (s : State) (r : Reader) (x : RecReader) : (putReader s r x).rdData = s.rdData := rfl
@[simp] theorem putReader_glb (s : State) (r : Reader) (x : RecReader) : (putReader s r x).glb = s.glb := rfl
@[simp] theorem putReader_time (s : State) (r : Reader) (x : RecReader) : (putReader s r x).time = s.time := rfl
@[simp] theorem putReader_ptp (s : State) (r : Reader) (x : RecReader) : (putReader s r x).ptp = s.ptp := rfl
@[simp] theorem putReader_cmd (s : State) (r : Reader) (x : RecReader) : (putReader s r x).cmd = s.cmd := rfl
@[simp] theorem putReader_que (s : State) (r : Reader) (x : RecReader) : (putReader s r x).que = s.que := rfl
@[simp] theorem putReader_dma (s : State) (r : Reader) (x : RecReader) : (putReader s r x).dma = s.dma := rfl
@[simp] theorem putReader_sch (s : State) (r : Reader) (x : RecReader) : (putReader s r x).sch = s.sch := rfl
@[simp] theorem putReader_gate (s : State) (r : Reader) (x : RecReader) : (putReader s r x).gate = s.gate := rfl
@[simp] theorem putReader_port (s : State) (r : Reader) (x : RecReader) : (putReader s r x).port = s.port := rfl
@[simp] theorem putReader_strm (s : State) (r : Reader) (x : RecReader) : (putReader s r x).strm = s.strm := rfl
@[simp] theorem putReader_fld (s : State) (r : Reader) (x : RecReader) : (putReader s r x).fld = s.fld := rfl
@[simp] theorem putReader_sides (s : State) (r : Reader) (x : RecReader) : (putReader s r x).sides = s.sides := rfl
@[simp] theorem putReader_jrn (s : State) (r : Reader) (x : RecReader) : (putReader s r x).jrn = s.jrn := rfl
@[simp] theorem putReader_fab (s : State) (r : Reader) (x : RecReader) : (putReader s r x).fab = s.fab := rfl
@[simp] theorem putReader_evt (s : State) (r : Reader) (x : RecReader) : (putReader s r x).evt = s.evt := rfl
@[simp] theorem putReader_pcie (s : State) (r : Reader) (x : RecReader) : (putReader s r x).pcie = s.pcie := rfl
@[simp] theorem putReader_ddrW (s : State) (r : Reader) (x : RecReader) : (putReader s r x).ddrW = s.ddrW := rfl
@[simp] theorem putReader_ddrB (s : State) (r : Reader) (x : RecReader) : (putReader s r x).ddrB = s.ddrB := rfl
@[simp] theorem putReader_txHeld (s : State) (r : Reader) (x : RecReader) : (putReader s r x).txHeld = s.txHeld := rfl
@[simp] theorem putReader_free (s : State) (r : Reader) (x : RecReader) : (putReader s r x).free = s.free := rfl
@[simp] theorem putReader_bus (s : State) (r : Reader) (x : RecReader) : (putReader s r x).bus = s.bus := rfl

@[simp] theorem putTxts_regs (s : State) (p : Nat) (q : TxTsQ) : (putTxts s p q).regs = s.regs := rfl
@[simp] theorem putTxts_ctrs (s : State) (p : Nat) (q : TxTsQ) : (putTxts s p q).ctrs = s.ctrs := rfl
@[simp] theorem putTxts_snap (s : State) (p : Nat) (q : TxTsQ) : (putTxts s p q).snap = s.snap := rfl
@[simp] theorem putTxts_fwRead (s : State) (p : Nat) (q : TxTsQ) : (putTxts s p q).fwRead = s.fwRead := rfl
@[simp] theorem putTxts_latch (s : State) (p : Nat) (q : TxTsQ) : (putTxts s p q).latch = s.latch := rfl
@[simp] theorem putTxts_rdData (s : State) (p : Nat) (q : TxTsQ) : (putTxts s p q).rdData = s.rdData := rfl
@[simp] theorem putTxts_glb (s : State) (p : Nat) (q : TxTsQ) : (putTxts s p q).glb = s.glb := rfl
@[simp] theorem putTxts_ptp (s : State) (p : Nat) (q : TxTsQ) : (putTxts s p q).ptp = s.ptp := rfl
@[simp] theorem putTxts_cmd (s : State) (p : Nat) (q : TxTsQ) : (putTxts s p q).cmd = s.cmd := rfl
@[simp] theorem putTxts_que (s : State) (p : Nat) (q : TxTsQ) : (putTxts s p q).que = s.que := rfl
@[simp] theorem putTxts_dma (s : State) (p : Nat) (q : TxTsQ) : (putTxts s p q).dma = s.dma := rfl
@[simp] theorem putTxts_sch (s : State) (p : Nat) (q : TxTsQ) : (putTxts s p q).sch = s.sch := rfl
@[simp] theorem putTxts_gate (s : State) (p : Nat) (q : TxTsQ) : (putTxts s p q).gate = s.gate := rfl
@[simp] theorem putTxts_port (s : State) (p : Nat) (q : TxTsQ) : (putTxts s p q).port = s.port := rfl
@[simp] theorem putTxts_strm (s : State) (p : Nat) (q : TxTsQ) : (putTxts s p q).strm = s.strm := rfl
@[simp] theorem putTxts_fld (s : State) (p : Nat) (q : TxTsQ) : (putTxts s p q).fld = s.fld := rfl
@[simp] theorem putTxts_sides (s : State) (p : Nat) (q : TxTsQ) : (putTxts s p q).sides = s.sides := rfl
@[simp] theorem putTxts_jrn (s : State) (p : Nat) (q : TxTsQ) : (putTxts s p q).jrn = s.jrn := rfl
@[simp] theorem putTxts_fab (s : State) (p : Nat) (q : TxTsQ) : (putTxts s p q).fab = s.fab := rfl
@[simp] theorem putTxts_recd (s : State) (p : Nat) (q : TxTsQ) : (putTxts s p q).recd = s.recd := rfl
@[simp] theorem putTxts_evt (s : State) (p : Nat) (q : TxTsQ) : (putTxts s p q).evt = s.evt := rfl
@[simp] theorem putTxts_pcie (s : State) (p : Nat) (q : TxTsQ) : (putTxts s p q).pcie = s.pcie := rfl
@[simp] theorem putTxts_ddrW (s : State) (p : Nat) (q : TxTsQ) : (putTxts s p q).ddrW = s.ddrW := rfl
@[simp] theorem putTxts_ddrB (s : State) (p : Nat) (q : TxTsQ) : (putTxts s p q).ddrB = s.ddrB := rfl
@[simp] theorem putTxts_txHeld (s : State) (p : Nat) (q : TxTsQ) : (putTxts s p q).txHeld = s.txHeld := rfl
@[simp] theorem putTxts_free (s : State) (p : Nat) (q : TxTsQ) : (putTxts s p q).free = s.free := rfl
@[simp] theorem putTxts_bus (s : State) (p : Nat) (q : TxTsQ) : (putTxts s p q).bus = s.bus := rfl

@[simp] theorem putRead_regs (r : Reader) (v : W32) (s : State) : (putRead r v s).regs = s.regs := rfl
@[simp] theorem putRead_ctrs (r : Reader) (v : W32) (s : State) : (putRead r v s).ctrs = s.ctrs := rfl
@[simp] theorem putRead_snap (r : Reader) (v : W32) (s : State) : (putRead r v s).snap = s.snap := rfl
@[simp] theorem putRead_fwRead (r : Reader) (v : W32) (s : State) : (putRead r v s).fwRead = s.fwRead := rfl
@[simp] theorem putRead_latch (r : Reader) (v : W32) (s : State) : (putRead r v s).latch = s.latch := rfl
@[simp] theorem putRead_glb (r : Reader) (v : W32) (s : State) : (putRead r v s).glb = s.glb := rfl
@[simp] theorem putRead_time (r : Reader) (v : W32) (s : State) : (putRead r v s).time = s.time := rfl
@[simp] theorem putRead_ptp (r : Reader) (v : W32) (s : State) : (putRead r v s).ptp = s.ptp := rfl
@[simp] theorem putRead_cmd (r : Reader) (v : W32) (s : State) : (putRead r v s).cmd = s.cmd := rfl
@[simp] theorem putRead_que (r : Reader) (v : W32) (s : State) : (putRead r v s).que = s.que := rfl
@[simp] theorem putRead_dma (r : Reader) (v : W32) (s : State) : (putRead r v s).dma = s.dma := rfl
@[simp] theorem putRead_sch (r : Reader) (v : W32) (s : State) : (putRead r v s).sch = s.sch := rfl
@[simp] theorem putRead_gate (r : Reader) (v : W32) (s : State) : (putRead r v s).gate = s.gate := rfl
@[simp] theorem putRead_port (r : Reader) (v : W32) (s : State) : (putRead r v s).port = s.port := rfl
@[simp] theorem putRead_strm (r : Reader) (v : W32) (s : State) : (putRead r v s).strm = s.strm := rfl
@[simp] theorem putRead_fld (r : Reader) (v : W32) (s : State) : (putRead r v s).fld = s.fld := rfl
@[simp] theorem putRead_sides (r : Reader) (v : W32) (s : State) : (putRead r v s).sides = s.sides := rfl
@[simp] theorem putRead_jrn (r : Reader) (v : W32) (s : State) : (putRead r v s).jrn = s.jrn := rfl
@[simp] theorem putRead_fab (r : Reader) (v : W32) (s : State) : (putRead r v s).fab = s.fab := rfl
@[simp] theorem putRead_recd (r : Reader) (v : W32) (s : State) : (putRead r v s).recd = s.recd := rfl
@[simp] theorem putRead_evt (r : Reader) (v : W32) (s : State) : (putRead r v s).evt = s.evt := rfl
@[simp] theorem putRead_pcie (r : Reader) (v : W32) (s : State) : (putRead r v s).pcie = s.pcie := rfl
@[simp] theorem putRead_ddrW (r : Reader) (v : W32) (s : State) : (putRead r v s).ddrW = s.ddrW := rfl
@[simp] theorem putRead_ddrB (r : Reader) (v : W32) (s : State) : (putRead r v s).ddrB = s.ddrB := rfl
@[simp] theorem putRead_txHeld (r : Reader) (v : W32) (s : State) : (putRead r v s).txHeld = s.txHeld := rfl
@[simp] theorem putRead_free (r : Reader) (v : W32) (s : State) : (putRead r v s).free = s.free := rfl
@[simp] theorem putRead_bus (r : Reader) (v : W32) (s : State) : (putRead r v s).bus = s.bus := rfl

@[simp] theorem latchPut_regs (r : Reader) (addr : Nat) (v : Nat) (s : State) : (latchPut r addr v s).regs = s.regs := rfl
@[simp] theorem latchPut_ctrs (r : Reader) (addr : Nat) (v : Nat) (s : State) : (latchPut r addr v s).ctrs = s.ctrs := rfl
@[simp] theorem latchPut_snap (r : Reader) (addr : Nat) (v : Nat) (s : State) : (latchPut r addr v s).snap = s.snap := rfl
@[simp] theorem latchPut_fwRead (r : Reader) (addr : Nat) (v : Nat) (s : State) : (latchPut r addr v s).fwRead = s.fwRead := rfl
@[simp] theorem latchPut_rdData (r : Reader) (addr : Nat) (v : Nat) (s : State) : (latchPut r addr v s).rdData = s.rdData := rfl
@[simp] theorem latchPut_glb (r : Reader) (addr : Nat) (v : Nat) (s : State) : (latchPut r addr v s).glb = s.glb := rfl
@[simp] theorem latchPut_time (r : Reader) (addr : Nat) (v : Nat) (s : State) : (latchPut r addr v s).time = s.time := rfl
@[simp] theorem latchPut_ptp (r : Reader) (addr : Nat) (v : Nat) (s : State) : (latchPut r addr v s).ptp = s.ptp := rfl
@[simp] theorem latchPut_cmd (r : Reader) (addr : Nat) (v : Nat) (s : State) : (latchPut r addr v s).cmd = s.cmd := rfl
@[simp] theorem latchPut_que (r : Reader) (addr : Nat) (v : Nat) (s : State) : (latchPut r addr v s).que = s.que := rfl
@[simp] theorem latchPut_dma (r : Reader) (addr : Nat) (v : Nat) (s : State) : (latchPut r addr v s).dma = s.dma := rfl
@[simp] theorem latchPut_sch (r : Reader) (addr : Nat) (v : Nat) (s : State) : (latchPut r addr v s).sch = s.sch := rfl
@[simp] theorem latchPut_gate (r : Reader) (addr : Nat) (v : Nat) (s : State) : (latchPut r addr v s).gate = s.gate := rfl
@[simp] theorem latchPut_port (r : Reader) (addr : Nat) (v : Nat) (s : State) : (latchPut r addr v s).port = s.port := rfl
@[simp] theorem latchPut_strm (r : Reader) (addr : Nat) (v : Nat) (s : State) : (latchPut r addr v s).strm = s.strm := rfl
@[simp] theorem latchPut_fld (r : Reader) (addr : Nat) (v : Nat) (s : State) : (latchPut r addr v s).fld = s.fld := rfl
@[simp] theorem latchPut_sides (r : Reader) (addr : Nat) (v : Nat) (s : State) : (latchPut r addr v s).sides = s.sides := rfl
@[simp] theorem latchPut_jrn (r : Reader) (addr : Nat) (v : Nat) (s : State) : (latchPut r addr v s).jrn = s.jrn := rfl
@[simp] theorem latchPut_fab (r : Reader) (addr : Nat) (v : Nat) (s : State) : (latchPut r addr v s).fab = s.fab := rfl
@[simp] theorem latchPut_recd (r : Reader) (addr : Nat) (v : Nat) (s : State) : (latchPut r addr v s).recd = s.recd := rfl
@[simp] theorem latchPut_evt (r : Reader) (addr : Nat) (v : Nat) (s : State) : (latchPut r addr v s).evt = s.evt := rfl
@[simp] theorem latchPut_pcie (r : Reader) (addr : Nat) (v : Nat) (s : State) : (latchPut r addr v s).pcie = s.pcie := rfl
@[simp] theorem latchPut_ddrW (r : Reader) (addr : Nat) (v : Nat) (s : State) : (latchPut r addr v s).ddrW = s.ddrW := rfl
@[simp] theorem latchPut_ddrB (r : Reader) (addr : Nat) (v : Nat) (s : State) : (latchPut r addr v s).ddrB = s.ddrB := rfl
@[simp] theorem latchPut_txHeld (r : Reader) (addr : Nat) (v : Nat) (s : State) : (latchPut r addr v s).txHeld = s.txHeld := rfl
@[simp] theorem latchPut_free (r : Reader) (addr : Nat) (v : Nat) (s : State) : (latchPut r addr v s).free = s.free := rfl
@[simp] theorem latchPut_bus (r : Reader) (addr : Nat) (v : Nat) (s : State) : (latchPut r addr v s).bus = s.bus := rfl

@[simp] theorem putLink_regs (h : Nat) (l : Link) (s : State) : (putLink h l s).regs = s.regs := rfl
@[simp] theorem putLink_ctrs (h : Nat) (l : Link) (s : State) : (putLink h l s).ctrs = s.ctrs := rfl
@[simp] theorem putLink_snap (h : Nat) (l : Link) (s : State) : (putLink h l s).snap = s.snap := rfl
@[simp] theorem putLink_fwRead (h : Nat) (l : Link) (s : State) : (putLink h l s).fwRead = s.fwRead := rfl
@[simp] theorem putLink_latch (h : Nat) (l : Link) (s : State) : (putLink h l s).latch = s.latch := rfl
@[simp] theorem putLink_rdData (h : Nat) (l : Link) (s : State) : (putLink h l s).rdData = s.rdData := rfl
@[simp] theorem putLink_glb (h : Nat) (l : Link) (s : State) : (putLink h l s).glb = s.glb := rfl
@[simp] theorem putLink_time (h : Nat) (l : Link) (s : State) : (putLink h l s).time = s.time := rfl
@[simp] theorem putLink_ptp (h : Nat) (l : Link) (s : State) : (putLink h l s).ptp = s.ptp := rfl
@[simp] theorem putLink_cmd (h : Nat) (l : Link) (s : State) : (putLink h l s).cmd = s.cmd := rfl
@[simp] theorem putLink_que (h : Nat) (l : Link) (s : State) : (putLink h l s).que = s.que := rfl
@[simp] theorem putLink_dma (h : Nat) (l : Link) (s : State) : (putLink h l s).dma = s.dma := rfl
@[simp] theorem putLink_sch (h : Nat) (l : Link) (s : State) : (putLink h l s).sch = s.sch := rfl
@[simp] theorem putLink_gate (h : Nat) (l : Link) (s : State) : (putLink h l s).gate = s.gate := rfl
@[simp] theorem putLink_port (h : Nat) (l : Link) (s : State) : (putLink h l s).port = s.port := rfl
@[simp] theorem putLink_strm (h : Nat) (l : Link) (s : State) : (putLink h l s).strm = s.strm := rfl
@[simp] theorem putLink_fld (h : Nat) (l : Link) (s : State) : (putLink h l s).fld = s.fld := rfl
@[simp] theorem putLink_sides (h : Nat) (l : Link) (s : State) : (putLink h l s).sides = s.sides := rfl
@[simp] theorem putLink_jrn (h : Nat) (l : Link) (s : State) : (putLink h l s).jrn = s.jrn := rfl
@[simp] theorem putLink_fab (h : Nat) (l : Link) (s : State) : (putLink h l s).fab = s.fab := rfl
@[simp] theorem putLink_recd (h : Nat) (l : Link) (s : State) : (putLink h l s).recd = s.recd := rfl
@[simp] theorem putLink_evt (h : Nat) (l : Link) (s : State) : (putLink h l s).evt = s.evt := rfl
@[simp] theorem putLink_ddrW (h : Nat) (l : Link) (s : State) : (putLink h l s).ddrW = s.ddrW := rfl
@[simp] theorem putLink_ddrB (h : Nat) (l : Link) (s : State) : (putLink h l s).ddrB = s.ddrB := rfl
@[simp] theorem putLink_txHeld (h : Nat) (l : Link) (s : State) : (putLink h l s).txHeld = s.txHeld := rfl
@[simp] theorem putLink_free (h : Nat) (l : Link) (s : State) : (putLink h l s).free = s.free := rfl
@[simp] theorem putLink_bus (h : Nat) (l : Link) (s : State) : (putLink h l s).bus = s.bus := rfl

@[simp] theorem updSide_regs (d : SideId) (f : SideRec → SideRec) (s : State) : (updSide d f s).regs = s.regs := by cases d <;> rfl
@[simp] theorem updSide_ctrs (d : SideId) (f : SideRec → SideRec) (s : State) : (updSide d f s).ctrs = s.ctrs := by cases d <;> rfl
@[simp] theorem updSide_snap (d : SideId) (f : SideRec → SideRec) (s : State) : (updSide d f s).snap = s.snap := by cases d <;> rfl
@[simp] theorem updSide_fwRead (d : SideId) (f : SideRec → SideRec) (s : State) : (updSide d f s).fwRead = s.fwRead := by cases d <;> rfl
@[simp] theorem updSide_latch (d : SideId) (f : SideRec → SideRec) (s : State) : (updSide d f s).latch = s.latch := by cases d <;> rfl
@[simp] theorem updSide_rdData (d : SideId) (f : SideRec → SideRec) (s : State) : (updSide d f s).rdData = s.rdData := by cases d <;> rfl
@[simp] theorem updSide_glb (d : SideId) (f : SideRec → SideRec) (s : State) : (updSide d f s).glb = s.glb := by cases d <;> rfl
@[simp] theorem updSide_time (d : SideId) (f : SideRec → SideRec) (s : State) : (updSide d f s).time = s.time := by cases d <;> rfl
@[simp] theorem updSide_ptp (d : SideId) (f : SideRec → SideRec) (s : State) : (updSide d f s).ptp = s.ptp := by cases d <;> rfl
@[simp] theorem updSide_cmd (d : SideId) (f : SideRec → SideRec) (s : State) : (updSide d f s).cmd = s.cmd := by cases d <;> rfl
@[simp] theorem updSide_que (d : SideId) (f : SideRec → SideRec) (s : State) : (updSide d f s).que = s.que := by cases d <;> rfl
@[simp] theorem updSide_dma (d : SideId) (f : SideRec → SideRec) (s : State) : (updSide d f s).dma = s.dma := by cases d <;> rfl
@[simp] theorem updSide_sch (d : SideId) (f : SideRec → SideRec) (s : State) : (updSide d f s).sch = s.sch := by cases d <;> rfl
@[simp] theorem updSide_gate (d : SideId) (f : SideRec → SideRec) (s : State) : (updSide d f s).gate = s.gate := by cases d <;> rfl
@[simp] theorem updSide_port (d : SideId) (f : SideRec → SideRec) (s : State) : (updSide d f s).port = s.port := by cases d <;> rfl
@[simp] theorem updSide_strm (d : SideId) (f : SideRec → SideRec) (s : State) : (updSide d f s).strm = s.strm := by cases d <;> rfl
@[simp] theorem updSide_fld (d : SideId) (f : SideRec → SideRec) (s : State) : (updSide d f s).fld = s.fld := by cases d <;> rfl
@[simp] theorem updSide_jrn (d : SideId) (f : SideRec → SideRec) (s : State) : (updSide d f s).jrn = s.jrn := by cases d <;> rfl
@[simp] theorem updSide_fab (d : SideId) (f : SideRec → SideRec) (s : State) : (updSide d f s).fab = s.fab := by cases d <;> rfl
@[simp] theorem updSide_recd (d : SideId) (f : SideRec → SideRec) (s : State) : (updSide d f s).recd = s.recd := by cases d <;> rfl
@[simp] theorem updSide_evt (d : SideId) (f : SideRec → SideRec) (s : State) : (updSide d f s).evt = s.evt := by cases d <;> rfl
@[simp] theorem updSide_pcie (d : SideId) (f : SideRec → SideRec) (s : State) : (updSide d f s).pcie = s.pcie := by cases d <;> rfl
@[simp] theorem updSide_ddrW (d : SideId) (f : SideRec → SideRec) (s : State) : (updSide d f s).ddrW = s.ddrW := by cases d <;> rfl
@[simp] theorem updSide_ddrB (d : SideId) (f : SideRec → SideRec) (s : State) : (updSide d f s).ddrB = s.ddrB := by cases d <;> rfl
@[simp] theorem updSide_txHeld (d : SideId) (f : SideRec → SideRec) (s : State) : (updSide d f s).txHeld = s.txHeld := by cases d <;> rfl
@[simp] theorem updSide_free (d : SideId) (f : SideRec → SideRec) (s : State) : (updSide d f s).free = s.free := by cases d <;> rfl
@[simp] theorem updSide_bus (d : SideId) (f : SideRec → SideRec) (s : State) : (updSide d f s).bus = s.bus := by cases d <;> rfl

@[simp] theorem putFlash_regs (s : State) (d : SideId) (f : Flash) : (putFlash s d f).regs = s.regs := by cases d <;> rfl
@[simp] theorem putFlash_ctrs (s : State) (d : SideId) (f : Flash) : (putFlash s d f).ctrs = s.ctrs := by cases d <;> rfl
@[simp] theorem putFlash_snap (s : State) (d : SideId) (f : Flash) : (putFlash s d f).snap = s.snap := by cases d <;> rfl
@[simp] theorem putFlash_fwRead (s : State) (d : SideId) (f : Flash) : (putFlash s d f).fwRead = s.fwRead := by cases d <;> rfl
@[simp] theorem putFlash_latch (s : State) (d : SideId) (f : Flash) : (putFlash s d f).latch = s.latch := by cases d <;> rfl
@[simp] theorem putFlash_rdData (s : State) (d : SideId) (f : Flash) : (putFlash s d f).rdData = s.rdData := by cases d <;> rfl
@[simp] theorem putFlash_glb (s : State) (d : SideId) (f : Flash) : (putFlash s d f).glb = s.glb := by cases d <;> rfl
@[simp] theorem putFlash_time (s : State) (d : SideId) (f : Flash) : (putFlash s d f).time = s.time := by cases d <;> rfl
@[simp] theorem putFlash_ptp (s : State) (d : SideId) (f : Flash) : (putFlash s d f).ptp = s.ptp := by cases d <;> rfl
@[simp] theorem putFlash_cmd (s : State) (d : SideId) (f : Flash) : (putFlash s d f).cmd = s.cmd := by cases d <;> rfl
@[simp] theorem putFlash_que (s : State) (d : SideId) (f : Flash) : (putFlash s d f).que = s.que := by cases d <;> rfl
@[simp] theorem putFlash_dma (s : State) (d : SideId) (f : Flash) : (putFlash s d f).dma = s.dma := by cases d <;> rfl
@[simp] theorem putFlash_sch (s : State) (d : SideId) (f : Flash) : (putFlash s d f).sch = s.sch := by cases d <;> rfl
@[simp] theorem putFlash_gate (s : State) (d : SideId) (f : Flash) : (putFlash s d f).gate = s.gate := by cases d <;> rfl
@[simp] theorem putFlash_port (s : State) (d : SideId) (f : Flash) : (putFlash s d f).port = s.port := by cases d <;> rfl
@[simp] theorem putFlash_strm (s : State) (d : SideId) (f : Flash) : (putFlash s d f).strm = s.strm := by cases d <;> rfl
@[simp] theorem putFlash_fld (s : State) (d : SideId) (f : Flash) : (putFlash s d f).fld = s.fld := by cases d <;> rfl
@[simp] theorem putFlash_sides (s : State) (d : SideId) (f : Flash) : (putFlash s d f).sides = s.sides := by cases d <;> rfl
@[simp] theorem putFlash_jrn (s : State) (d : SideId) (f : Flash) : (putFlash s d f).jrn = s.jrn := by cases d <;> rfl
@[simp] theorem putFlash_fab (s : State) (d : SideId) (f : Flash) : (putFlash s d f).fab = s.fab := by cases d <;> rfl
@[simp] theorem putFlash_recd (s : State) (d : SideId) (f : Flash) : (putFlash s d f).recd = s.recd := by cases d <;> rfl
@[simp] theorem putFlash_evt (s : State) (d : SideId) (f : Flash) : (putFlash s d f).evt = s.evt := by cases d <;> rfl
@[simp] theorem putFlash_pcie (s : State) (d : SideId) (f : Flash) : (putFlash s d f).pcie = s.pcie := by cases d <;> rfl
@[simp] theorem putFlash_ddrW (s : State) (d : SideId) (f : Flash) : (putFlash s d f).ddrW = s.ddrW := by cases d <;> rfl
@[simp] theorem putFlash_ddrB (s : State) (d : SideId) (f : Flash) : (putFlash s d f).ddrB = s.ddrB := by cases d <;> rfl
@[simp] theorem putFlash_txHeld (s : State) (d : SideId) (f : Flash) : (putFlash s d f).txHeld = s.txHeld := by cases d <;> rfl
@[simp] theorem putFlash_free (s : State) (d : SideId) (f : Flash) : (putFlash s d f).free = s.free := by cases d <;> rfl
@[simp] theorem putFlash_bus (s : State) (d : SideId) (f : Flash) : (putFlash s d f).bus = s.bus := by cases d <;> rfl

/-! ### Read after write -/

@[simp] theorem sideOf_putSide_self (s : State) (d : SideId) (r : SideRec) : sideOf (putSide s d r) d = r := by cases d <;> rfl

@[simp] theorem sideOf_putSide_other (s : State) (d : SideId) (r : SideRec) : sideOf (putSide s d r) (other d) = sideOf s (other d) := by
  cases d <;> rfl

@[simp] theorem other_other (d : SideId) : other (other d) = d := by cases d <;> rfl

@[simp] theorem flashOf_putFlash_self (s : State) (d : SideId) (f : Flash) : flashOf (putFlash s d f) d = f := by cases d <;> rfl

@[simp] theorem flashOf_putFlash_other (s : State) (d : SideId) (f : Flash) :
    flashOf (putFlash s d f) (other d) = flashOf s (other d) := by cases d <;> rfl

@[simp] theorem sqOf_putSq_self (s : State) (h q : Nat) (x : Sq) : sqOf (putSq s h q x) h q = if x.gone then none else some x := by
  cases hg : x.gone <;> simp [sqOf, putSq, hg]

@[simp] theorem cqOf_putCq_self (s : State) (h c : Nat) (x : Cq) : cqOf (putCq s h c x) h c = if x.gone then none else some x := by
  cases hg : x.gone <;> simp [cqOf, putCq, hg]

@[simp] theorem gateOf_putGate_self (s : State) (p : Nat) (g : GateP) : gateOf (putGate s p g) p = g := by
  simp [gateOf, putGate]
theorem gateOf_putGate_ne (s : State) {p q : Nat} (g : GateP) (hg : q ≠ p) : gateOf (putGate s p g) q = gateOf s q :=
  tget_tput_ne hg

@[simp] theorem portOf_putPort_self (s : State) (p : Nat) (x : PortSt) : portOf (putPort s p x) p = x := by
  simp [portOf, putPort]
theorem portOf_putPort_ne (s : State) {p q : Nat} (x : PortSt) (hx : q ≠ p) : portOf (putPort s p x) q = portOf s q :=
  tget_tput_ne hx

@[simp] theorem flowOf_putFlow_self (s : State) (f : Nat) (x : FlowQ) : flowOf (putFlow s f x) f = x := by
  simp [flowOf, putFlow]
theorem flowOf_putFlow_ne (s : State) {f g : Nat} (x : FlowQ) (hx : g ≠ f) : flowOf (putFlow s f x) g = flowOf s g :=
  tget_tput_ne hx

@[simp] theorem recOf_putRec_self (s : State) (r : Nat) (x : SeqRec) : recOf (putRec s r x) r = x := by
  simp [recOf, putRec]
theorem recOf_putRec_ne (s : State) {r q : Nat} (x : SeqRec) (hx : q ≠ r) : recOf (putRec s r x) q = recOf s q :=
  tget_tput_ne hx

@[simp] theorem opOf_putOp_self (s : State) (t : Nat) (o : Op) : opOf (putOp s t o) t = some o := by
  simp [opOf, putOp]
theorem opOf_putOp_ne (s : State) {t u : Nat} (o : Op) (ho : u ≠ t) : opOf (putOp s t o) u = opOf s u :=
  tfind_tset_ne ho

@[simp] theorem chanOf_putChan_self (s : State) (c : Nat) (x : ChanSt) : chanOf (putChan s c x) c = x := by
  simp [chanOf, putChan]
theorem chanOf_putChan_ne (s : State) {c e : Nat} (x : ChanSt) (hx : e ≠ c) : chanOf (putChan s c x) e = chanOf s e :=
  tget_tput_ne hx

@[simp] theorem fldOf_putFld_self (s : State) (n : Nat) (x : FldP) : fldOf (putFld s n x) n = x := by
  simp [fldOf, putFld]
theorem fldOf_putFld_ne (s : State) {n m : Nat} (x : FldP) (hx : m ≠ n) : fldOf (putFld s n x) m = fldOf s m :=
  tget_tput_ne hx

@[simp] theorem aggOf_putAgg_self (s : State) (a : Nat) (x : Agg) : aggOf (putAgg s a x) a = x := by
  simp [aggOf, putAgg]
theorem aggOf_putAgg_ne (s : State) {a b : Nat} (x : Agg) (hx : b ≠ a) : aggOf (putAgg s a x) b = aggOf s b :=
  tget_tput_ne hx

@[simp] theorem txtsOf_putTxts_self (s : State) (p : Nat) (q : TxTsQ) : txtsOf (putTxts s p q) p = q := by
  simp [txtsOf, putTxts]
theorem txtsOf_putTxts_ne (s : State) {p n : Nat} (q : TxTsQ) (hq : n ≠ p) : txtsOf (putTxts s p q) n = txtsOf s n :=
  tget_tput_ne hq

@[simp] theorem vecOf_putVec_self (s : State) (h v : Nat) (x : Vec) : vecOf (putVec s h v x) h v = x := by
  simp [vecOf, putVec]

@[simp] theorem aqOf_putAq_self (s : State) (h : Nat) (a : AdminHost) : aqOf (putAq s h a) h = a := by
  simp [aqOf, putAq]
theorem aqOf_putAq_ne (s : State) {h n : Nat} (a : AdminHost) (ha : n ≠ h) : aqOf (putAq s h a) n = aqOf s n :=
  tget_tput_ne ha

end Sys2Proof.Machine
end

