-- ==== Sys2Proof/Laws/Events.lean ====
section
/-!
SUPPORT. Laws/Events.lean: raising an event, sending a message and a mode change: what each leaves as it is.
-/

namespace Sys2Proof.Machine

/-- The state without the event unit, the counters and the bus. -/
def quiet (s : State) : State := { s with evt := {}, ctrs := [], bus := [] }

theorem msgDue_quiet (h v : Nat) (b : Bool) (s : State) : quiet (msgDue h v b s).1 = quiet s := by
  unfold msgDue; dsimp only; (repeat' split) <;> rfl

theorem trigRaw_quiet (h v : Nat) (b : Bool) (s : State) : quiet (trigRaw h v b s).1 = quiet s := by
  unfold trigRaw; dsimp only; (repeat' split) <;> simp only [msgDue_quiet] <;> rfl

theorem trigHosts_quiet (src : Nat) (l : List Nat) (s : State) : quiet (trigHosts src l s).1 = quiet s := by
  induction l generalizing s with
  | nil => rfl
  | cons n ns ih => simp only [trigHosts]; rw [ih]; split <;> simp only [trigRaw_quiet]

theorem setBits_quiet (src : Nat) (s : State) : quiet (setBits src s).1 = quiet s := rfl

theorem raiseBlocked_quiet (s : State) : quiet (raiseBlocked s) = quiet s :=
  trigHosts_quiet 254 (setBits 254 s).2 (setBits 254 s).1

/-- A raise changes the event unit, the counters and the bus alone. -/
theorem raise_quiet (src : Nat) (s : State) : quiet (raise src s) = quiet s := by
  simp only [raise]
  (repeat' split) <;> simp only [raiseBlocked_quiet, trigHosts_quiet, setBits_quiet]

/-- A trigger of a vector changes the event unit, the counters and the bus alone. -/
theorem trigger_quiet (h v : Nat) (s : State) : quiet (trigger h v s) = quiet s := by
  simp only [trigger]; split <;> simp only [raiseBlocked_quiet, trigRaw_quiet]

@[simp] theorem raise_regs (src : Nat) (s : State) : (raise src s).regs = s.regs := by
  have h := congrArg State.regs (raise_quiet src s); exact h
@[simp] theorem raise_snap (src : Nat) (s : State) : (raise src s).snap = s.snap := by
  have h := congrArg State.snap (raise_quiet src s); exact h
@[simp] theorem raise_fwRead (src : Nat) (s : State) : (raise src s).fwRead = s.fwRead := by
  have h := congrArg State.fwRead (raise_quiet src s); exact h
@[simp] theorem raise_latch (src : Nat) (s : State) : (raise src s).latch = s.latch := by
  have h := congrArg State.latch (raise_quiet src s); exact h
@[simp] theorem raise_rdData (src : Nat) (s : State) : (raise src s).rdData = s.rdData := by
  have h := congrArg State.rdData (raise_quiet src s); exact h
@[simp] theorem raise_glb (src : Nat) (s : State) : (raise src s).glb = s.glb := by
  have h := congrArg State.glb (raise_quiet src s); exact h
@[simp] theorem raise_time (src : Nat) (s : State) : (raise src s).time = s.time := by
  have h := congrArg State.time (raise_quiet src s); exact h
@[simp] theorem raise_ptp (src : Nat) (s : State) : (raise src s).ptp = s.ptp := by
  have h := congrArg State.ptp (raise_quiet src s); exact h
@[simp] theorem raise_cmd (src : Nat) (s : State) : (raise src s).cmd = s.cmd := by
  have h := congrArg State.cmd (raise_quiet src s); exact h
@[simp] theorem raise_que (src : Nat) (s : State) : (raise src s).que = s.que := by
  have h := congrArg State.que (raise_quiet src s); exact h
@[simp] theorem raise_dma (src : Nat) (s : State) : (raise src s).dma = s.dma := by
  have h := congrArg State.dma (raise_quiet src s); exact h
@[simp] theorem raise_sch (src : Nat) (s : State) : (raise src s).sch = s.sch := by
  have h := congrArg State.sch (raise_quiet src s); exact h
@[simp] theorem raise_gate (src : Nat) (s : State) : (raise src s).gate = s.gate := by
  have h := congrArg State.gate (raise_quiet src s); exact h
@[simp] theorem raise_port (src : Nat) (s : State) : (raise src s).port = s.port := by
  have h := congrArg State.port (raise_quiet src s); exact h
@[simp] theorem raise_strm (src : Nat) (s : State) : (raise src s).strm = s.strm := by
  have h := congrArg State.strm (raise_quiet src s); exact h
@[simp] theorem raise_fld (src : Nat) (s : State) : (raise src s).fld = s.fld := by
  have h := congrArg State.fld (raise_quiet src s); exact h
@[simp] theorem raise_sides (src : Nat) (s : State) : (raise src s).sides = s.sides := by
  have h := congrArg State.sides (raise_quiet src s); exact h
@[simp] theorem raise_jrn (src : Nat) (s : State) : (raise src s).jrn = s.jrn := by
  have h := congrArg State.jrn (raise_quiet src s); exact h
@[simp] theorem raise_fab (src : Nat) (s : State) : (raise src s).fab = s.fab := by
  have h := congrArg State.fab (raise_quiet src s); exact h
@[simp] theorem raise_recd (src : Nat) (s : State) : (raise src s).recd = s.recd := by
  have h := congrArg State.recd (raise_quiet src s); exact h
@[simp] theorem raise_pcie (src : Nat) (s : State) : (raise src s).pcie = s.pcie := by
  have h := congrArg State.pcie (raise_quiet src s); exact h
@[simp] theorem raise_ddrW (src : Nat) (s : State) : (raise src s).ddrW = s.ddrW := by
  have h := congrArg State.ddrW (raise_quiet src s); exact h
@[simp] theorem raise_ddrB (src : Nat) (s : State) : (raise src s).ddrB = s.ddrB := by
  have h := congrArg State.ddrB (raise_quiet src s); exact h
@[simp] theorem raise_txHeld (src : Nat) (s : State) : (raise src s).txHeld = s.txHeld := by
  have h := congrArg State.txHeld (raise_quiet src s); exact h
@[simp] theorem raise_free (src : Nat) (s : State) : (raise src s).free = s.free := by
  have h := congrArg State.free (raise_quiet src s); exact h

@[simp] theorem trigger_regs (h v : Nat) (s : State) : (trigger h v s).regs = s.regs := by
  have h := congrArg State.regs (trigger_quiet h v s); exact h
@[simp] theorem trigger_snap (h v : Nat) (s : State) : (trigger h v s).snap = s.snap := by
  have h := congrArg State.snap (trigger_quiet h v s); exact h
@[simp] theorem trigger_fwRead (h v : Nat) (s : State) : (trigger h v s).fwRead = s.fwRead := by
  have h := congrArg State.fwRead (trigger_quiet h v s); exact h
@[simp] theorem trigger_latch (h v : Nat) (s : State) : (trigger h v s).latch = s.latch := by
  have h := congrArg State.latch (trigger_quiet h v s); exact h
@[simp] theorem trigger_rdData (h v : Nat) (s : State) : (trigger h v s).rdData = s.rdData := by
  have h := congrArg State.rdData (trigger_quiet h v s); exact h
@[simp] theorem trigger_glb (h v : Nat) (s : State) : (trigger h v s).glb = s.glb := by
  have h := congrArg State.glb (trigger_quiet h v s); exact h
@[simp] theorem trigger_time (h v : Nat) (s : State) : (trigger h v s).time = s.time := by
  have h := congrArg State.time (trigger_quiet h v s); exact h
@[simp] theorem trigger_ptp (h v : Nat) (s : State) : (trigger h v s).ptp = s.ptp := by
  have h := congrArg State.ptp (trigger_quiet h v s); exact h
@[simp] theorem trigger_cmd (h v : Nat) (s : State) : (trigger h v s).cmd = s.cmd := by
  have h := congrArg State.cmd (trigger_quiet h v s); exact h
@[simp] theorem trigger_que (h v : Nat) (s : State) : (trigger h v s).que = s.que := by
  have h := congrArg State.que (trigger_quiet h v s); exact h
@[simp] theorem trigger_dma (h v : Nat) (s : State) : (trigger h v s).dma = s.dma := by
  have h := congrArg State.dma (trigger_quiet h v s); exact h
@[simp] theorem trigger_sch (h v : Nat) (s : State) : (trigger h v s).sch = s.sch := by
  have h := congrArg State.sch (trigger_quiet h v s); exact h
@[simp] theorem trigger_gate (h v : Nat) (s : State) : (trigger h v s).gate = s.gate := by
  have h := congrArg State.gate (trigger_quiet h v s); exact h
@[simp] theorem trigger_port (h v : Nat) (s : State) : (trigger h v s).port = s.port := by
  have h := congrArg State.port (trigger_quiet h v s); exact h
@[simp] theorem trigger_strm (h v : Nat) (s : State) : (trigger h v s).strm = s.strm := by
  have h := congrArg State.strm (trigger_quiet h v s); exact h
@[simp] theorem trigger_fld (h v : Nat) (s : State) : (trigger h v s).fld = s.fld := by
  have h := congrArg State.fld (trigger_quiet h v s); exact h
@[simp] theorem trigger_sides (h v : Nat) (s : State) : (trigger h v s).sides = s.sides := by
  have h := congrArg State.sides (trigger_quiet h v s); exact h
@[simp] theorem trigger_jrn (h v : Nat) (s : State) : (trigger h v s).jrn = s.jrn := by
  have h := congrArg State.jrn (trigger_quiet h v s); exact h
@[simp] theorem trigger_fab (h v : Nat) (s : State) : (trigger h v s).fab = s.fab := by
  have h := congrArg State.fab (trigger_quiet h v s); exact h
@[simp] theorem trigger_recd (h v : Nat) (s : State) : (trigger h v s).recd = s.recd := by
  have h := congrArg State.recd (trigger_quiet h v s); exact h
@[simp] theorem trigger_pcie (h v : Nat) (s : State) : (trigger h v s).pcie = s.pcie := by
  have h := congrArg State.pcie (trigger_quiet h v s); exact h
@[simp] theorem trigger_ddrW (h v : Nat) (s : State) : (trigger h v s).ddrW = s.ddrW := by
  have h := congrArg State.ddrW (trigger_quiet h v s); exact h
@[simp] theorem trigger_ddrB (h v : Nat) (s : State) : (trigger h v s).ddrB = s.ddrB := by
  have h := congrArg State.ddrB (trigger_quiet h v s); exact h
@[simp] theorem trigger_txHeld (h v : Nat) (s : State) : (trigger h v s).txHeld = s.txHeld := by
  have h := congrArg State.txHeld (trigger_quiet h v s); exact h
@[simp] theorem trigger_free (h v : Nat) (s : State) : (trigger h v s).free = s.free := by
  have h := congrArg State.free (trigger_quiet h v s); exact h

/-! ### Consuming an admin command -/

@[simp] theorem raiseAct_regs (src : Nat) (s : State) : (raiseAct src s).regs = s.regs := by unfold raiseAct; split <;> simp
@[simp] theorem raiseAct_snap (src : Nat) (s : State) : (raiseAct src s).snap = s.snap := by unfold raiseAct; split <;> simp
@[simp] theorem raiseAct_fwRead (src : Nat) (s : State) : (raiseAct src s).fwRead = s.fwRead := by unfold raiseAct; split <;> simp
@[simp] theorem raiseAct_latch (src : Nat) (s : State) : (raiseAct src s).latch = s.latch := by unfold raiseAct; split <;> simp
@[simp] theorem raiseAct_rdData (src : Nat) (s : State) : (raiseAct src s).rdData = s.rdData := by unfold raiseAct; split <;> simp
@[simp] theorem raiseAct_glb (src : Nat) (s : State) : (raiseAct src s).glb = s.glb := by unfold raiseAct; split <;> simp
@[simp] theorem raiseAct_time (src : Nat) (s : State) : (raiseAct src s).time = s.time := by unfold raiseAct; split <;> simp
@[simp] theorem raiseAct_ptp (src : Nat) (s : State) : (raiseAct src s).ptp = s.ptp := by unfold raiseAct; split <;> simp
@[simp] theorem raiseAct_dma (src : Nat) (s : State) : (raiseAct src s).dma = s.dma := by unfold raiseAct; split <;> simp
@[simp] theorem raiseAct_sch (src : Nat) (s : State) : (raiseAct src s).sch = s.sch := by unfold raiseAct; split <;> simp
@[simp] theorem raiseAct_gate (src : Nat) (s : State) : (raiseAct src s).gate = s.gate := by unfold raiseAct; split <;> simp
@[simp] theorem raiseAct_port (src : Nat) (s : State) : (raiseAct src s).port = s.port := by unfold raiseAct; split <;> simp
@[simp] theorem raiseAct_strm (src : Nat) (s : State) : (raiseAct src s).strm = s.strm := by unfold raiseAct; split <;> simp
@[simp] theorem raiseAct_fld (src : Nat) (s : State) : (raiseAct src s).fld = s.fld := by unfold raiseAct; split <;> simp
@[simp] theorem raiseAct_sides (src : Nat) (s : State) : (raiseAct src s).sides = s.sides := by unfold raiseAct; split <;> simp
@[simp] theorem raiseAct_fab (src : Nat) (s : State) : (raiseAct src s).fab = s.fab := by unfold raiseAct; split <;> simp
@[simp] theorem raiseAct_recd (src : Nat) (s : State) : (raiseAct src s).recd = s.recd := by unfold raiseAct; split <;> simp
@[simp] theorem raiseAct_pcie (src : Nat) (s : State) : (raiseAct src s).pcie = s.pcie := by unfold raiseAct; split <;> simp
@[simp] theorem raiseAct_ddrW (src : Nat) (s : State) : (raiseAct src s).ddrW = s.ddrW := by unfold raiseAct; split <;> simp
@[simp] theorem raiseAct_ddrB (src : Nat) (s : State) : (raiseAct src s).ddrB = s.ddrB := by unfold raiseAct; split <;> simp
@[simp] theorem raiseAct_txHeld (src : Nat) (s : State) : (raiseAct src s).txHeld = s.txHeld := by unfold raiseAct; split <;> simp
@[simp] theorem raiseAct_free (src : Nat) (s : State) : (raiseAct src s).free = s.free := by unfold raiseAct; split <;> simp

@[simp] theorem consumeAdmin_regs (h : Host) (s : State) : (consumeAdmin h s).regs = s.regs := by
  simp only [consumeAdmin, adminPlace, putAq]; (repeat' split) <;> simp
@[simp] theorem consumeAdmin_snap (h : Host) (s : State) : (consumeAdmin h s).snap = s.snap := by
  simp only [consumeAdmin, adminPlace, putAq]; (repeat' split) <;> simp
@[simp] theorem consumeAdmin_fwRead (h : Host) (s : State) : (consumeAdmin h s).fwRead = s.fwRead := by
  simp only [consumeAdmin, adminPlace, putAq]; (repeat' split) <;> simp
@[simp] theorem consumeAdmin_latch (h : Host) (s : State) : (consumeAdmin h s).latch = s.latch := by
  simp only [consumeAdmin, adminPlace, putAq]; (repeat' split) <;> simp
@[simp] theorem consumeAdmin_rdData (h : Host) (s : State) : (consumeAdmin h s).rdData = s.rdData := by
  simp only [consumeAdmin, adminPlace, putAq]; (repeat' split) <;> simp
@[simp] theorem consumeAdmin_glb (h : Host) (s : State) : (consumeAdmin h s).glb = s.glb := by
  simp only [consumeAdmin, adminPlace, putAq]; (repeat' split) <;> simp
@[simp] theorem consumeAdmin_time (h : Host) (s : State) : (consumeAdmin h s).time = s.time := by
  simp only [consumeAdmin, adminPlace, putAq]; (repeat' split) <;> simp
@[simp] theorem consumeAdmin_ptp (h : Host) (s : State) : (consumeAdmin h s).ptp = s.ptp := by
  simp only [consumeAdmin, adminPlace, putAq]; (repeat' split) <;> simp
@[simp] theorem consumeAdmin_dma (h : Host) (s : State) : (consumeAdmin h s).dma = s.dma := by
  simp only [consumeAdmin, adminPlace, putAq]; (repeat' split) <;> simp
@[simp] theorem consumeAdmin_sch (h : Host) (s : State) : (consumeAdmin h s).sch = s.sch := by
  simp only [consumeAdmin, adminPlace, putAq]; (repeat' split) <;> simp
@[simp] theorem consumeAdmin_gate (h : Host) (s : State) : (consumeAdmin h s).gate = s.gate := by
  simp only [consumeAdmin, adminPlace, putAq]; (repeat' split) <;> simp
@[simp] theorem consumeAdmin_port (h : Host) (s : State) : (consumeAdmin h s).port = s.port := by
  simp only [consumeAdmin, adminPlace, putAq]; (repeat' split) <;> simp
@[simp] theorem consumeAdmin_strm (h : Host) (s : State) : (consumeAdmin h s).strm = s.strm := by
  simp only [consumeAdmin, adminPlace, putAq]; (repeat' split) <;> simp
@[simp] theorem consumeAdmin_fld (h : Host) (s : State) : (consumeAdmin h s).fld = s.fld := by
  simp only [consumeAdmin, adminPlace, putAq]; (repeat' split) <;> simp
@[simp] theorem consumeAdmin_sides (h : Host) (s : State) : (consumeAdmin h s).sides = s.sides := by
  simp only [consumeAdmin, adminPlace, putAq]; (repeat' split) <;> simp
@[simp] theorem consumeAdmin_fab (h : Host) (s : State) : (consumeAdmin h s).fab = s.fab := by
  simp only [consumeAdmin, adminPlace, putAq]; (repeat' split) <;> simp
@[simp] theorem consumeAdmin_recd (h : Host) (s : State) : (consumeAdmin h s).recd = s.recd := by
  simp only [consumeAdmin, adminPlace, putAq]; (repeat' split) <;> simp
@[simp] theorem consumeAdmin_pcie (h : Host) (s : State) : (consumeAdmin h s).pcie = s.pcie := by
  simp only [consumeAdmin, adminPlace, putAq]; (repeat' split) <;> simp
@[simp] theorem consumeAdmin_ddrW (h : Host) (s : State) : (consumeAdmin h s).ddrW = s.ddrW := by
  simp only [consumeAdmin, adminPlace, putAq]; (repeat' split) <;> simp
@[simp] theorem consumeAdmin_ddrB (h : Host) (s : State) : (consumeAdmin h s).ddrB = s.ddrB := by
  simp only [consumeAdmin, adminPlace, putAq]; (repeat' split) <;> simp
@[simp] theorem consumeAdmin_txHeld (h : Host) (s : State) : (consumeAdmin h s).txHeld = s.txHeld := by
  simp only [consumeAdmin, adminPlace, putAq]; (repeat' split) <;> simp
@[simp] theorem consumeAdmin_free (h : Host) (s : State) : (consumeAdmin h s).free = s.free := by
  simp only [consumeAdmin, adminPlace, putAq]; (repeat' split) <;> simp

/-! ### Modes -/

@[simp] theorem bypDrive_glb (s : State) : (bypDrive s).glb = s.glb := rfl

/-- The table of R436 leads to no mode above 11. -/
theorem transOk_le {a b : Nat} (h : transOk a b = true) : b ≤ 11 := by
  simp [transOk, isService] at h; omega

/-- A mode change leaves the mode or takes one that the table of R436 lists. -/
theorem toMode_mode_eq (m : Nat) (f : Bool) (s : State) :
    (toMode m f s).glb.mode = s.glb.mode ∨ ((toMode m f s).glb.mode = m ∧ transOk s.glb.mode m = true) := by
  unfold toMode; split
  · exact .inl rfl
  · next h =>
    simp only [Bool.or_eq_true, decide_eq_true_eq, not_or, Bool.not_eq_true', Bool.not_eq_false] at h
    exact .inr ⟨by simp, by simpa using h.2⟩

/-- A mode change keeps a legal mode. -/
theorem toMode_legal (m : Nat) (f : Bool) {s : State} (h : s.glb.mode ≤ 11) : (toMode m f s).glb.mode ≤ 11 := by
  rcases toMode_mode_eq m f s with e | ⟨e, t⟩
  · rw [e]; exact h
  · rw [e]; exact transOk_le t

end Sys2Proof.Machine
end

