-- ==== Sys2Proof/Laws/Admin.lean ====
section
/-!
SUPPORT. Laws/Admin.lean: the command processor's shared operations: the first fault, refusal, execution.
-/

namespace Sys2Proof.Machine

theorem worst_none {l : List Finding} : worst l = none ↔ l = [] := by
  cases l with
  | nil => simp [worst]
  | cons a l => simp only [worst]; cases worst l <;> simp; split <;> simp

/-- The reported fault is one of those that apply, and none of them comes before it (R62). -/
theorem worst_some {l : List Finding} {f : Finding} (h : worst l = some f) : f ∈ l ∧ ∀ g ∈ l, g.before f = false := by
  have asy : ∀ a b : Finding, a.before b = true → b.before a = false := by
    intro a b h1; simp [Finding.before] at *; omega
  have irr : ∀ a : Finding, a.before a = false := by intro a; simp [Finding.before]
  have tr : ∀ a b c : Finding, a.before b = false → b.before c = false → a.before c = false := by
    intro a b c h1 h2; simp [Finding.before] at *; omega
  induction l generalizing f with
  | nil => simp [worst] at h
  | cons a l ih =>
    simp only [worst] at h
    cases hw : worst l with
    | none =>
      rw [hw] at h; rw [worst_none] at hw; subst hw
      cases h; simp [irr]
    | some g =>
      obtain ⟨h1, h2⟩ := ih hw
      rw [hw] at h; simp only at h
      split at h <;> rename_i hb <;> cases h
      · refine ⟨List.mem_cons_of_mem _ h1, fun x hx => ?_⟩
        rcases List.mem_cons.mp hx with rfl | hx
        · exact asy _ _ hb
        · exact h2 x hx
      · refine ⟨List.mem_cons_self, fun x hx => ?_⟩
        rcases List.mem_cons.mp hx with rfl | hx
        · exact irr _
        · exact tr _ _ _ (h2 x hx) (by simpa using hb)

/-! ### The read of an indirect buffer -/

@[simp] theorem ibChannel_regs (c : CmdSpec) (w : Issuer) (p : Packet) (ib : ReadEnd) (s : State) :
    (ibChannel c w p ib s).regs = s.regs := by unfold ibChannel; (repeat' split) <;> rfl

@[simp] theorem ibChannel_ctrs (c : CmdSpec) (w : Issuer) (p : Packet) (ib : ReadEnd) (s : State) :
    (ibChannel c w p ib s).ctrs = s.ctrs := by unfold ibChannel; (repeat' split) <;> rfl

@[simp] theorem ibChannel_snap (c : CmdSpec) (w : Issuer) (p : Packet) (ib : ReadEnd) (s : State) :
    (ibChannel c w p ib s).snap = s.snap := by unfold ibChannel; (repeat' split) <;> rfl

@[simp] theorem ibChannel_fwRead (c : CmdSpec) (w : Issuer) (p : Packet) (ib : ReadEnd) (s : State) :
    (ibChannel c w p ib s).fwRead = s.fwRead := by unfold ibChannel; (repeat' split) <;> rfl

@[simp] theorem ibChannel_latch (c : CmdSpec) (w : Issuer) (p : Packet) (ib : ReadEnd) (s : State) :
    (ibChannel c w p ib s).latch = s.latch := by unfold ibChannel; (repeat' split) <;> rfl

@[simp] theorem ibChannel_rdData (c : CmdSpec) (w : Issuer) (p : Packet) (ib : ReadEnd) (s : State) :
    (ibChannel c w p ib s).rdData = s.rdData := by unfold ibChannel; (repeat' split) <;> rfl

@[simp] theorem ibChannel_glb (c : CmdSpec) (w : Issuer) (p : Packet) (ib : ReadEnd) (s : State) :
    (ibChannel c w p ib s).glb = s.glb := by unfold ibChannel; (repeat' split) <;> rfl

@[simp] theorem ibChannel_time (c : CmdSpec) (w : Issuer) (p : Packet) (ib : ReadEnd) (s : State) :
    (ibChannel c w p ib s).time = s.time := by unfold ibChannel; (repeat' split) <;> rfl

@[simp] theorem ibChannel_ptp (c : CmdSpec) (w : Issuer) (p : Packet) (ib : ReadEnd) (s : State) :
    (ibChannel c w p ib s).ptp = s.ptp := by unfold ibChannel; (repeat' split) <;> rfl

@[simp] theorem ibChannel_cmd (c : CmdSpec) (w : Issuer) (p : Packet) (ib : ReadEnd) (s : State) :
    (ibChannel c w p ib s).cmd = s.cmd := by unfold ibChannel; (repeat' split) <;> rfl

@[simp] theorem ibChannel_que (c : CmdSpec) (w : Issuer) (p : Packet) (ib : ReadEnd) (s : State) :
    (ibChannel c w p ib s).que = s.que := by unfold ibChannel; (repeat' split) <;> rfl

@[simp] theorem ibChannel_sch (c : CmdSpec) (w : Issuer) (p : Packet) (ib : ReadEnd) (s : State) :
    (ibChannel c w p ib s).sch = s.sch := by unfold ibChannel; (repeat' split) <;> rfl

@[simp] theorem ibChannel_gate (c : CmdSpec) (w : Issuer) (p : Packet) (ib : ReadEnd) (s : State) :
    (ibChannel c w p ib s).gate = s.gate := by unfold ibChannel; (repeat' split) <;> rfl

@[simp] theorem ibChannel_port (c : CmdSpec) (w : Issuer) (p : Packet) (ib : ReadEnd) (s : State) :
    (ibChannel c w p ib s).port = s.port := by unfold ibChannel; (repeat' split) <;> rfl

@[simp] theorem ibChannel_strm (c : CmdSpec) (w : Issuer) (p : Packet) (ib : ReadEnd) (s : State) :
    (ibChannel c w p ib s).strm = s.strm := by unfold ibChannel; (repeat' split) <;> rfl

@[simp] theorem ibChannel_fld (c : CmdSpec) (w : Issuer) (p : Packet) (ib : ReadEnd) (s : State) :
    (ibChannel c w p ib s).fld = s.fld := by unfold ibChannel; (repeat' split) <;> rfl

@[simp] theorem ibChannel_sides (c : CmdSpec) (w : Issuer) (p : Packet) (ib : ReadEnd) (s : State) :
    (ibChannel c w p ib s).sides = s.sides := by unfold ibChannel; (repeat' split) <;> rfl

@[simp] theorem ibChannel_fab (c : CmdSpec) (w : Issuer) (p : Packet) (ib : ReadEnd) (s : State) :
    (ibChannel c w p ib s).fab = s.fab := by unfold ibChannel; (repeat' split) <;> rfl

@[simp] theorem ibChannel_recd (c : CmdSpec) (w : Issuer) (p : Packet) (ib : ReadEnd) (s : State) :
    (ibChannel c w p ib s).recd = s.recd := by unfold ibChannel; (repeat' split) <;> rfl

@[simp] theorem ibChannel_evt (c : CmdSpec) (w : Issuer) (p : Packet) (ib : ReadEnd) (s : State) :
    (ibChannel c w p ib s).evt = s.evt := by unfold ibChannel; (repeat' split) <;> rfl

@[simp] theorem ibChannel_pcie (c : CmdSpec) (w : Issuer) (p : Packet) (ib : ReadEnd) (s : State) :
    (ibChannel c w p ib s).pcie = s.pcie := by unfold ibChannel; (repeat' split) <;> rfl

@[simp] theorem ibChannel_ddrW (c : CmdSpec) (w : Issuer) (p : Packet) (ib : ReadEnd) (s : State) :
    (ibChannel c w p ib s).ddrW = s.ddrW := by unfold ibChannel; (repeat' split) <;> rfl

@[simp] theorem ibChannel_ddrB (c : CmdSpec) (w : Issuer) (p : Packet) (ib : ReadEnd) (s : State) :
    (ibChannel c w p ib s).ddrB = s.ddrB := by unfold ibChannel; (repeat' split) <;> rfl

@[simp] theorem ibChannel_txHeld (c : CmdSpec) (w : Issuer) (p : Packet) (ib : ReadEnd) (s : State) :
    (ibChannel c w p ib s).txHeld = s.txHeld := by unfold ibChannel; (repeat' split) <;> rfl

@[simp] theorem ibChannel_free (c : CmdSpec) (w : Issuer) (p : Packet) (ib : ReadEnd) (s : State) :
    (ibChannel c w p ib s).free = s.free := by unfold ibChannel; (repeat' split) <;> rfl

@[simp] theorem ibChannel_bus (c : CmdSpec) (w : Issuer) (p : Packet) (ib : ReadEnd) (s : State) :
    (ibChannel c w p ib s).bus = s.bus := by unfold ibChannel; (repeat' split) <;> rfl

@[simp] theorem ibChannel_move (c : CmdSpec) (w : Issuer) (p : Packet) (ib : ReadEnd) (s : State) :
    (ibChannel c w p ib s).jrn.move = s.jrn.move := by unfold ibChannel; (repeat' split) <;> rfl

@[simp] theorem ibChannel_epoch (c : CmdSpec) (w : Issuer) (p : Packet) (ib : ReadEnd) (s : State) :
    cmdEpoch (ibChannel c w p ib s) = cmdEpoch s := by unfold ibChannel; (repeat' split) <;> rfl

/-- A row without an indirect buffer reads nothing. -/
theorem ibChannel_none {c : CmdSpec} (hc : c.ibuf = none) (w : Issuer) (p : Packet) (ib : ReadEnd) (s : State) :
    ibChannel c w p ib s = s := by simp [ibChannel, hc]

theorem turnTaken_none {c : CmdSpec} (hc : c.ibuf = none) (h : Host) (p : Packet) (ib : ReadEnd) (s : State) :
    turnTaken c h p ib s = consumeAdmin h s := ibChannel_none hc _ _ _ _

/-- An accepted command's buffer is read well over channel 0. -/
theorem turnTaken_some {c : CmdSpec} {b : Body} {h : Host} {p : Packet} {l : List Byte} {s : State} {o : Nat}
    (hc : c.ibuf = some o) (H : Accepted c b h p (.data l) s) : turnTaken c h p (.data l) s = bufferRead h l s := by
  obtain ⟨-, -, h2, h3⟩ := H
  have hl : lacksPerm c (issuer h s) p (consumeAdmin h s) = false := by
    unfold findings at h3
    simp only [h2, ne_eq, not_true, if_false] at h3
    split at h3
    · simp at h3
    · next hn => simpa using hn
  simp only [issuer] at hl
  simp [turnTaken, ibChannel, hc, h2, hl, bufferRead, issuer]

/-! ### Refusal and execution -/

/-- A refused command is its reply, after its buffer has been read where it is no dry run, and a note for a replay (R58, R64). -/
theorem perform_refused {c : CmdSpec} {b : Body} {w : Issuer} {p : Packet} {ib : ReadEnd} {s : State} {f : Finding}
    (h : worst (findings c b w p ib s) = some f) : perform c b w p ib s
      = (reply w p (some f) 0 (noteOther c b w p ib (if dryRun p && !c.query then .dry else .refused)
          (if dryRun p && !c.query then s else ibChannel c w p ib s)), .refused) := by
  simp only [perform, h]

/-- A command that has its turn is performed after the admin SQ has advanced past it. -/
theorem runAdmin_turn {c : CmdSpec} {b : Body} {h : Host} {p : Packet} {ib : ReadEnd} {s : State}
    (h1 : adminDue h p s = true) (h2 : rowTakes c p = true) (h3 : ibReady c (issuer h s) p s = true) :
    runAdmin c b h p ib s = resume s (perform c b (issuer h s) p ib (consumeAdmin h s)).1 := by
  simp only [issuer] at h3 ⊢
  simp [runAdmin, h1, h2, h3]

/-- A command without its turn, or one that the row does not take, or whose buffer cannot be read yet, changes nothing. -/
theorem runAdmin_idle {c : CmdSpec} {b : Body} {h : Host} {p : Packet} {ib : ReadEnd} {s : State}
    (h1 : (adminDue h p s && rowTakes c p && ibReady c (issuer h s) p s) = false) : runAdmin c b h p ib s = s := by
  simp only [issuer] at h1
  simp [runAdmin, h1]

/-- An event raised by the side or by the start monitor leaves the command processor. -/
@[simp] theorem raiseAct_cmd (src : Nat) (s : State) : (raiseAct src s).cmd = s.cmd := by
  unfold raiseAct; split
  · simp
  · rfl

/-- Taking its turn, a command uses up no nonce. -/
@[simp] theorem consumeAdmin_nonce (h : Host) (s : State) : (consumeAdmin h s).cmd.nonce = s.cmd.nonce := by
  simp only [consumeAdmin, adminPlace, putAq]
  (repeat' split) <;> simp [putCq]

theorem raiseAct_leavesW (src : Nat) (s : State) : (raiseAct src s).flashW = s.flashW := by
  unfold raiseAct; split
  · have h := congrArg State.flashW (raise_quiet src s); exact h
  · rfl

theorem raiseAct_leavesB (src : Nat) (s : State) : (raiseAct src s).flashB = s.flashB := by
  unfold raiseAct; split
  · have h := congrArg State.flashB (raise_quiet src s); exact h
  · rfl

/-- Nor does it write a flash. -/
@[simp] theorem consumeAdmin_flash (h : Host) (s : State) (op : LongOp) : flashBefore op (consumeAdmin h s) = flashBefore op s := by
  have hw : (consumeAdmin h s).flashW = s.flashW := by
    simp only [consumeAdmin, adminPlace, putAq]
    (repeat' split) <;> simp [putCq, raiseAct_leavesW]
  have hb : (consumeAdmin h s).flashB = s.flashB := by
    simp only [consumeAdmin, adminPlace, putAq]
    (repeat' split) <;> simp [putCq, raiseAct_leavesB]
  cases op <;> simp only [flashBefore]
  rename_i d _ _ _
  cases d <;> simp [flashOf, hw, hb]

@[simp] theorem ibChannel_flash (c : CmdSpec) (w : Issuer) (p : Packet) (ib : ReadEnd) (s : State) (op : LongOp) :
    flashBefore op (ibChannel c w p ib s) = flashBefore op s := by unfold ibChannel; (repeat' split) <;> rfl

/-- An accepted command acts and replies, or starts its background work. -/
theorem runAdmin_act {c : CmdSpec} {b : Body} {h : Host} {p : Packet} {ib : ReadEnd} {s : State}
    (H : Accepted c b h p ib s) (hd : dryRun p = false ∨ c.query = true) :
    runAdmin c b h p ib s = match b.act (issuer h s) p ((c.ibuf.bind (fun o => ibBytes p o ib)).getD []) (turnTaken c h p ib s) with
      | .done s' result changed =>
        resume s (reply (issuer h s) p none result (if changed && !c.query then bumpGen p s' else s'))
      | .start s' op changed => begins c h p s s' op changed := by
  obtain ⟨h1, h2, h3, h4⟩ := H
  have hd' : (dryRun p && !c.query) = false := by rcases hd with h | h <;> simp [h]
  rw [runAdmin_turn h1 (by simp [rowTakes, h3]) h2]
  unfold perform
  simp only [h4, worst, hd', Bool.false_eq_true, if_false]
  change _ = match b.act (issuer h s) p _ (ibChannel c (issuer h s) p ib (consumeAdmin h s)) with
    | .done s' result changed => _
    | .start s' op changed => _
  cases b.act (issuer h s) p ((c.ibuf.bind (fun o => ibBytes p o ib)).getD []) (ibChannel c (issuer h s) p ib (consumeAdmin h s)) with
  | done s' r ch => rfl
  | start s' op ch =>
    simp only [begins, longEntry, noteIb, aqOf, genOf, ibChannel_cmd, ibChannel_epoch, ibChannel_move, ibChannel_flash, consumeAdmin_nonce,
      consumeAdmin_flash]
    rfl

/-- A command that changes state and ends at its execution. -/
theorem runAdmin_done {c : CmdSpec} {b : Body} {h : Host} {p : Packet} {ib : ReadEnd} {s s' : State} {r : Nat} {ch : Bool}
    (H : Executes c b h p ib s) (hq : c.query = false)
    (ha : b.act (issuer h s) p ((c.ibuf.bind (fun o => ibBytes p o ib)).getD []) (turnTaken c h p ib s) = .done s' r ch) :
    runAdmin c b h p ib s = resume s (reply (issuer h s) p none r (if ch then bumpGen p s' else s')) := by
  rw [runAdmin_act H.1 (.inl H.2), ha]; simp [hq]

/-- A query. -/
theorem runAdmin_query {c : CmdSpec} {b : Body} {h : Host} {p : Packet} {ib : ReadEnd} {s : State} {r : Nat}
    (H : Accepted c b h p ib s) (hq : c.query = true) (hi : c.ibuf = none)
    (ha : b.act (issuer h s) p [] (consumeAdmin h s) = .done (consumeAdmin h s) r false) :
    runAdmin c b h p ib s = answers h p s r := by
  rw [runAdmin_act H (.inr hq), turnTaken_none hi]
  simp [hi, ha, answers]

/-- A class L command. -/
theorem runAdmin_start {c : CmdSpec} {b : Body} {h : Host} {p : Packet} {ib : ReadEnd} {s s' : State} {op : LongOp} {ch : Bool}
    (H : Executes c b h p ib s)
    (ha : b.act (issuer h s) p ((c.ibuf.bind (fun o => ibBytes p o ib)).getD []) (turnTaken c h p ib s) = .start s' op ch) :
    runAdmin c b h p ib s = begins c h p s s' op ch := by
  rw [runAdmin_act H.1 (.inl H.2), ha]

/-- What an accepted indirect buffer holds: its read brought data whose CRC is right (R57). -/
theorem accepted_bytes {c : CmdSpec} {b : Body} {h : Host} {p : Packet} {l : List Byte} {s : State} {o : Nat}
    (hc : c.ibuf = some o) (hl : l.length = ibLen p o) (H : Accepted c b h p (.data l) s) :
    (c.ibuf.bind (fun o => ibBytes p o (.data l))).getD [] = l := by
  obtain ⟨-, -, h2, h3⟩ := H
  have ht : l.take (ibLen p o) = l := by rw [← hl]; exact List.take_length
  unfold findings at h3
  simp only [hc, ibReadFindings, ibBytes, h2, ne_eq, not_true, if_false, ht] at h3 ⊢
  split at h3
  · simp at h3
  · by_cases hk : crc32c l = par p (o + 12) 4
    · simp [hk, ht]
    · simp [hk, when] at h3

@[simp] theorem quiet_apart (s : State) : apart (quiet s) = apart s := rfl

@[simp] theorem raise_apart (src : Nat) (s : State) : apart (raise src s) = apart s := by
  rw [← quiet_apart, raise_quiet, quiet_apart]

@[simp] theorem count_apart (g : Reg) (is : List Nat) (lo n : Nat) (s : State) : apart (count g is lo n s) = apart s := rfl

@[simp] theorem countStatus_apart (w : Issuer) (p : Packet) (f : Option Finding) (s : State) :
    apart (countStatus w p f s) = apart s := by
  unfold countStatus; dsimp only; (repeat' split) <;> first | rfl | exact raise_apart _ _ | exact (raise_apart _ _).trans (raise_apart _ _)

/-- A reply changes the command processor, the counters, the events and the sets alone. -/
@[simp] theorem reply_apart (w : Issuer) (p : Packet) (f : Option Finding) (r : Nat) (s : State) :
    apart (reply w p f r s) = apart s := by
  unfold reply; dsimp only; (repeat' split) <;> first | rfl | exact countStatus_apart _ _ _ _


/-- A set's changes reach nothing when it is pushed. -/
@[simp] theorem pushSet_apart (w : List RimWrite) (s : State) : apart (pushSet w s) = apart s := rfl

end Sys2Proof.Machine
end

