-- ==== Sys2Proof/Laws/FramePending.lean ====
section
/-!
SUPPORT. Laws/FramePending.lean: every operation of the machine leaves the queue of waiting commands as it is. One lemma for
each operation.
-/

namespace Sys2Proof.Machine

variable {α : Type}

/-- The state that executing a command leaves. -/
def actState : Act → State
  | .done t _ _ => t
  | .start t _ _ => t

@[simp] theorem actState_done (t : State) (r : Nat) (c : Bool) : actState (.done t r c) = t := rfl

@[simp] theorem actState_start (t : State) (op : LongOp) (c : Bool) : actState (.start t op c) = t := rfl

theorem foldl_pending (f : State → α → State) (h : ∀ s a, (f s a).pending = s.pending) (l : List α) (s : State) :
    (l.foldl f s).pending = s.pending := by
  induction l generalizing s with
  | nil => rfl
  | cons a l ih => rw [List.foldl_cons, ih, h]

@[simp] theorem regStore_pending (s : State) (g : Reg) (is : List Nat) (v : W32) :
    (regStore s g is v).pending = s.pending := by rfl

@[simp] theorem bumpW_pending (key w n : Nat) (s : State) : (bumpW key w n s).pending = s.pending := by rfl

@[simp] theorem count_pending (g : Reg) (is : List Nat) (lo n : Nat) (s : State) :
    (count g is lo n s).pending = s.pending := by rfl

@[simp] theorem countMax_pending (g : Reg) (is : List Nat) (lo n : Nat) (s : State) :
    (countMax g is lo n s).pending = s.pending := by rfl

@[simp] theorem portCount_pending (p c n : Nat) (s : State) : (portCount p c n s).pending = s.pending := by rfl

@[simp] theorem putSide_pending (s : State) (d : SideId) (r : SideRec) : (putSide s d r).pending = s.pending := by
  unfold putSide; split <;> simp

@[simp] theorem gatedWrite_pending (d : SideId) (s : State) : (gatedWrite d s).pending = s.pending := by
  unfold gatedWrite; split <;> simp

/-- What a side does through its gate, where the act leaves it. -/
theorem byGate_pending (d : SideId) (f : State → State) (s : State) (h : ∀ s, (f s).pending = s.pending) : (byGate d f s).pending = s.pending := by
  unfold byGate; split <;> simp [h]

@[simp] theorem record_pending (b : SsBody) (s : State) : (record b s).pending = s.pending := by rfl

@[simp] theorem caughtUp_pending (s : State) : (caughtUp s).pending = s.pending := by rfl

@[simp] theorem keepReg_pending (x : RegRec) (s : State) : (keepReg x s).pending = s.pending := by rfl

@[simp] theorem timeRecordAt_pending (sub : TimeSub) (ns : Nat) (s : State) :
    (timeRecordAt sub ns s).pending = s.pending := by rfl

@[simp] theorem timeRecord_pending (sub : TimeSub) (s : State) : (timeRecord sub s).pending = s.pending := by rfl

/-- What a side decides at a record's own time, where the decision leaves it. -/
theorem consumeAt_pending (st : Stamp) (f : State → State) (s : State) (h : ∀ s, (f s).pending = s.pending) :
    (consumeAt st f s).pending = s.pending := by
  have e : (f { s with jrn := { s.jrn with last := st } }).pending = s.pending := (h _).trans rfl
  exact e

@[simp] theorem pushSet_pending (w : List RimWrite) (s : State) : (pushSet w s).pending = s.pending := by rfl

@[simp] theorem raiseS_pending (src : Nat) (s : State) : (raiseS src s).pending = s.pending := by rfl

@[simp] theorem countS_pending (g : Reg) (is : List Nat) (lo n : Nat) (s : State) :
    (countS g is lo n s).pending = s.pending := by rfl

@[simp] theorem portCountS_pending (p c n : Nat) (s : State) : (portCountS p c n s).pending = s.pending := by rfl

@[simp] theorem putVec_pending (s : State) (h v : Nat) (x : Vec) : (putVec s h v x).pending = s.pending := by rfl

@[simp] theorem msgDue_pending (h v : Nat) (plain : Bool) (s : State) : (msgDue h v plain s).1.pending = s.pending := by
  unfold msgDue
  dsimp only
  (repeat' split) <;> simp

@[simp] theorem trigRaw_pending (h v : Nat) (plain : Bool) (s : State) : (trigRaw h v plain s).1.pending = s.pending := by
  unfold trigRaw
  dsimp only
  (repeat' split) <;> simp

@[simp] theorem setBits_pending (src : Nat) (s : State) : (setBits src s).1.pending = s.pending := by rfl

@[simp] theorem trigHosts_pending (src : Nat) (l : List Nat) (s : State) : (trigHosts src l s).1.pending = s.pending := by
  induction l generalizing s with
  | nil => rfl
  | cons n ns ih =>
    simp only [trigHosts]
    rw [ih]; split <;> simp

@[simp] theorem raiseBlocked_pending (s : State) : (raiseBlocked s).pending = s.pending := by
  simp [raiseBlocked]

@[simp] theorem raise_pending (src : Nat) (s : State) : (raise src s).pending = s.pending := by
  unfold raise
  dsimp only
  (repeat' split) <;> simp

@[simp] theorem trigger_pending (h v : Nat) (s : State) : (trigger h v s).pending = s.pending := by
  unfold trigger
  dsimp only
  (repeat' split) <;> simp

@[simp] theorem offer_pending (r : RecIn) (s : State) : (offer r s).pending = s.pending := by rfl

@[simp] theorem setAlarm_pending (i : Nat) (s : State) : (setAlarm i s).pending = s.pending := by rfl

@[simp] theorem clearAlarm_pending (i : Nat) (s : State) : (clearAlarm i s).pending = s.pending := by rfl

@[simp] theorem bypDrive_pending (s : State) : (bypDrive s).pending = s.pending := by rfl

@[simp] theorem toMode_pending (m : Nat) (faulty : Bool) (s : State) : (toMode m faulty s).pending = s.pending := by
  unfold toMode; split <;> simp

@[simp] theorem followSides_pending (s : State) : (followSides s).pending = s.pending := by
  unfold followSides; split <;> simp

@[simp] theorem putGate_pending (s : State) (p : Nat) (g : GateP) : (putGate s p g).pending = s.pending := by rfl

@[simp] theorem putPort_pending (s : State) (p : Nat) (x : PortSt) : (putPort s p x).pending = s.pending := by rfl

@[simp] theorem adjLost_pending (p : Nat) (s : State) : (adjLost p s).pending = s.pending := by
  unfold adjLost
  dsimp only
  (repeat' split) <;> simp

@[simp] theorem accrueLpi_pending (p : Nat) (s : State) : (accrueLpi p s).pending = s.pending := by
  unfold accrueLpi
  dsimp only
  (repeat' split) <;> simp

@[simp] theorem accrueRxLpi_pending (p : Nat) (s : State) : (accrueRxLpi p s).pending = s.pending := by
  unfold accrueRxLpi
  dsimp only
  (repeat' split) <;> simp

@[simp] theorem accrueAll_pending (s : State) : (accrueAll s).pending = s.pending := by
  simp only [accrueAll]
  (repeat' split) <;> simp [foldl_pending]

@[simp] theorem leaveLpi_pending (p : Nat) (s : State) : (leaveLpi p s).pending = s.pending := by
  unfold leaveLpi; split <;> simp

@[simp] theorem wake_pending (p : Nat) (s : State) : (wake p s).pending = s.pending := by
  unfold wake; split <;> simp

@[simp] theorem dropLanes_pending (p : Nat) (s : State) : (dropLanes p s).pending = s.pending := by
  dsimp only [dropLanes]; rw [foldl_pending _ (fun s a => by simp)]; simp

@[simp] theorem dropLink_pending (p : Nat) (lock : Bool) (s : State) : (dropLink p lock s).pending = s.pending := by
  simp [dropLink]

@[simp] theorem settleOff_pending (p : Nat) (s : State) : (settleOff p s).pending = s.pending := by
  unfold settleOff
  dsimp only
  (repeat' split) <;> simp

@[simp] theorem safePorts_pending (s : State) (on : Bool) : (safePorts s on).pending = s.pending := by
  unfold safePorts
  exact foldl_pending _ (fun s a => by split <;> simp) _ _

@[simp] theorem safeFields_pending (s : State) (on : Bool) : (safeFields s on).pending = s.pending := by rfl

@[simp] theorem updSide_pending (d : SideId) (f : SideRec → SideRec) (s : State) : (updSide d f s).pending = s.pending := by
  simp [updSide]

@[simp] theorem putWork_pending (g : Nat) (op : LongOp) (s : State) : (putWork g op s).pending = s.pending := by
  unfold putWork; split <;> simp

@[simp] theorem testOutcome_pending (status : Nat) (s : State) : (testOutcome status s).pending = s.pending := by
  unfold testOutcome; split <;> simp

@[simp] theorem activateOutcome_pending (d : SideId) (status : Nat) (s : State) :
    (activateOutcome d status s).pending = s.pending := by
  unfold activateOutcome
  (repeat' split) <;> simp

@[simp] theorem goOut_pending (d : SideId) (s : State) : (goOut d s).pending = s.pending := by
  simp [goOut]

@[simp] theorem stopTest_pending (s : State) : (stopTest s).pending = s.pending := by
  unfold stopTest
  dsimp only
  (repeat' split) <;> simp

@[simp] theorem goSafe_pending (fault : Bool) (s : State) : (goSafe fault s).pending = s.pending := by
  simp [goSafe]

@[simp] theorem enterSafe_pending (cause : Nat) (fault : Bool) (s : State) :
    (enterSafe cause fault s).pending = s.pending := by
  unfold enterSafe
  dsimp only
  (repeat' split) <;> simp

@[simp] theorem draw_pending (s : State) : (draw s).2.pending = s.pending := by rfl

@[simp] theorem bumpGen_pending (p : Packet) (s : State) : (bumpGen p s).pending = s.pending := by rfl

@[simp] theorem putAq_pending (s : State) (h : Nat) (a : AdminHost) : (putAq s h a).pending = s.pending := by rfl

@[simp] theorem countStatus_pending (who : Issuer) (p : Packet) (f : Option Finding) (s : State) :
    (countStatus who p f s).pending = s.pending := by
  unfold countStatus
  (repeat' split) <;> simp

@[simp] theorem dueStatus_pending (who : Issuer) (p : Packet) (status off result : Nat) (gen : W32) (epoch head : BitVec 16) (s : State) :
    (dueStatus who p status off result gen epoch head s).pending = s.pending := by rfl

@[simp] theorem reply_pending (who : Issuer) (p : Packet) (f : Option Finding) (result : Nat) (s : State) :
    (reply who p f result s).pending = s.pending := by
  unfold reply
  (repeat' split) <;> simp

@[simp] theorem putChan_pending (s : State) (c : Nat) (x : ChanSt) : (putChan s c x).pending = s.pending := by rfl

@[simp] theorem pchError_pending (c code : Nat) (dir : Bool) (addr : BitVec 64) (space h : Nat) (s : State) :
    (pchError c code dir addr space h s).pending = s.pending := by rfl

@[simp] theorem pchOver_pending (c code n : Nat) (s : State) : (pchOver c code n s).pending = s.pending := by rfl

@[simp] theorem pchDone_pending (c n : Nat) (s : State) : (pchDone c n s).pending = s.pending := by rfl

@[simp] theorem ibChannel_pending (c : CmdSpec) (who : Issuer) (p : Packet) (ib : ReadEnd) (s : State) :
    (ibChannel c who p ib s).pending = s.pending := by
  unfold ibChannel
  (repeat' split) <;> simp

@[simp] theorem putFlash_pending (s : State) (d : SideId) (f : Flash) : (putFlash s d f).pending = s.pending := by
  unfold putFlash; split <;> simp

@[simp] theorem noteIb_pending (c : CmdSpec) (who : Issuer) (p : Packet) (r : Running) (old s : State) :
    (noteIb c who p r old s).pending = s.pending := by
  unfold noteIb; split <;> simp

@[simp] theorem noteOther_pending (c : CmdSpec) (b : Body) (who : Issuer) (p : Packet) (ib : ReadEnd) (kind : IbKind) (s : State) :
    (noteOther c b who p ib kind s).pending = s.pending := by
  unfold noteOther
  (repeat' split) <;> simp

/-- Executing a command, where its row's effect leaves it. -/
theorem perform_pending {b : Body} (h : ∀ w p l s, (actState (b.act w p l s)).pending = s.pending)
    (c : CmdSpec) (w : Issuer) (p : Packet) (ib : ReadEnd) (s : State) : (perform c b w p ib s).1.pending = s.pending := by
  unfold perform
  dsimp only
  generalize hu : (if (dryRun p && !c.query) = true then s else ibChannel c w p ib s) = u
  have hq : u.pending = s.pending := by rw [← hu]; split <;> simp
  split
  · simp [hq]
  · split
    · simp [hq]
    · have h' := h w p ((c.ibuf.bind (fun o => ibBytes p o ib)).getD []) u
      split <;> rename_i e <;> rw [e] at h'
      · dsimp only [actState] at h' ⊢; split <;> simp [h', hq]
      · simpa [actState, hq] using h'

@[simp] theorem touch_pending (o : Obj) (s : State) : (touch o s).pending = s.pending := by rfl

@[simp] theorem raiseAct_pending (src : Nat) (s : State) : (raiseAct src s).pending = s.pending := by
  unfold raiseAct; split <;> simp

@[simp] theorem putSq_pending (s : State) (h q : Nat) (x : Sq) : (putSq s h q x).pending = s.pending := by rfl

@[simp] theorem putCq_pending (s : State) (h c : Nat) (x : Cq) : (putCq s h c x).pending = s.pending := by rfl

@[simp] theorem putPage_pending (s : State) (h q : Nat) (x : Sq) : (putPage s h q x).pending = s.pending := by
  unfold putPage; split <;> simp

@[simp] theorem putCqPage_pending (s : State) (h c : Nat) (x : Cq) : (putCqPage s h c x).pending = s.pending := by
  unfold putCqPage; split <;> simp

@[simp] theorem keepPage_pending (h q : Nat) (s : State) : (keepPage h q s).pending = s.pending := by
  unfold keepPage; split <;> simp

@[simp] theorem keepCqPage_pending (h c : Nat) (s : State) : (keepCqPage h c s).pending = s.pending := by
  unfold keepCqPage; split <;> simp

@[simp] theorem adminPlace_pending (h : Nat) (s : State) : (adminPlace h s).pending = s.pending := by
  unfold adminPlace
  (repeat' split) <;> simp

@[simp] theorem consumeAdmin_pending (h : Host) (s : State) : (consumeAdmin h s).pending = s.pending := by
  simp [consumeAdmin]

@[simp] theorem resume_pending (s t : State) : (resume s t).pending = t.pending := by rfl

/-- A row of the opcode tables, where its effect leaves it. -/
theorem runAdmin_pending {b : Body} (h : ∀ w p l s, (actState (b.act w p l s)).pending = s.pending)
    (c : CmdSpec) (n : Host) (p : Packet) (ib : ReadEnd) (s : State) : (runAdmin c b n p ib s).pending = s.pending := by
  unfold runAdmin
  dsimp only
  split
  · rw [resume_pending, perform_pending h]; simp
  · rfl

@[simp] theorem endLong_pending (g : Nat) (status result : Nat) (s : State) :
    (endLong g status result s).pending = s.pending := by
  unfold endLong
  (repeat' split) <;> simp

theorem bodyCreateCq_pending (w : Issuer) (p : Packet) (l : List Byte) (s : State) :
    (actState (bodyCreateCq.act w p l s)).pending = s.pending := by
  dsimp only [bodyCreateCq, actState]; simp

theorem bodyCreateSq_pending (w : Issuer) (p : Packet) (l : List Byte) (s : State) :
    (actState (bodyCreateSq.act w p l s)).pending = s.pending := by
  dsimp only [bodyCreateSq, actState]; simp

@[simp] theorem dropSq_pending (h q : Nat) (s : State) : (dropSq h q s).pending = s.pending := by
  unfold dropSq; split <;> simp

@[simp] theorem dropCq_pending (h c : Nat) (s : State) : (dropCq h c s).pending = s.pending := by
  unfold dropCq; split <;> simp

theorem bodyDeleteSq_pending (w : Issuer) (p : Packet) (l : List Byte) (s : State) :
    (actState (bodyDeleteSq.act w p l s)).pending = s.pending := by
  dsimp only [bodyDeleteSq, actState]; simp

theorem bodyDeleteCq_pending (w : Issuer) (p : Packet) (l : List Byte) (s : State) :
    (actState (bodyDeleteCq.act w p l s)).pending = s.pending := by
  dsimp only [bodyDeleteCq, actState]; simp

theorem bodySetWrr_pending (w : Issuer) (p : Packet) (l : List Byte) (s : State) :
    (actState (bodySetWrr.act w p l s)).pending = s.pending := by
  dsimp only [bodySetWrr]
  (repeat' split) <;> simp [actState]

theorem bodySetQuota_pending (w : Issuer) (p : Packet) (l : List Byte) (s : State) :
    (actState (bodySetQuota.act w p l s)).pending = s.pending := by rfl

@[simp] theorem rimSqPage_pending (h q : Nat) (on : Bool) (s : State) : (rimSqPage h q on s).pending = s.pending := by
  unfold rimSqPage
  (repeat' split) <;> simp

@[simp] theorem rimCqPage_pending (h c : Nat) (on : Bool) (s : State) : (rimCqPage h c on s).pending = s.pending := by
  unfold rimCqPage
  (repeat' split) <;> simp

@[simp] theorem withOwn_pending (who : Issuer) (p : Packet) (s : State) : (withOwn who p s).pending = s.pending := by
  unfold withOwn; split <;> simp

theorem bodyQueQuery_pending (w : Issuer) (p : Packet) (l : List Byte) (s : State) :
    (actState (bodyQueQuery.act w p l s)).pending = s.pending := by rfl

@[simp] theorem settleGens_pending (s : State) : (settleGens s).pending = s.pending := by rfl

theorem bodyIdLoad_pending (w : Issuer) (p : Packet) (l : List Byte) (s : State) :
    (actState (bodyIdLoad.act w p l s)).pending = s.pending := by rfl

theorem bodyMeterSet_pending (w : Issuer) (p : Packet) (l : List Byte) (s : State) :
    (actState (bodyMeterSet.act w p l s)).pending = s.pending := by rfl

theorem bodySeqgenSet_pending (w : Issuer) (p : Packet) (l : List Byte) (s : State) :
    (actState (bodySeqgenSet.act w p l s)).pending = s.pending := by rfl

@[simp] theorem takeSeq_pending (flow : Nat) (s : State) : (takeSeq flow s).1.pending = s.pending := by
  unfold takeSeq
  dsimp only
  (repeat' split) <;> simp

@[simp] theorem putRec_pending (s : State) (r : Nat) (x : SeqRec) : (putRec s r x).pending = s.pending := by rfl

@[simp] theorem frerReset_pending (r : Nat) (s : State) : (frerReset r s).pending = s.pending := by rfl

@[simp] theorem recover_pending (r : Nat) (f : List Byte) (el : Nat) (s : State) :
    (recover r f el s).1.pending = s.pending := by
  unfold recover
  dsimp only
  (repeat' split) <;> simp

theorem bodySeqrecSet_pending (w : Issuer) (p : Packet) (l : List Byte) (s : State) :
    (actState (bodySeqrecSet.act w p l s)).pending = s.pending := by rfl

@[simp] theorem block_pending (h : Nat) (b : BitVec 2) (s : State) : (block h b s).pending = s.pending := by rfl

@[simp] theorem police_pending (e : BitVec 512) (r : RxSum) (s : State) : (police e r s).1.pending = s.pending := by
  unfold police
  dsimp only
  (repeat' split) <;> simp

@[simp] theorem streamPath_pending (e : BitVec 512) (r : RxSum) (s : State) : (streamPath e r s).1.pending = s.pending := by
  unfold streamPath
  dsimp only
  (repeat' split) <;> simp

theorem bodyStrmQuery_pending (w : Issuer) (p : Packet) (l : List Byte) (s : State) :
    (actState (bodyStrmQuery.act w p l s)).pending = s.pending := by rfl

@[simp] theorem cutWire_pending (p : Nat) (w : OnWire) (d : Nat) (s : State) : (cutWire p w d s).pending = s.pending := by rfl

@[simp] theorem assertHold_pending (p : Nat) (s : State) : (assertHold p s).pending = s.pending := by
  unfold assertHold
  dsimp only
  (repeat' split) <;> simp

@[simp] theorem closeFrames_pending (p : Nat) (new : BitVec 8) (el : Nat) (s : State) :
    (closeFrames p new el s).pending = s.pending := by
  unfold closeFrames
  (repeat' split) <;> simp

@[simp] theorem startEntry_pending (p i : Nat) (el : Nat) (first : Bool) (s : State) :
    (startEntry p i el first s).pending = s.pending := by
  unfold startEntry
  dsimp only
  (repeat' split) <;> simp

@[simp] theorem midnight_pending (p net el : Nat) (first : Bool) (s : State) :
    (midnight p net el first s).pending = s.pending := by
  simp [midnight]

@[simp] theorem toMidnight_pending (p el e m : Nat) (first : Bool) (held : BitVec 8) (s : State) :
    (toMidnight p el e m first held s).pending = s.pending := by
  unfold toMidnight; split <;> simp

@[simp] theorem refill_pending (p t : Nat) (s : State) : (refill p t s).pending = s.pending := by
  unfold refill
  dsimp only
  (repeat' split) <;> simp

@[simp] theorem dropHead_pending (p t : Nat) (relay : Bool) (s : State) : (dropHead p t relay s).pending = s.pending := by
  unfold dropHead; split <;> simp

@[simp] theorem segmentStarts_pending (p t : Nat) (x : Staged) (s : State) :
    (segmentStarts p t x s).pending = s.pending := by
  unfold segmentStarts; split <;> simp

@[simp] theorem startFrame_pending (p t : Nat) (x : Staged) (relay : Bool) (at_ : Nat) (s : State) :
    (startFrame p t x relay at_ s).pending = s.pending := by
  simp [startFrame]

@[simp] theorem rimTape_pending (p : Nat) (t : List TapeEntry) (start : Nat) (s : State) :
    (rimTape p t start s).pending = s.pending := by rfl

@[simp] theorem rimTapeCancel_pending (p : Nat) (s : State) : (rimTapeCancel p s).pending = s.pending := by rfl

@[simp] theorem applyKinds_pending (p : Nat) (s : State) : (applyKinds p s).pending = s.pending := by
  unfold applyKinds
  dsimp only
  (repeat' split) <;> simp

@[simp] theorem takeTx_pending (p : Nat) (s : State) : (takeTx p s).pending = s.pending := by
  unfold takeTx
  dsimp only
  (repeat' split) <;> simp

@[simp] theorem rimGateClass_pending (p t : Nat) (pre : Bool) (us : Nat) (s : State) :
    (rimGateClass p t pre us s).pending = s.pending := by
  simp [rimGateClass]

@[simp] theorem rimGateClose_pending (p : Nat) (fit : Bool) (s : State) : (rimGateClose p fit s).pending = s.pending := by rfl

theorem bodyTapeLoad_pending (w : Issuer) (p : Packet) (l : List Byte) (s : State) :
    (actState (bodyTapeLoad.act w p l s)).pending = s.pending := by rfl

theorem bodyClassSet_pending (w : Issuer) (p : Packet) (l : List Byte) (s : State) :
    (actState (bodyClassSet.act w p l s)).pending = s.pending := by rfl

theorem bodyCloseMode_pending (w : Issuer) (p : Packet) (l : List Byte) (s : State) :
    (actState (bodyCloseMode.act w p l s)).pending = s.pending := by rfl

theorem bodyTapeCancel_pending (w : Issuer) (p : Packet) (l : List Byte) (s : State) :
    (actState (bodyTapeCancel.act w p l s)).pending = s.pending := by rfl

theorem bodyGateQuery_pending (w : Issuer) (p : Packet) (l : List Byte) (s : State) :
    (actState (bodyGateQuery.act w p l s)).pending = s.pending := by rfl

@[simp] theorem putOp_pending (s : State) (t : Nat) (o : Op) : (putOp s t o).pending = s.pending := by rfl

@[simp] theorem freeLater_pending (use n : Nat) (s : State) : (freeLater use n s).pending = s.pending := by
  unfold freeLater; split <;> simp

@[simp] theorem freeNow_pending (use n : Nat) (s : State) : (freeNow use n s).pending = s.pending := by
  unfold freeNow
  (repeat' split) <;> simp

@[simp] theorem freeCommitted_pending (s : State) : (freeCommitted s).pending = s.pending := by
  simp [freeCommitted, foldl_pending]

@[simp] theorem completeOp_pending (t status : Nat) (flags : Byte) (result : Nat) (ts : Ts) (s : State) :
    (completeOp t status flags result ts s).pending = s.pending := by
  unfold completeOp
  dsimp only
  (repeat' split) <;> simp

@[simp] theorem settleTx_pending (l : List Nat) (s : State) : (settleTx l s).pending = s.pending := by
  fun_induction settleTx l s <;> simp_all

@[simp] theorem finishTx_pending (t : Nat) (s : State) : (finishTx t s).pending = s.pending := by
  unfold finishTx
  (repeat' split) <;> simp

@[simp] theorem completeRx_pending (t code : Nat) (o : Op) (s : State) : (completeRx t code o s).pending = s.pending := by
  unfold completeRx; split <;> simp

@[simp] theorem settleRx_pending (l : List Nat) (s : State) : (settleRx l s).pending = s.pending := by
  fun_induction settleRx l s <;> simp_all

@[simp] theorem finishRx_pending (t code : Nat) (s : State) : (finishRx t code s).pending = s.pending := by
  unfold finishRx; split <;> simp

@[simp] theorem failOp_pending (t status : Nat) (s : State) : (failOp t status s).pending = s.pending := by
  unfold failOp
  (repeat' split) <;> simp

@[simp] theorem countExpired_pending (p : Nat) (s : State) : (countExpired p s).pending = s.pending := by rfl

@[simp] theorem putTxts_pending (s : State) (p : Nat) (q : TxTsQ) : (putTxts s p q).pending = s.pending := by rfl

@[simp] theorem pushTxts_pending (p : Nat) (ts : Ts) (ref : W32) (s : State) :
    (pushTxts p ts ref s).pending = s.pending := by
  unfold pushTxts
  dsimp only
  (repeat' split) <;> simp

@[simp] theorem popTxts_pending (p : Nat) (s : State) : (popTxts p s).1.pending = s.pending := by
  unfold popTxts
  dsimp only
  (repeat' split) <;> simp

@[simp] theorem putFlow_pending (s : State) (f : Nat) (x : FlowQ) : (putFlow s f x).pending = s.pending := by rfl

@[simp] theorem putVt_pending (s : State) (p t v : Nat) : (putVt s p t v).pending = s.pending := by rfl

@[simp] theorem becomeHead_pending (f : Nat) (wasEmpty : Bool) (s : State) :
    (becomeHead f wasEmpty s).pending = s.pending := by
  unfold becomeHead
  dsimp only
  (repeat' split) <;> simp

@[simp] theorem enqueue_pending (f : Nat) (e : Elem) (s : State) : (enqueue f e s).pending = s.pending := by
  unfold enqueue
  dsimp only
  (repeat' split) <;> simp

@[simp] theorem dequeue_pending (f : Nat) (s : State) : (dequeue f s).pending = s.pending := by
  simp [dequeue]

@[simp] theorem enterFlow_pending (f : Nat) (kind : ElemKind) (tag : Option Nat) (bytes : List Byte) (s : State) :
    (enterFlow f kind tag bytes s).pending = s.pending := by
  unfold enterFlow
  dsimp only
  (repeat' split) <;> simp [foldl_pending]

@[simp] theorem measure_pending (f p t d : Nat) (s : State) : (measure f p t d s).pending = s.pending := by
  unfold measure
  refine foldl_pending _ (fun s a => ?_) _ _
  dsimp only; (repeat' split) <;> simp

@[simp] theorem stage_pending (p t : Nat) (x : Staged) (s : State) : (stage p t x s).pending = s.pending := by rfl

@[simp] theorem charge_pending (f p t lc tag : Nat) (s : State) : (charge f p t lc tag s).pending = s.pending := by rfl

@[simp] theorem countWaiting_pending (p t : Nat) (s : State) : (countWaiting p t s).pending = s.pending := by
  unfold countWaiting
  refine foldl_pending _ (fun s a => ?_) _ _
  (repeat' split) <;> simp [countWaiting.portCountWaited]

@[simp] theorem releaseChan_pending (c : Nat) (s : State) : (releaseChan c s).pending = s.pending := by rfl

@[simp] theorem endPrefetch_pending (tag : Nat) (s : State) : (endPrefetch tag s).pending = s.pending := by
  unfold endPrefetch
  (repeat' split) <;> simp

@[simp] theorem dropStream_pending (f tag : Nat) (s : State) : (dropStream f tag s).pending = s.pending := by
  unfold dropStream
  dsimp only
  (repeat' split) <;> simp

@[simp] theorem dropFlow_pending (ts : List Nat) (s : State) (f : Nat) : (dropFlow ts s f).pending = s.pending := by
  unfold dropFlow
  dsimp only
  (repeat' split) <;> simp

@[simp] theorem putPtp_pending (p : Nat) (x : Staged) (s : State) : (putPtp p x s).pending = s.pending := by rfl

@[simp] theorem flushPtp_pending (l : List (Nat × Staged)) (s : State) : (flushPtp l s).pending = s.pending := by
  fun_induction flushPtp l s <;> simp_all

@[simp] theorem settleDuePtp_pending (s : State) : (settleDuePtp s).pending = s.pending := by
  unfold settleDuePtp; split <;> simp

@[simp] theorem stagePtp_pending (p ty slot seq : Nat) (cap : Option Ts) (s : State) :
    (stagePtp p ty slot seq cap s).pending = s.pending := by
  simp only [stagePtp]; split <;> simp

@[simp] theorem putDelay_pending (s : State) (p k : Nat) (x : PtpDelay) : (putDelay s p k x).pending = s.pending := by rfl

@[simp] theorem noteReq_pending (p k seq : Nat) (ts : Ts) (s : State) : (noteReq p k seq ts s).pending = s.pending := by rfl

@[simp] theorem ptpFollow_pending (p : Nat) (x : Staged) (ts : Ts) (s : State) :
    (ptpFollow p x ts s).pending = s.pending := by
  unfold ptpFollow
  dsimp only
  (repeat' split) <;> simp

@[simp] theorem consumeDepart_pending (p : Nat) (x : Staged) (left : Bool) (ts : Ts) (s : State) :
    (consumeDepart p x left ts s).pending = s.pending := by
  unfold consumeDepart
  dsimp only
  (repeat' split) <;> simp

@[simp] theorem consumeDeparts_pending (s : State) : (consumeDeparts s).pending = s.pending := by
  unfold consumeDeparts
  split
  · dsimp only
    rw [settleDuePtp_pending, foldl_pending _ (fun s a => consumeAt_pending _ _ _ (fun s => by simp))]
  · rfl

@[simp] theorem reportDepart_pending (p t : Nat) (x : Staged) (left : Bool) (ts : Ts) (s : State) :
    (reportDepart p t x left ts s).pending = s.pending := by
  unfold reportDepart; split <;> simp

@[simp] theorem countTx_pending (p : Nat) (w : OnWire) (s : State) : (countTx p w s).pending = s.pending := by
  unfold countTx
  (repeat' split) <;> simp

@[simp] theorem endWire_pending (p : Nat) (w : OnWire) (s : State) : (endWire p w s).pending = s.pending := by
  unfold endWire
  (repeat' split) <;> simp

@[simp] theorem endExpired_pending (p : Nat) (e : Elem) (s : State) : (endExpired p e s).pending = s.pending := by
  unfold endExpired
  dsimp only
  (repeat' split) <;> simp

@[simp] theorem expireHead_pending (f : Nat) (s : State) : (expireHead f s).pending = s.pending := by
  unfold expireHead
  dsimp only
  (repeat' split) <;> simp

@[simp] theorem expireAt_pending (f : Nat) (before : List Elem) (e : Elem) (behind : List Elem) (s : State) :
    (expireAt f before e behind s).pending = s.pending := by
  unfold expireAt; split <;> simp

theorem bodyFlowSet_pending (w : Issuer) (p : Packet) (l : List Byte) (s : State) :
    (actState (bodyFlowSet.act w p l s)).pending = s.pending := by rfl

theorem bodyFlowDisable_pending (w : Issuer) (p : Packet) (l : List Byte) (s : State) :
    (actState (bodyFlowDisable.act w p l s)).pending = s.pending := by rfl

theorem bodySchQuery_pending (w : Issuer) (p : Packet) (l : List Byte) (s : State) :
    (actState (bodySchQuery.act w p l s)).pending = s.pending := by rfl

@[simp] theorem sendLldp_pending (p : Nat) (s : State) : (sendLldp p s).pending = s.pending := by
  unfold sendLldp; split <;> simp

@[simp] theorem abortTx_pending (p : Nat) (s : State) : (abortTx p s).pending = s.pending := by
  unfold abortTx
  dsimp only
  (repeat' split) <;> simp

@[simp] theorem rxPop_pending (p : Nat) (s : State) : (rxPop p s).pending = s.pending := by
  unfold rxPop
  dsimp only
  (repeat' split) <;> simp

@[simp] theorem dropRx_pending (p : Nat) (s : State) : (dropRx p s).pending = s.pending := by
  unfold dropRx; split <;> simp

@[simp] theorem abortRx_pending (p : Nat) (s : State) : (abortRx p s).pending = s.pending := by
  simp [abortRx]

@[simp] theorem laneDown_pending (p : Nat) (lock : Bool) (s : State) : (laneDown p lock s).pending = s.pending := by
  unfold laneDown; split <;> simp

@[simp] theorem linkLost_pending (p : Nat) (lock : Bool) (s : State) : (linkLost p lock s).pending = s.pending := by
  unfold linkLost
  dsimp only
  (repeat' split) <;> simp

/-- A reservation that is made leaves it. -/
theorem reserve_pending {p n : Nat} {s t : State} (e : reserve p n s = some t) : t.pending = s.pending := by
  unfold reserve at e
  simp only at e
  split at e
  · cases e; simp
  · cases e

@[simp] theorem rimPortSet_pending (p speed iface maxlen : Nat) (bad eee : Bool) (s : State) :
    (rimPortSet p speed iface maxlen bad eee s).pending = s.pending := by
  unfold rimPortSet
  dsimp only
  (repeat' split) <;> simp

@[simp] theorem noteKeep_pending (p : Nat) (s : State) : (noteKeep p s).pending = s.pending := by
  unfold noteKeep
  dsimp only
  (repeat' split) <;> simp

@[simp] theorem noteKeeps_pending (s : State) : (noteKeeps s).pending = s.pending := by
  unfold noteKeeps
  exact foldl_pending _ (fun s a => by simp) _ _

@[simp] theorem asSeen_pending (p : Nat) (s : State) : (asSeen p s).pending = s.pending := by
  unfold asSeen; split <;> simp

@[simp] theorem rimPortEnable_pending (p : Nat) (en : Bool) (s : State) : (rimPortEnable p en s).pending = s.pending := by
  simp [rimPortEnable]

@[simp] theorem rimPortFilter_pending (p i : Nat) (valid : Bool) (mac : BitVec 48) (s : State) :
    (rimPortFilter p i valid mac s).pending = s.pending := by
  simp [rimPortFilter]

@[simp] theorem rimPortPeer_pending (p : Nat) (tw : Option Nat) (addFrag : BitVec 2) (s : State) :
    (rimPortPeer p tw addFrag s).pending = s.pending := by
  unfold rimPortPeer; split <;> simp

@[simp] theorem rimPortRecal_pending (p : Nat) (s : State) : (rimPortRecal p s).pending = s.pending := by
  simp [rimPortRecal]

theorem bodyPortSet_pending (w : Issuer) (p : Packet) (l : List Byte) (s : State) :
    (actState (bodyPortSet.act w p l s)).pending = s.pending := by rfl

theorem bodyPortEnable_pending (w : Issuer) (p : Packet) (l : List Byte) (s : State) :
    (actState (bodyPortEnable.act w p l s)).pending = s.pending := by
  dsimp only [bodyPortEnable]
  (repeat' split) <;> simp [actState]

theorem bodyPortFilterSet_pending (w : Issuer) (p : Packet) (l : List Byte) (s : State) :
    (actState (bodyPortFilterSet.act w p l s)).pending = s.pending := by rfl

theorem bodyPortEeeSet_pending (w : Issuer) (p : Packet) (l : List Byte) (s : State) :
    (actState (bodyPortEeeSet.act w p l s)).pending = s.pending := by rfl

theorem bodyPortRecal_pending (w : Issuer) (p : Packet) (l : List Byte) (s : State) :
    (actState (bodyPortRecal.act w p l s)).pending = s.pending := by rfl

theorem bodyPortQuery_pending (w : Issuer) (p : Packet) (l : List Byte) (s : State) :
    (actState (bodyPortQuery.act w p l s)).pending = s.pending := by rfl

@[simp] theorem writeDb_pending (h q : Nat) (aligned : Bool) (v : W32) (s : State) :
    (writeDb h q aligned v s).pending = s.pending := by
  unfold writeDb
  dsimp only
  (repeat' split) <;> simp

@[simp] theorem pushError_pending (h q : Nat) (x : Sq) (s : State) : (pushError h q x s).pending = s.pending := by
  simp [pushError]

@[simp] theorem pushSlots_pending (h q : Nat) (l : List (List Byte)) (s : State) :
    (pushSlots h q l s).pending = s.pending := by
  fun_induction pushSlots h q l s <;> simp_all

@[simp] theorem writePush_pending (h q off : Nat) (bytes : List Byte) (s : State) :
    (writePush h q off bytes s).pending = s.pending := by
  unfold writePush
  dsimp only
  (repeat' split) <;> simp

@[simp] theorem startTurn_pending (h q slots : Nat) (x : Sq) (s : State) :
    (startTurn h q slots x s).pending = s.pending := by rfl

@[simp] theorem noteTurn_pending (h : Nat) (admin : Bool) (s : State) : (noteTurn h admin s).pending = s.pending := by rfl

@[simp] theorem takeEntries_pending (h q : Nat) (x : Sq) (first : Idx) (l : List Taken) (stalled : Bool) (turn : Option FetchTurn) (s : State) :
    (takeEntries h q x first l stalled turn s).pending = s.pending := by
  unfold takeEntries
  simp only [putSq_pending]
  exact foldl_pending _ (fun s a => by simp) _ _

@[simp] theorem noteFault_pending (h q : Nat) (first : Idx) (n : Nat) (s : State) :
    (noteFault h q first n s).pending = s.pending := by rfl

@[simp] theorem dropTurns_pending (s : State) : (dropTurns s).pending = s.pending := by rfl

@[simp] theorem markStaged_pending (t : Nat) (s : State) : (markStaged t s).pending = s.pending := by rfl

@[simp] theorem adminFault_pending (h : Nat) (e : FetchErr) (s : State) : (adminFault h e s).pending = s.pending := by rfl

@[simp] theorem takePlace_pending (h c : Nat) (s : State) : (takePlace h c s).pending = s.pending := by
  unfold takePlace
  dsimp only
  (repeat' split) <;> simp

@[simp] theorem takeTag_pending (h q t : Nat) (x : Sq) (es : List Taken) (o : Op) (s : State) :
    (takeTag h q t x es o s).pending = s.pending := by
  simp [takeTag]

/-- The rows of a submission entry, where what the row runs leaves it. -/
theorem startNow_pending (h : Host) (q : QId) (t : OpTag) (mine : List Byte → Bool) (kind : OpKind)
    (extra : State → List Byte → List Finding) (ready : State → Sq → Bool) (run : Nat → Taken → State → State) (s : State)
    (hr : ∀ t e s, (run t e s).pending = s.pending) :
    (startNow h q t mine kind extra ready run s).pending = s.pending := by
  unfold startNow
  dsimp only
  (repeat' split) <;> simp [hr]

@[simp] theorem asOf_pending (e : Taken) (s : State) : (asOf e s).pending = s.pending := by
  unfold asOf; split <;> simp

@[simp] theorem goOn_pending (e : Taken) (s t : State) : (goOn e s t).pending = t.pending := by
  unfold goOn; split <;> simp

/-- The same at the record's own times. -/
theorem startRow_pending (h : Host) (q : QId) (t : OpTag) (mine : List Byte → Bool) (kind : OpKind)
    (extra : State → List Byte → List Finding) (ready : State → Sq → Bool) (run : Nat → Taken → State → State) (s : State)
    (hr : ∀ t e s, (run t e s).pending = s.pending) :
    (startRow h q t mine kind extra ready run s).pending = s.pending := by
  unfold startRow
  split
  · rfl
  · rw [goOn_pending, startNow_pending _ _ _ _ _ _ _ _ _ hr, asOf_pending]

@[simp] theorem updOp_pending (t : Nat) (f : Op → Op) (s : State) : (updOp t f s).pending = s.pending := by
  unfold updOp; split <;> simp

@[simp] theorem endFence_pending (h q t n : Nat) (s : State) : (endFence h q t n s).pending = s.pending := by
  unfold endFence; split <;> simp

@[simp] theorem laneStage_pending (f p tc t : Nat) (b : List Byte) (s : State) :
    (laneStage f p tc t b s).pending = s.pending := by
  unfold laneStage
  dsimp only
  (repeat' split) <;> simp [foldl_pending]

@[simp] theorem noteWritten_pending (i : CqItem) (s : State) : (noteWritten i s).pending = s.pending := by
  unfold noteWritten
  (repeat' split) <;> simp

@[simp] theorem writeSlot_pending (h c : Nat) (x : Cq) (i : CqItem) (s : State) :
    (writeSlot h c x i s).pending = s.pending := by
  unfold writeSlot; split <;> simp

@[simp] theorem writeItem_pending (h c : Nat) (i : CqItem) (s : State) : (writeItem h c i s).pending = s.pending := by
  unfold writeItem
  (repeat' split) <;> simp

@[simp] theorem settleAq_pending (h : Nat) (s : State) : (settleAq h s).pending = s.pending := by
  unfold settleAq
  dsimp only
  (repeat' split) <;> simp

@[simp] theorem putStatus_pending (h : Nat) (x : DueStatus) (rest : List DueStatus) (s : State) :
    (putStatus h x rest s).pending = s.pending := by
  simp [putStatus]

@[simp] theorem freeItems_pending (h c : Nat) (l : List CqItem) (s : State) : (freeItems h c l s).pending = s.pending := by
  unfold freeItems
  dsimp only
  (repeat' split) <;> simp

@[simp] theorem writeCi_pending (h q : Nat) (aligned : Bool) (v : W32) (s : State) :
    (writeCi h q aligned v s).pending = s.pending := by
  unfold writeCi
  dsimp only
  (repeat' split) <;> simp

@[simp] theorem writePage_pending (h a : Nat) (enables : BitVec 4) (v : W32) (s : State) :
    (writePage h a enables v s).pending = s.pending := by
  unfold writePage
  dsimp only
  (repeat' split) <;> simp

@[simp] theorem rewriteAll_pending (s : State) : (rewriteAll s).pending = s.pending := by
  unfold rewriteAll
  refine foldl_pending _ (fun s a => ?_) _ _
  dsimp only
  split <;> simp

@[simp] theorem freeBytes_pending (l : Nat) (s : State) : (freeBytes l s).2.pending = s.pending := by
  induction l generalizing s <;> simp_all [freeBytes]

@[simp] theorem writeBuf_pending (c h dst : Nat) (last : Bool) (s : State) :
    (writeBuf c h dst last s).pending = s.pending := by rfl

@[simp] theorem issueRead_pending (c : Nat) (s : State) : (issueRead c s).pending = s.pending := by
  unfold issueRead
  dsimp only
  (repeat' split) <;> simp

@[simp] theorem dmaTurns_pending (l : Nat) (s : State) : (dmaTurns l s).pending = s.pending := by
  fun_induction dmaTurns l s <;> simp_all

@[simp] theorem dmaGo_pending (s : State) : (dmaGo s).pending = s.pending := by
  unfold dmaGo; split <;> simp

@[simp] theorem streamData_pending (d : Desc) (offs : List Nat) (l : List Byte) (s : State) :
    (streamData d offs l s).2.pending = s.pending := by
  unfold streamData; split <;> simp

@[simp] theorem takeXfer_pending (c : Nat) (x : ChanSt) (l : List Byte) (s : State) :
    (takeXfer c x l s).pending = s.pending := by
  simp [takeXfer]

@[simp] theorem takeCopy_pending (c : Nat) (x : ChanSt) (o : Op) (l : List Byte) (s : State) :
    (takeCopy c x o l s).pending = s.pending := by
  unfold takeCopy
  dsimp only
  (repeat' split) <;> simp

@[simp] theorem takeRxWrite_pending (c : Nat) (x : ChanSt) (o : Op) (l : List Byte) (s : State) :
    (takeRxWrite c x o l s).pending = s.pending := by rfl

@[simp] theorem noteRead_pending (r : ReadReq) (s : State) : (noteRead r s).pending = s.pending := by
  unfold noteRead; split <;> simp

@[simp] theorem takeRead_pending (c : Nat) (s : State) : (takeRead c s).pending = s.pending := by
  simp only [takeRead]
  (repeat' split) <;> simp

@[simp] theorem arrive_pending (c : Nat) (bytes : List Byte) (s : State) : (arrive c bytes s).pending = s.pending := by
  unfold arrive
  dsimp only
  (repeat' split) <;> simp

@[simp] theorem poolError_pending (c code : Nat) (addr : BitVec 64) (s : State) :
    (poolError c code addr s).pending = s.pending := by
  unfold poolError
  dsimp only
  (repeat' split) <;> simp

@[simp] theorem poolErrors_pending (c code : Nat) (addr : BitVec 64) (also : Option PoolFault) (s : State) :
    (poolErrors c code addr also s).pending = s.pending := by
  unfold poolErrors
  (repeat' split) <;> simp

@[simp] theorem freeChan_pending (c : Nat) (s : State) : (freeChan c s).pending = s.pending := by rfl

@[simp] theorem fwStart_pending (c : Nat) (s : State) : (fwStart c s).pending = s.pending := by rfl

@[simp] theorem fwNext_pending (c : Nat) (more : Bool) (s : State) : (fwNext c more s).pending = s.pending := by
  unfold fwNext; split <;> simp

@[simp] theorem fwEnd_pending (c n : Nat) (more : Bool) (s : State) : (fwEnd c n more s).pending = s.pending := by
  simp [fwEnd]

@[simp] theorem withdrawn_pending (c residue : Nat) (s : State) : (withdrawn c residue s).pending = s.pending := by rfl

@[simp] theorem resumeChan_pending (c : Nat) (s : State) : (resumeChan c s).pending = s.pending := by
  unfold resumeChan
  dsimp only
  (repeat' split) <;> simp

@[simp] theorem poolRun_pending (s : State) : (poolRun s).pending = s.pending := by
  simp only [poolRun, dmaGo_pending]
  rw [foldl_pending _ (fun s a => by split <;> simp)]

@[simp] theorem poolResume_pending (s : State) : (poolResume s).pending = s.pending := by
  unfold poolResume; split <;> simp

@[simp] theorem poolAbort_pending (s : State) : (poolAbort s).pending = s.pending := by
  simp only [poolAbort]; split
  · rw [poolRun_pending, foldl_pending _ (fun s a => by split <;> simp)]
  · rfl

@[simp] theorem dropReads_pending (s : State) : (dropReads s).pending = s.pending := by rfl

@[simp] theorem endTxCopy_pending (t : Nat) (bytes : List Byte) (o : Op) (s : State) :
    (endTxCopy t bytes o s).pending = s.pending := by
  unfold endTxCopy
  (repeat' split) <;> simp

@[simp] theorem endOp_pending (t : Nat) (x : ChanSt) (s : State) : (endOp t x s).pending = s.pending := by
  unfold endOp
  dsimp only
  (repeat' split) <;> simp

@[simp] theorem putFld_pending (s : State) (n : Nat) (x : FldP) : (putFld s n x).pending = s.pending := by rfl

@[simp] theorem fldCount_pending (n c k : Nat) (s : State) : (fldCount n c k s).pending = s.pending := by rfl

theorem bodyFldPortSet_pending (w : Issuer) (p : Packet) (l : List Byte) (s : State) :
    (actState (bodyFldPortSet.act w p l s)).pending = s.pending := by rfl

theorem bodyFldQuery_pending (w : Issuer) (p : Packet) (l : List Byte) (s : State) :
    (actState (bodyFldQuery.act w p l s)).pending = s.pending := by rfl

@[simp] theorem startField_pending (n : Nat) (s : State) : (startField n s).pending = s.pending := by
  unfold startField
  dsimp only
  (repeat' split) <;> simp

@[simp] theorem leaveBus_pending (n : Nat) (s : State) : (leaveBus n s).pending = s.pending := by
  unfold leaveBus
  dsimp only
  (repeat' split) <;> simp

@[simp] theorem failDirect_pending (n : Nat) (s : State) : (failDirect n s).pending = s.pending := by
  unfold failDirect
  exact foldl_pending _ (fun s a => by split <;> simp) _ _

@[simp] theorem applyField_pending (n : Nat) (s : State) : (applyField n s).pending = s.pending := by
  unfold applyField
  dsimp only
  (repeat' split) <;> simp

@[simp] theorem fieldsOff_pending (s : State) : (fieldsOff s).pending = s.pending := by
  unfold fieldsOff
  dsimp only
  (repeat' split) <;> simp [foldl_pending]

@[simp] theorem goBusOff_pending (n : Nat) (s : State) : (goBusOff n s).pending = s.pending := by
  simp [goBusOff]

@[simp] theorem fieldGood_pending (n r : Nat) (f : FldFrame) (s : State) : (fieldGood n r f s).pending = s.pending := by
  unfold fieldGood
  dsimp only
  (repeat' split) <;> simp

@[simp] theorem fieldDrop_pending (n c r : Nat) (s : State) : (fieldDrop n c r s).pending = s.pending := by rfl

@[simp] theorem fieldAbort_pending (n r : Nat) (s : State) : (fieldAbort n r s).pending = s.pending := by
  simp [fieldAbort]

@[simp] theorem cutField_pending (n : Nat) (s : State) : (cutField n s).pending = s.pending := by
  unfold cutField
  dsimp only
  (repeat' split) <;> simp

@[simp] theorem fieldEnd_pending (n r : Nat) (f : FldFrame) (s : State) : (fieldEnd n r f s).pending = s.pending := by
  unfold fieldEnd
  dsimp only
  (repeat' split) <;> simp

@[simp] theorem fieldMoved_pending (n k : Nat) (s : State) : (fieldMoved n k s).pending = s.pending := by
  simp [fieldMoved]

@[simp] theorem takeEnqueue_pending (n : Nat) (f : FldTx) (s : State) : (takeEnqueue n f s).pending = s.pending := by
  unfold takeEnqueue
  dsimp only
  (repeat' split) <;> simp

@[simp] theorem decideEnqueue_pending (n : Nat) (f : FldFrame) (s : State) : (decideEnqueue n f s).pending = s.pending := by rfl

@[simp] theorem putAgg_pending (s : State) (a : Nat) (x : Agg) : (putAgg s a x).pending = s.pending := by rfl

theorem bodyAggLoad_pending (w : Issuer) (p : Packet) (l : List Byte) (s : State) :
    (actState (bodyAggLoad.act w p l s)).pending = s.pending := by rfl

@[simp] theorem loadAgg_pending (a : Nat) (l : List Byte) (s : State) : (loadAgg a l s).pending = s.pending := by
  unfold loadAgg; split <;> simp

@[simp] theorem triggerRun_pending (ref i : Nat) (s : State) : (triggerRun ref i s).pending = s.pending := by
  unfold triggerRun
  dsimp only
  (repeat' split) <;> simp

@[simp] theorem scatterWrite_pending (l : List (Nat × Nat × Nat)) (m : List Byte) (s : State) :
    (scatterWrite l m s).pending = s.pending := by
  fun_induction scatterWrite l m s <;> simp_all

@[simp] theorem imageBytes_pending (l : Nat) (s : State) : (imageBytes l s).2.pending = s.pending := by
  induction l generalizing s <;> simp_all [imageBytes]

@[simp] theorem badImage_pending (n : Nat) (s : State) : (badImage n s).pending = s.pending := by rfl

@[simp] theorem enqueueImage_pending (a n : Nat) (s : State) : (enqueueImage a n s).1.pending = s.pending := by
  unfold enqueueImage
  dsimp only
  (repeat' split) <;> simp

@[simp] theorem enqueueImages_pending (a : Nat) (l : List Nat) (s : State) :
    (enqueueImages a l s).1.pending = s.pending := by
  induction l generalizing s <;> simp_all [enqueueImages]

@[simp] theorem scatterEnd_pending (a : Nat) (s : State) : (scatterEnd a s).pending = s.pending := by
  unfold scatterEnd
  dsimp only
  (repeat' split) <;> simp

@[simp] theorem scatterRun_pending (a : Nat) (src : List Byte) (t : Option Nat) (s : State) :
    (scatterRun a src t s).pending = s.pending := by
  simp [scatterRun]

@[simp] theorem directSend_pending (a t : Nat) (s : State) : (directSend a t s).pending = s.pending := by
  unfold directSend
  (repeat' split) <;> simp

@[simp] theorem settleDirect_pending (s : State) : (settleDirect s).pending = s.pending := by
  simp only [settleDirect]
  (repeat' split) <;> simp [foldl_pending]

@[simp] theorem sourceFault_pending (h : Host) (q : QId) (t : OpTag) (src : ReadEnd) (s v : State) :
    (sourceFault h q t src s v).pending = v.pending := by
  unfold sourceFault
  (repeat' split) <;> simp

@[simp] theorem claimFrame_pending (i : Nat) (a : Agg) (f : List Byte) (s : State) :
    (claimFrame i a f s).pending = s.pending := by
  unfold claimFrame
  (repeat' split) <;> simp

@[simp] theorem fieldSent_pending (n c : Nat) (f : FldTx) (x : FldP) (s : State) :
    (fieldSent n c f x s).pending = s.pending := by
  simp [fieldSent]

@[simp] theorem failRun_pending (c status : Nat) (s : State) : (failRun c status s).pending = s.pending := by
  unfold failRun
  dsimp only
  (repeat' split) <;> simp

@[simp] theorem abandonRx_pending (s : State) : (abandonRx s).pending = s.pending := by
  unfold abandonRx; split <;> simp

@[simp] theorem abandonTx_pending (s : State) : (abandonTx s).pending = s.pending := by
  unfold abandonTx; split <;> simp

@[simp] theorem endServed_pending (c status : Nat) (s : State) : (endServed c status s).pending = s.pending := by
  unfold endServed
  (repeat' split) <;> simp

@[simp] theorem setId_pending (st id : Nat) (s : State) : (setId st id s).pending = s.pending := by rfl

@[simp] theorem sendCtl_pending (p : Nat) (bytes : List Byte) (s : State) : (sendCtl p bytes s).pending = s.pending := by
  unfold sendCtl
  dsimp only
  (repeat' split) <;> simp

@[simp] theorem enterConflict_pending (uid : BitVec 64) (s : State) : (enterConflict uid s).pending = s.pending := by
  unfold enterConflict
  (repeat' split) <;> simp

@[simp] theorem yieldId_pending (s : State) : (yieldId s).pending = s.pending := by rfl

@[simp] theorem judgeId_pending (uid : BitVec 64) (id : BitVec 12) (st : BitVec 2) (otherGiven : Bool) (s : State) :
    (judgeId uid id st otherGiven s).pending = s.pending := by
  unfold judgeId
  (repeat' split) <;> simp

@[simp] theorem endConflict_pending (s : State) : (endConflict s).pending = s.pending := by
  unfold endConflict
  (repeat' split) <;> simp

@[simp] theorem markConflicts_pending (s : State) : (markConflicts s).pending = s.pending := by
  unfold markConflicts
  dsimp only
  (repeat' split) <;> simp

@[simp] theorem takeHello_pending (p : Nat) (x : Hello) (s : State) : (takeHello p x s).pending = s.pending := by
  unfold takeHello
  dsimp only
  (repeat' split) <;> simp

@[simp] theorem keepFab_pending (x : FabIn) (s : State) : (keepFab x s).pending = s.pending := by
  unfold keepFab; split <;> simp

@[simp] theorem trimDb_pending (s : State) : (trimDb s).pending = s.pending := by
  unfold trimDb
  dsimp only
  (repeat' split) <;> simp

@[simp] theorem putTopo_pending (m : TopoMsg) (s : State) : (putTopo m s).pending = s.pending := by rfl

@[simp] theorem floodTopo_pending (p : Nat) (m : TopoMsg) (s : State) : (floodTopo p m s).pending = s.pending := by
  unfold floodTopo
  exact foldl_pending _ (fun s a => by split <;> simp) _ _

@[simp] theorem takeTopo_pending (p : Nat) (m : TopoMsg) (s : State) : (takeTopo p m s).pending = s.pending := by
  unfold takeTopo
  (repeat' split) <;> simp

@[simp] theorem consumeFab_pending (s : State) : (consumeFab s).pending = s.pending := by
  unfold consumeFab
  split
  · rw [foldl_pending _ (fun s a => ?_)]
    obtain ⟨a, st⟩ := a
    cases a <;> exact consumeAt_pending _ _ _ (fun s => by simp)
  · rfl

theorem bodyRouteLoad_pending (w : Issuer) (p : Packet) (l : List Byte) (s : State) :
    (actState (bodyRouteLoad.act w p l s)).pending = s.pending := by rfl

theorem bodyFabSet_pending (w : Issuer) (p : Packet) (l : List Byte) (s : State) :
    (actState (bodyFabSet.act w p l s)).pending = s.pending := by rfl

theorem bodyBypassSet_pending (w : Issuer) (p : Packet) (l : List Byte) (s : State) :
    (actState (bodyBypassSet.act w p l s)).pending = s.pending := by rfl

theorem bodyFabQuery_pending (w : Issuer) (p : Packet) (l : List Byte) (s : State) :
    (actState (bodyFabQuery.act w p l s)).pending = s.pending := by rfl

@[simp] theorem rimFabEnable_pending (en given : Bool) (st id : Nat) (s : State) :
    (rimFabEnable en given st id s).pending = s.pending := by
  have hb : ∀ t : State, (bypDrive { t with fab := { t.fab with en := en, given := given, idState := st, nodeId := id } }).pending = t.pending :=
    fun t => bypDrive_pending _
  exact (hb (noteKeeps s)).trans (noteKeeps_pending s)

@[simp] theorem rimBypassForce_pending (k : Nat) (on : Bool) (s : State) : (rimBypassForce k on s).pending = s.pending := by rfl

@[simp] theorem bypFailed_pending (k : Nat) (s : State) : (bypFailed k s).pending = s.pending := by
  unfold bypFailed; split <;> simp

@[simp] theorem countRelayed_pending (p : Nat) (s : State) : (countRelayed p s).pending = s.pending := by
  simp [countRelayed]

@[simp] theorem cutTo_pending (p e tc at_ : Nat) (bad : Bool) (f : List Byte) (s : State) :
    (cutTo p e tc at_ bad f s).pending = s.pending := by
  simp [cutTo]

@[simp] theorem relayTo_pending (p e : Nat) (cut : Option Nat) (f : List Byte) (s : State) :
    (relayTo p e cut f s).pending = s.pending := by
  unfold relayTo
  dsimp only
  (repeat' split) <;> simp

@[simp] theorem relayGood_pending (p : Nat) (cut : Option Nat) (f : List Byte) (s : State) :
    (relayGood p cut f s).pending = s.pending := by
  unfold relayGood
  (repeat' split) <;> simp

@[simp] theorem relayStomp_pending (p at_ : Nat) (f : List Byte) (s : State) :
    (relayStomp p at_ f s).pending = s.pending := by
  unfold relayStomp
  (repeat' split) <;> simp

/-- A delivery, where what it does to a frame it takes, and with one that finds no queue, leaves it. -/
theorem deliverRx_pending (h q source : Nat) (bytes : List Byte) (ts : Ts) (errs : BitVec 4) (bad : Bool) (took noQueue : State → State)
    (use n : Nat) (s : State) (ht : ∀ s, (took s).pending = s.pending) (hn : ∀ s, (noQueue s).pending = s.pending) :
    (deliverRx h q source bytes ts errs bad took noQueue use n s).pending = s.pending := by
  unfold deliverRx; (repeat' split) <;> simp [ht, hn]

@[simp] theorem deliverPort_pending (p h q : Nat) (bytes : List Byte) (x : RxSum) (s : State) :
    (deliverPort p h q bytes x s).pending = s.pending :=
  deliverRx_pending _ _ _ _ _ _ _ _ _ _ _ _ (fun s => by split <;> simp) (fun s => by simp)

@[simp] theorem countGood_pending (p : Nat) (b : List Byte) (s : State) : (countGood p b s).pending = s.pending := by rfl

@[simp] theorem endRx_pending (p r keep : Nat) (s : State) : (endRx p r keep s).pending = s.pending := by
  simp [endRx]

@[simp] theorem summarize_pending (p r : Nat) (errs : BitVec 4) (bad : Bool) (f : RxFacts) (s : State) :
    (summarize p r errs bad f s).pending = s.pending := by
  unfold summarize; split <;> simp

@[simp] theorem badEnd_pending (p r : Nat) (errs : BitVec 4) (f : RxFacts) (s : State) : (badEnd p r errs f s).pending = s.pending := by
  simp only [badEnd]; (repeat' split)
  · simp
  · rename_i e
    simp [reserve_pending e]
  · simp

@[simp] theorem goodEnd_pending (p r : Nat) (f : RxFacts) (s : State) : (goodEnd p r f s).pending = s.pending := by
  unfold goodEnd
  dsimp only
  (repeat' split) <;> simp

@[simp] theorem frameEnd_pending (p r : Nat) (f : RxFacts) (s : State) : (frameEnd p r f s).pending = s.pending := by
  unfold frameEnd
  dsimp only
  (repeat' split) <;> simp

/-- What a frame meets that was being received when a setting changed, where the rest of its path leaves it. -/
theorem seen_pending (p : Nat) (f : State → State) (s : State) (h : ∀ s, (f s).pending = s.pending) : (seen p f s).pending = s.pending := by
  unfold seen; dsimp only; split <;> simp [h]

@[simp] theorem rxEnd_pending (p : Nat) (f : RxFacts) (s : State) : (rxEnd p f s).pending = s.pending := by
  unfold rxEnd
  dsimp only
  have hs : ∀ r s, (seen p (frameEnd p r f) s).pending = s.pending := fun r s => seen_pending p _ s (fun s => by simp)
  (repeat' split) <;> simp [hs]

@[simp] theorem claimRest_pending (p : Nat) (out : List Byte) (x : RxSum) (s : State) :
    (claimRest p out x s).pending = s.pending := by
  unfold claimRest
  dsimp only
  (repeat' split) <;> simp

@[simp] theorem classify_pending (p : Nat) (x : RxSum) (s : State) : (classify p x s).pending = s.pending := by
  unfold classify
  dsimp only
  (repeat' split) <;> simp

@[simp] theorem takeCtl_pending (p : Nat) (b : List Byte) (s : State) : (takeCtl p b s).pending = s.pending := by
  unfold takeCtl; split <;> simp

@[simp] theorem rxPath_pending (p : Nat) (x : RxSum) (s : State) : (rxPath p x s).pending = s.pending := by
  unfold rxPath
  dsimp only
  (repeat' split) <;> simp

@[simp] theorem opTick_pending (s : State) : (opTick s).pending = s.pending := by
  unfold opTick; split <;> simp

@[simp] theorem rimTimeStep_pending (off : Int) (s : State) : (rimTimeStep off s).pending = s.pending := by rfl

@[simp] theorem rimTimeRate_pending (adj : Int) (s : State) : (rimTimeRate adj s).pending = s.pending := by rfl

@[simp] theorem rimPps_pending (outEn inEn : Bool) (width : Nat) (s : State) :
    (rimPps outEn inEn width s).pending = s.pending := by rfl

@[simp] theorem applyStep_pending (off : Int) (s : State) : (applyStep off s).pending = s.pending := by
  simp [applyStep]

@[simp] theorem applyRate_pending (adj : Int) (s : State) : (applyRate adj s).pending = s.pending := by rfl

@[simp] theorem putSlot_pending (s : State) (k : Nat) (x : DomSlot) : (putSlot s k x).pending = s.pending := by
  unfold putSlot; split <;> simp

@[simp] theorem syncInterval_pending (k : Nat) (s : State) : (syncInterval k s).pending = s.pending := by rfl

@[simp] theorem decideRate_pending (a : Int) (s : State) : (decideRate a s).pending = s.pending := by rfl

@[simp] theorem dropSlew_pending (s : State) : (dropSlew s).pending = s.pending := by
  unfold dropSlew; split <;> simp

@[simp] theorem domainSwitch_pending (k : Nat) (s : State) : (domainSwitch k s).pending = s.pending := by
  unfold domainSwitch
  dsimp only
  (repeat' split) <;> simp

@[simp] theorem reselect_pending (s : State) : (reselect s).pending = s.pending := by
  unfold reselect
  dsimp only
  (repeat' split) <;> simp

@[simp] theorem acquired_pending (s : State) : (acquired s).pending = s.pending := by
  unfold acquired; split <;> simp

@[simp] theorem settleSlot_pending (k : Nat) (s : State) : (settleSlot k s).pending = s.pending := by
  simp [settleSlot]

@[simp] theorem settlePtp_pending (s : State) : (settlePtp s).pending = s.pending := by
  simp [settlePtp]

@[simp] theorem servo_pending (k : Nat) (off adj : Int) (s : State) : (servo k off adj s).pending = s.pending := by
  unfold servo
  dsimp only
  (repeat' split) <;> simp

@[simp] theorem takeSync_pending (f : SyncFacts) (s : State) : (takeSync f s).pending = s.pending := by
  unfold takeSync
  dsimp only
  (repeat' split) <;> simp

@[simp] theorem keepPtp_pending (x : PtpIn) (s : State) : (keepPtp x s).pending = s.pending := by
  unfold keepPtp; split <;> simp

@[simp] theorem sendPtp_pending (ty k seq st : Nat) (s : State) : (sendPtp ty k seq st s).pending = s.pending := by
  unfold sendPtp; exact foldl_pending _ (fun s a => by split <;> simp) _ _

@[simp] theorem takeResponse_pending (m : PtpMsg) (ts : Ts) (s : State) : (takeResponse m ts s).pending = s.pending := by
  unfold takeResponse
  dsimp only
  (repeat' split) <;> simp

@[simp] theorem takePdelay_pending (m : PtpMsg) (ts : Ts) (s : State) : (takePdelay m ts s).pending = s.pending := by
  unfold takePdelay
  (repeat' split) <;> simp

@[simp] theorem consumePtp_pending (s : State) : (consumePtp s).pending = s.pending := by
  unfold consumePtp
  split
  · rw [foldl_pending _ (fun s a => ?_)]
    obtain ⟨a, st⟩ := a
    cases a <;> exact consumeAt_pending _ _ _ (fun s => by simp)
  · rfl

@[simp] theorem putRead_pending (r : Reader) (v : W32) (s : State) : (putRead r v s).pending = s.pending := by rfl

@[simp] theorem latchPut_pending (r : Reader) (addr : Nat) (v : Nat) (s : State) :
    (latchPut r addr v s).pending = s.pending := by rfl

@[simp] theorem txtsPop_pending (r : Reader) (p : Nat) (s : State) : (txtsPop r p s).1.pending = s.pending := by
  unfold txtsPop; split <;> simp

theorem bodyDomainSet_pending (w : Issuer) (p : Packet) (l : List Byte) (s : State) :
    (actState (bodyDomainSet.act w p l s)).pending = s.pending := by
  dsimp only [bodyDomainSet]
  (repeat' split) <;> simp [actState]

theorem bodyTimeStep_pending (w : Issuer) (p : Packet) (l : List Byte) (s : State) :
    (actState (bodyTimeStep.act w p l s)).pending = s.pending := by
  dsimp only [bodyTimeStep]
  (repeat' split) <;> simp [actState]

theorem bodyRateSet_pending (w : Issuer) (p : Packet) (l : List Byte) (s : State) :
    (actState (bodyRateSet.act w p l s)).pending = s.pending := by rfl

theorem bodyPpsSet_pending (w : Issuer) (p : Packet) (l : List Byte) (s : State) :
    (actState (bodyPpsSet.act w p l s)).pending = s.pending := by rfl

theorem bodyTimeQuery_pending (w : Issuer) (p : Packet) (l : List Byte) (s : State) :
    (actState (bodyTimeQuery.act w p l s)).pending = s.pending := by rfl

@[simp] theorem evict_pending (l : List W32) (s : State) : (evict l s).pending = s.pending := by
  show (count .recOverwritten [] 0 l.length _).pending = _
  rw [count_pending]

@[simp] theorem keepRecord_pending (r : RecIn) (kept : Bool) (s : State) : (keepRecord r kept s).pending = s.pending := by rfl

@[simp] theorem takeRecord_pending (r : RecIn) (s : State) : (takeRecord r s).pending = s.pending := by
  unfold takeRecord
  dsimp only
  (repeat' split) <;> simp

@[simp] theorem writeFirst_pending (s : State) : (writeFirst s).pending = s.pending := by
  unfold writeFirst
  (repeat' split) <;> simp

@[simp] theorem markBank_pending (b cause : Nat) (s : State) : (markBank b cause s).pending = s.pending := by
  unfold markBank; split <;> simp

@[simp] theorem goVolatile_pending (s : State) : (goVolatile s).pending = s.pending := by
  simp [goVolatile]

@[simp] theorem takeBank_pending (b cause : Nat) (seq : W32) (s : State) :
    (takeBank b cause seq s).pending = s.pending := by
  unfold takeBank
  dsimp only
  (repeat' split) <;> simp

@[simp] theorem checkLost_pending (s : State) : (checkLost s).pending = s.pending := by
  unfold checkLost
  dsimp only
  (repeat' split) <;> simp

@[simp] theorem rebuildBank_pending (b : Nat) (s : State) : (rebuildBank b s).pending = s.pending := by
  simp [rebuildBank]

@[simp] theorem startAnew_pending (s : State) : (startAnew s).pending = s.pending := by
  simp [startAnew]

@[simp] theorem takeAnew_pending (s : State) (r : Rec) : (takeAnew s r).pending = s.pending := by
  simp [takeAnew]

@[simp] theorem rimStep_pending (k : Nat) (s : State) : (rimStep k s).pending = s.pending := by
  unfold rimStep; split <;> simp

@[simp] theorem writeSummary_pending (flushed : Bool) (s : State) : (writeSummary flushed s).pending = s.pending := by
  unfold writeSummary; split <;> simp

@[simp] theorem putReader_pending (s : State) (r : Reader) (x : RecReader) : (putReader s r x).pending = s.pending := by rfl

@[simp] theorem markDamaged_pending (l : List W32) (s : State) : (markDamaged l s).pending = s.pending := by rfl

@[simp] theorem startLoad_pending (r : Reader) (ask : Nat) (v : W32) (s : State) :
    (startLoad r ask v s).pending = s.pending := by rfl

@[simp] theorem rimClearFloor_pending (host : Nat) (s : State) : (rimClearFloor host s).pending = s.pending := by
  simp [rimClearFloor]

theorem bodyNote_pending (w : Issuer) (p : Packet) (l : List Byte) (s : State) :
    (actState (bodyNote.act w p l s)).pending = s.pending := by rfl

theorem bodyChallenge_pending (w : Issuer) (p : Packet) (l : List Byte) (s : State) :
    (actState (bodyChallenge.act w p l s)).pending = s.pending := by rfl

theorem bodyRecClear_pending (w : Issuer) (p : Packet) (l : List Byte) (s : State) :
    (actState (bodyRecClear.act w p l s)).pending = s.pending := by rfl

theorem bodyRecQuery_pending (w : Issuer) (p : Packet) (l : List Byte) (s : State) :
    (actState (bodyRecQuery.act w p l s)).pending = s.pending := by rfl

@[simp] theorem castleOutcome_pending (status : Nat) (d : SideId) (s : State) :
    (castleOutcome status d s).pending = s.pending := by
  unfold castleOutcome
  (repeat' split) <;> simp

@[simp] theorem exitCommit_pending (n : Nat) (s : State) : (exitCommit n s).pending = s.pending := by
  unfold exitCommit
  (repeat' split) <;> simp

@[simp] theorem commitCounters_pending (n : Nat) (s : State) : (commitCounters n s).pending = s.pending := by
  simp [commitCounters]

@[simp] theorem slotEnd_pending (s : State) : (slotEnd s).pending = s.pending := by
  unfold slotEnd; split <;> simp

@[simp] theorem commitMove_pending (n : Nat) (s : State) : (commitMove n s).pending = s.pending := by
  unfold commitMove
  dsimp only
  (repeat' split) <;> simp

@[simp] theorem undoPending_pending (s : State) : (undoPending s).pending = s.pending := by
  unfold undoPending; split <;> simp

@[simp] theorem settlePending_pending (d : SideId) (s : State) : (settlePending d s).pending = s.pending := by
  unfold settlePending
  (repeat' split) <;> simp

@[simp] theorem abortResync_pending (s : State) : (abortResync s).pending = s.pending := by
  simp [abortResync]

@[simp] theorem beginIntr_pending (tick : Nat) (s : State) : (beginIntr tick s).pending = s.pending := by
  unfold beginIntr; split <;> simp

@[simp] theorem endIntr_pending (s : State) : (endIntr s).pending = s.pending := by
  unfold endIntr; split <;> simp

@[simp] theorem soloCommit_pending (h : SideId) (s : State) : (soloCommit h s).pending = s.pending := by
  unfold soloCommit
  (repeat' split) <;> simp

@[simp] theorem endHandover_pending (h : SideId) (s : State) : (endHandover h s).pending = s.pending := by
  unfold endHandover
  (repeat' split) <;> simp

@[simp] theorem leaveState_pending (d : SideId) (status : Nat) (s : State) :
    (leaveState d status s).pending = s.pending := by
  unfold leaveState
  dsimp only
  (repeat' split) <;> simp

@[simp] theorem confirmBoot_pending (d : SideId) (s : State) : (confirmBoot d s).pending = s.pending := by
  simp [confirmBoot]

@[simp] theorem enterResync_pending (d : SideId) (s : State) : (enterResync d s).pending = s.pending := by
  simp only [enterResync, followSides_pending, updSide_pending, draw_pending]

@[simp] theorem admitWaiting_pending (s : State) : (admitWaiting s).pending = s.pending := by
  unfold admitWaiting
  dsimp only
  (repeat' split) <;> simp

@[simp] theorem endStart_pending (s : State) : (endStart s).pending = s.pending := by rfl

@[simp] theorem safeFromStart_pending (s : State) : (safeFromStart s).pending = s.pending := by
  simp [safeFromStart]

@[simp] theorem bypassFail_pending (s : State) : (bypassFail s).pending = s.pending := by
  unfold bypassFail
  dsimp only
  (repeat' split) <;> simp [foldl_pending]

@[simp] theorem loseClock_pending (s : State) : (loseClock s).pending = s.pending := by rfl

@[simp] theorem declareFall_pending (d : SideId) (s : State) : (declareFall d s).pending = s.pending := by
  simp [declareFall]

@[simp] theorem noTaker_pending (d : SideId) (s : State) : (noTaker d s).pending = s.pending := by
  unfold noTaker
  dsimp only
  (repeat' split) <;> simp

@[simp] theorem endCheck_pending (v : Nat) (s : State) : (endCheck v s).pending = s.pending := by
  simp [endCheck]

@[simp] theorem forcedIntr_pending (d : SideId) (s : State) : (forcedIntr d s).pending = s.pending := by rfl

@[simp] theorem holderFell_pending (d : SideId) (s : State) : (holderFell d s).pending = s.pending := by
  unfold holderFell
  dsimp only
  (repeat' split) <;> simp

@[simp] theorem otherFell_pending (d : SideId) (s : State) : (otherFell d s).pending = s.pending := by
  unfold otherFell
  dsimp only
  (repeat' split) <;> simp

@[simp] theorem flagFall_pending (d : SideId) (s : State) : (flagFall d s).pending = s.pending := by
  unfold flagFall; split <;> simp

@[simp] theorem loseLock_pending (d : SideId) (c : HealthCause) (s : State) : (loseLock d c s).pending = s.pending := by
  unfold loseLock; split <;> simp

@[simp] theorem writeAgain_pending (s : State) : (writeAgain s).pending = s.pending := by rfl

@[simp] theorem beginReplay_pending (s : State) : (beginReplay s).pending = s.pending := by rfl

@[simp] theorem enterLockstep_pending (h : SideId) (s : State) : (enterLockstep h s).pending = s.pending := by
  simp [enterLockstep]

@[simp] theorem linkFailed_pending (h : SideId) (s : State) : (linkFailed h s).pending = s.pending := by
  unfold linkFailed
  dsimp only
  (repeat' split) <;> simp

@[simp] theorem mlFail_pending (s : State) : (mlFail s).pending = s.pending := by
  unfold mlFail
  dsimp only
  (repeat' split) <;> simp

@[simp] theorem handedOver_pending (d : SideId) (s : State) : (handedOver d s).pending = s.pending := by
  unfold handedOver
  dsimp only
  (repeat' split) <;> simp

@[simp] theorem startTests_pending (d : SideId) (s : State) : (startTests d s).pending = s.pending := by
  simp [startTests]

@[simp] theorem beginPending_pending (s : State) : (beginPending s).pending = s.pending := by
  unfold beginPending
  (repeat' split) <;> simp

@[simp] theorem leaveCastling_pending (s : State) : (leaveCastling s).pending = s.pending := by
  unfold leaveCastling
  (repeat' split) <;> simp

@[simp] theorem warmLane_pending (s : State) : (warmLane s).pending = s.pending := by
  unfold warmLane
  dsimp only
  (repeat' split) <;> simp [foldl_pending]

@[simp] theorem warmDma_pending (s : State) : (warmDma s).pending = s.pending := by rfl

@[simp] theorem warmRx_pending (s : State) : (warmRx s).pending = s.pending := by
  simp [warmRx, foldl_pending]

@[simp] theorem takeBack_pending (x : Staged) (s : State) : (takeBack x s).pending = s.pending := by
  unfold takeBack
  dsimp only
  (repeat' split) <;> simp

@[simp] theorem warmTx_pending (s : State) : (warmTx s).pending = s.pending := by
  have hf : ∀ (l : List (Nat × Nat × Nat × Staged)) (g : (Nat × Nat × Nat × Staged) → State → State) (s : State),
      (∀ a s, (g a s).pending = s.pending) → (l.foldr g s).pending = s.pending := by
    intro l g s h
    induction l with
    | nil => rfl
    | cons a l ih => rw [List.foldr_cons, h, ih]
  unfold warmTx
  dsimp only
  rw [hf _ _ _ (fun a s => by simp), foldl_pending _ (fun s a => by simp)]

@[simp] theorem warmRestore_pending (s : State) : (warmRestore s).pending = s.pending := by
  unfold warmRestore
  dsimp only
  split <;> split <;> simp only [fwStart_pending, warmTx_pending, warmRx_pending, warmDma_pending, warmLane_pending]

@[simp] theorem grantTo_pending (d : SideId) (s : State) : (grantTo d s).pending = s.pending := by
  unfold grantTo
  dsimp only
  (repeat' split) <;> simp

@[simp] theorem releaseClock_pending (h : SideId) (s : State) : (releaseClock h s).pending = s.pending := by
  simp [releaseClock]

@[simp] theorem divergeCase_pending (s : State) (t : Nat) : (divergeCase s t).pending = s.pending := by rfl

@[simp] theorem warmDone_pending (s : State) : (warmDone s).pending = s.pending := by
  unfold warmDone; split <;> simp

@[simp] theorem warmMode_pending (s : State) : (warmMode s).pending = s.pending := by
  unfold warmMode
  dsimp only
  (repeat' split) <;> simp

@[simp] theorem endWarm_pending (s : State) : (endWarm s).pending = s.pending := by
  simp [endWarm]

@[simp] theorem consumeInputs_pending (s : State) : (consumeInputs s).pending = s.pending := by
  simp [consumeInputs]

@[simp] theorem mismatch_pending (kind : Nat) (o : LsOutput) (s : State) : (mismatch kind o s).pending = s.pending := by
  unfold mismatch
  (repeat' split) <;> simp

@[simp] theorem lsContinue_pending (d : SideId) (s : State) : (lsContinue d s).pending = s.pending := by
  unfold lsContinue
  dsimp only
  (repeat' split) <;> simp

@[simp] theorem failCheck_pending (d : SideId) (s : State) : (failCheck d s).pending = s.pending := by
  unfold failCheck; split <;> simp

@[simp] theorem exitLockstep_pending (s : State) : (exitLockstep s).pending = s.pending := by
  unfold exitLockstep
  (repeat' split) <;> simp

@[simp] theorem testDdr_pending (d : SideId) (ran good : BitVec 7) (s : State) :
    (testDdr d ran good s).pending = s.pending := by
  unfold testDdr
  (repeat' split) <;> simp

theorem bodyCastle_pending (w : Issuer) (p : Packet) (l : List Byte) (s : State) :
    (actState (bodyCastle.act w p l s)).pending = s.pending := by rfl

theorem bodySelftest_pending (w : Issuer) (p : Packet) (l : List Byte) (s : State) :
    (actState (bodySelftest.act w p l s)).pending = s.pending := by
  dsimp only [bodySelftest]
  (repeat' split) <;> simp [actState]

theorem bodyResetStandby_pending (w : Issuer) (p : Packet) (l : List Byte) (s : State) :
    (actState (bodyResetStandby.act w p l s)).pending = s.pending := by rfl

theorem bodySideQuery_pending (w : Issuer) (p : Packet) (l : List Byte) (s : State) :
    (actState (bodySideQuery.act w p l s)).pending = s.pending := by rfl

@[simp] theorem fixAi_pending (s : State) : (fixAi s).pending = s.pending := by rfl

@[simp] theorem slotStart_pending (s : State) : (slotStart s).pending = s.pending := by
  unfold slotStart; split <;> simp

@[simp] theorem offerCommit_pending (s : State) : (offerCommit s).pending = s.pending := by
  unfold offerCommit
  dsimp only
  (repeat' split) <;> simp

@[simp] theorem beginCastling_pending (s : State) : (beginCastling s).pending = s.pending := by
  unfold beginCastling
  dsimp only
  (repeat' split) <;> simp

@[simp] theorem holdAtMarker_pending (s : State) : (holdAtMarker s).pending = s.pending := by
  unfold holdAtMarker; split <;> simp

@[simp] theorem notLate_pending (s : State) : (notLate s).pending = s.pending := by rfl

@[simp] theorem frerCheck_pending (s : State) : (frerCheck s).pending = s.pending := by
  unfold frerCheck
  exact foldl_pending _ (fun s a => by split <;> simp) _ _

@[simp] theorem throttle_pending (s : State) : (throttle s).pending = s.pending := by rfl

@[simp] theorem writeDue_pending (l : List DueStatus) (s : State) : (writeDue l s).pending = s.pending := by
  induction l generalizing s with
  | nil => rfl
  | cons d r ih => simp only [writeDue]; split <;> rw [ih]; split <;> simp

@[simp] theorem drainVecs_pending (s : State) : (drainVecs s).pending = s.pending := by
  unfold drainVecs
  refine foldl_pending _ (fun s a => ?_) _ _
  dsimp only
  (repeat' split) <;> simp

@[simp] theorem coldReset_pending (cause : Nat) (s : State) : (coldReset cause s).pending = s.pending := by
  simp [coldReset]

@[simp] theorem abortRunning_pending (s : State) : (abortRunning s).pending = s.pending := by
  simp only [abortRunning]
  (repeat' split) <;> simp [foldl_pending]

@[simp] theorem abortWaiting_pending (l : List (Nat × Packet × Stamp)) (s : State) :
    (abortWaiting l s).pending = s.pending := by
  induction l generalizing s <;> simp_all [abortWaiting]

@[simp] theorem abortStatuses_pending (s : State) : (abortStatuses s).pending = s.pending := by
  simp [abortStatuses]

@[simp] theorem beginCold_pending (s : State) : (beginCold s).pending = s.pending := by
  unfold beginCold
  dsimp only
  (repeat' split) <;> simp

@[simp] theorem endLoad_pending (m : Nat) (s : State) : (endLoad m s).pending = s.pending := by
  unfold endLoad
  dsimp only
  (repeat' split) <;> simp

@[simp] theorem refuseItem_pending (s : State) : (refuseItem s).pending = s.pending := by
  simp [refuseItem]

@[simp] theorem finishLong_pending (g status result : Nat) (s : State) :
    (finishLong g status result s).pending = s.pending := by
  unfold finishLong
  dsimp only
  (repeat' split) <;> simp

@[simp] theorem abortWork_pending (d : SideId) (s : State) : (abortWork d s).pending = s.pending := by
  unfold abortWork
  dsimp only
  (repeat' split) <;> simp

@[simp] theorem resetSide_pending (d : SideId) (cause : Nat) (s : State) : (resetSide d cause s).pending = s.pending := by
  unfold resetSide
  dsimp only
  (repeat' split) <;> simp

@[simp] theorem pinCause_pending (s : State) : (pinCause s).pending = s.pending := by
  unfold pinCause
  dsimp only
  (repeat' split) <;> simp

@[simp] theorem warmStart_pending (cause : Nat) (s : State) : (warmStart cause s).pending = s.pending := by
  unfold warmStart
  dsimp only
  (repeat' split) <;> simp

@[simp] theorem selfRefresh_pending (d : SideId) (on : Bool) (s : State) : (selfRefresh d on s).pending = s.pending := by
  unfold selfRefresh; split <;> simp

@[simp] theorem oneSideWarm_pending (s : State) : (oneSideWarm s).pending = s.pending := by
  unfold oneSideWarm; split <;> simp

@[simp] theorem putPin_pending (d : SideId) (on : Bool) (s : State) : (putPin d on s).pending = s.pending := by rfl

@[simp] theorem putDdr_pending (s : State) (d : SideId) (x : Ddr) : (putDdr s d x).pending = s.pending := by
  unfold putDdr; split <;> simp

@[simp] theorem lockSide_pending (d : SideId) (s : State) : (lockSide d s).pending = s.pending := by rfl

@[simp] theorem giveUpWarm_pending (s : State) : (giveUpWarm s).pending = s.pending := by
  unfold giveUpWarm
  dsimp only
  (repeat' split) <;> simp

@[simp] theorem bootFailed_pending (d : SideId) (cause : Nat) (s : State) : (bootFailed d cause s).pending = s.pending := by
  unfold bootFailed
  dsimp only
  (repeat' split) <;> simp

@[simp] theorem bootReady_pending (d : SideId) (s : State) : (bootReady d s).pending = s.pending := by
  unfold bootReady
  dsimp only
  (repeat' split) <;> simp

@[simp] theorem loseQueued_pending (s : State) : (loseQueued s).pending = s.pending := by rfl

@[simp] theorem porstReset_pending (s : State) : (porstReset s).pending = s.pending := by rfl

@[simp] theorem releasePorst_pending (s : State) : (releasePorst s).pending = s.pending := by rfl

@[simp] theorem pinReset_pending (d : SideId) (cause : Nat) (s : State) : (pinReset d cause s).pending = s.pending := by
  unfold pinReset
  dsimp only
  (repeat' split) <;> simp

theorem bodyModeQuery_pending (w : Issuer) (p : Packet) (l : List Byte) (s : State) :
    (actState (bodyModeQuery.act w p l s)).pending = s.pending := by rfl

@[simp] theorem markStart_pending (kind : Nat) (s : State) : (markStart kind s).pending = s.pending := by rfl

@[simp] theorem dropWarm_pending (s : State) : (dropWarm s).pending = s.pending := by
  unfold dropWarm
  dsimp only
  (repeat' split) <;> simp

theorem bodyStartCold_pending (w : Issuer) (p : Packet) (l : List Byte) (s : State) :
    (actState (bodyStartCold.act w p l s)).pending = s.pending := by
  dsimp only [bodyStartCold]
  (repeat' split) <;> simp [actState]

theorem bodyStartWarm_pending (w : Issuer) (p : Packet) (l : List Byte) (s : State) :
    (actState (bodyStartWarm.act w p l s)).pending = s.pending := by rfl

theorem bodyConfigEnter_pending (w : Issuer) (p : Packet) (l : List Byte) (s : State) :
    (actState (bodyConfigEnter.act w p l s)).pending = s.pending := by rfl

theorem bodyConfigExit_pending (w : Issuer) (p : Packet) (l : List Byte) (s : State) :
    (actState (bodyConfigExit.act w p l s)).pending = s.pending := by rfl

theorem bodySafeHold_pending (w : Issuer) (p : Packet) (l : List Byte) (s : State) :
    (actState (bodySafeHold.act w p l s)).pending = s.pending := by rfl

theorem bodyResume_pending (w : Issuer) (p : Packet) (l : List Byte) (s : State) :
    (actState (bodyResume.act w p l s)).pending = s.pending := by rfl

@[simp] theorem putFeed_pending (f : Feed) (on : Bool) (s : State) : (putFeed f on s).pending = s.pending := by
  unfold putFeed; split <;> simp

@[simp] theorem loseLocks_pending (d : SideId) (s : State) : (loseLocks d s).pending = s.pending := by
  simp [loseLocks]

@[simp] theorem feedLost_pending (f : Feed) (s : State) : (feedLost f s).pending = s.pending := by
  simp [feedLost]

@[simp] theorem putRef_pending (r : Nat) (here qual : Bool) (s : State) : (putRef r here qual s).pending = s.pending := by rfl

@[simp] theorem switchRef_pending (s : State) : (switchRef s).pending = s.pending := by
  simp [switchRef]

@[simp] theorem regainLocks_pending (s : State) : (regainLocks s).pending = s.pending := by
  unfold regainLocks; split <;> simp

@[simp] theorem rimUnlock_pending (s : State) : (rimUnlock s).pending = s.pending := by
  simp [rimUnlock]

@[simp] theorem putLock_pending (i : RimIsland) (on : Bool) (s : State) : (putLock i on s).pending = s.pending := by
  unfold putLock; split <;> simp

@[simp] theorem putTemp_pending (n : Sensor) (t : BitVec 16) (s : State) : (putTemp n t s).pending = s.pending := by
  unfold putTemp; split <;> simp

@[simp] theorem putViof_pending (k : Nat) (v : BitVec 2) (s : State) : (putViof k v s).pending = s.pending := by rfl

@[simp] theorem putLink_pending (h : Nat) (l : Link) (s : State) : (putLink h l s).pending = s.pending := by rfl

@[simp] theorem changeLink_pending (h : Nat) (up : Bool) (s : State) : (changeLink h up s).pending = s.pending := by
  unfold changeLink; split <;> simp

@[simp] theorem unmask_pending (h v : Nat) (s : State) : (unmask h v s).pending = s.pending := by
  unfold unmask
  dsimp only
  (repeat' split) <;> simp

@[simp] theorem writeMsix_pending (h a : Nat) (enables : BitVec 4) (v : W32) (s : State) :
    (writeMsix h a enables v s).pending = s.pending := by
  unfold writeMsix
  dsimp only
  (repeat' split) <;> simp

@[simp] theorem dropWork_pending (ts : List Nat) (s : State) : (dropWork ts s).pending = s.pending := by
  simp [dropWork, foldl_pending]

@[simp] theorem perstSide_pending (h : Nat) (s : State) : (perstSide h s).pending = s.pending := by
  simp [perstSide, foldl_pending]

@[simp] theorem perstRim_pending (h : Nat) (s : State) : (perstRim h s).pending = s.pending := by
  simp [perstRim]

theorem bodyFwQuery_pending (w : Issuer) (p : Packet) (l : List Byte) (s : State) :
    (actState (bodyFwQuery.act w p l s)).pending = s.pending := by rfl

@[simp] theorem leaveStep_pending (d : SideId) (s : State) : (leaveStep d s).pending = s.pending := by
  unfold leaveStep; split <;> simp

theorem bodyFwWrite_pending (w : Issuer) (p : Packet) (l : List Byte) (s : State) :
    (actState (bodyFwWrite.act w p l s)).pending = s.pending := by
  dsimp only [bodyFwWrite, actState]; simp

@[simp] theorem writeSlotBytes_pending (d : SideId) (slot off : Nat) (l : List Byte) (s : State) :
    (writeSlotBytes d slot off l s).pending = s.pending := by
  simp [writeSlotBytes]

theorem bodyFwVerify_pending (w : Issuer) (p : Packet) (l : List Byte) (s : State) :
    (actState (bodyFwVerify.act w p l s)).pending = s.pending := by
  dsimp only [bodyFwVerify, actState]; simp

theorem bodyFwActivate_pending (w : Issuer) (p : Packet) (l : List Byte) (s : State) :
    (actState (bodyFwActivate.act w p l s)).pending = s.pending := by
  dsimp only [bodyFwActivate, actState]; simp

@[simp] theorem rimResetStandby_pending (s : State) : (rimResetStandby s).pending = s.pending := by
  unfold rimResetStandby; split <;> simp

@[simp] theorem rimResume_pending (causes : BitVec 5) (s : State) : (rimResume causes s).pending = s.pending := by
  unfold rimResume
  dsimp only
  (repeat' split) <;> simp

@[simp] theorem rimMode_pending (m : Nat) (s : State) : (rimMode m s).pending = s.pending := by
  unfold rimMode
  (repeat' split) <;> simp

@[simp] theorem rimFwClear_pending (w : Nat) (v : W32) (s : State) : (rimFwClear w v s).pending = s.pending := by rfl

@[simp] theorem rimRoutes_pending (t : Tab (BitVec 64)) (s : State) : (rimRoutes t s).pending = s.pending := by
  have hb : ∀ u : State, ({ u with fab := { u.fab with routes := t } } : State).pending = u.pending := fun u => rfl
  exact (hb (noteKeeps s)).trans (noteKeeps_pending s)

@[simp] theorem rimWrite_pending (s : State) (w : RimWrite) : (rimWrite s w).pending = s.pending := by
  unfold rimWrite; split <;> simp

@[simp] theorem loadLatch_pending (r : Reader) (g : Reg) (is : List Nat) (s : State) :
    (loadLatch r g is s).pending = s.pending := by
  unfold loadLatch
  (repeat' split) <;> simp

@[simp] theorem clearRc_pending (r : Reader) (g : Reg) (is : List Nat) (s : State) (x : Nat × Nat) :
    (clearRc r g is s x).pending = s.pending := by
  unfold clearRc
  dsimp only
  (repeat' split) <;> simp

@[simp] theorem readEffects_pending (r : Reader) (g : Reg) (is : List Nat) (s : State) :
    (readEffects r g is s).pending = s.pending := by
  unfold readEffects
  dsimp only
  (repeat' split) <;> simp [foldl_pending]

@[simp] theorem doRead_pending (r : Reader) (g : Reg) (is : List Nat) (s : State) :
    (doRead r g is s).pending = s.pending := by
  unfold doRead
  (repeat' split) <;> simp

@[simp] theorem accErr_pending (h lo : Nat) (s : State) : (accErr h lo s).pending = s.pending := by rfl

@[simp] theorem accErrOf_pending (r : Reader) (lo : Nat) (s : State) : (accErrOf r lo s).pending = s.pending := by
  unfold accErrOf; split <;> simp

@[simp] theorem storeReg_pending (g : Reg) (is : List Nat) (v : W32) (s : State) :
    (storeReg g is v s).pending = s.pending := by rfl

@[simp] theorem enableAq_pending (h : Nat) (v : W32) (s : State) : (enableAq h v s).pending = s.pending := by
  unfold enableAq
  dsimp only
  (repeat' split) <;> simp

@[simp] theorem writeAqCfg_pending (h : Nat) (v : W32) (s : State) : (writeAqCfg h v s).pending = s.pending := by
  unfold writeAqCfg
  dsimp only
  (repeat' split) <;> simp

@[simp] theorem writePriv_pending (r : Reader) (v : W32) (s : State) : (writePriv r v s).pending = s.pending := by
  unfold writePriv
  dsimp only
  (repeat' split) <;> simp

@[simp] theorem writePoolCtl_pending (v : W32) (s : State) : (writePoolCtl v s).pending = s.pending := by
  unfold writePoolCtl
  (repeat' split) <;> simp

@[simp] theorem clearMonitor_pending (m : Nat) (s : State) : (clearMonitor m s).pending = s.pending := by rfl

@[simp] theorem writeMonCfg_pending (m : Nat) (v : W32) (s : State) : (writeMonCfg m v s).pending = s.pending := by
  unfold writeMonCfg
  dsimp only
  (repeat' split) <;> simp

@[simp] theorem writeRoute_pending (n src : Nat) (v : W32) (s : State) : (writeRoute n src v s).pending = s.pending := by
  unfold writeRoute
  dsimp only
  (repeat' split) <;> simp

@[simp] theorem sendDue_pending (h v : Nat) (s : State) : (sendDue h v s).pending = s.pending := by
  unfold sendDue
  dsimp only
  (repeat' split) <;> simp

@[simp] theorem writeCoal_pending (n v : Nat) (x : W32) (s : State) : (writeCoal n v x s).pending = s.pending := by
  unfold writeCoal
  dsimp only
  (repeat' split) <;> simp

@[simp] theorem writeEvtStat_pending (r : Reader) (w : Nat) (v : W32) (s : State) :
    (writeEvtStat r w v s).pending = s.pending := by
  unfold writeEvtStat; split <;> simp

@[simp] theorem writePinStat_pending (w : Nat) (v : W32) (s : State) : (writePinStat w v s).pending = s.pending := by rfl

@[simp] theorem writeRdCfg_pending (r : Reader) (v : W32) (s : State) : (writeRdCfg r v s).pending = s.pending := by
  unfold writeRdCfg
  dsimp only
  (repeat' split) <;> simp

@[simp] theorem writeClkCfg_pending (v : W32) (s : State) : (writeClkCfg v s).pending = s.pending := by
  unfold writeClkCfg
  dsimp only
  (repeat' split) <;> simp

@[simp] theorem writeReg_pending (r : Reader) (g : Reg) (is : List Nat) (v : W32) (s : State) :
    (writeReg r g is v s).pending = s.pending := by
  unfold writeReg
  dsimp only
  (repeat' split) <;> simp

@[simp] theorem applyWrite_pending (r : Reader) (a : Nat) (v : W32) (s : State) :
    (applyWrite r a v s).pending = s.pending := by
  unfold applyWrite
  dsimp only
  (repeat' split) <;> simp

@[simp] theorem hostWrite_pending (h a : Nat) (enables : BitVec 4) (v : W32) (s : State) :
    (hostWrite h a enables v s).pending = s.pending := by
  unfold hostWrite
  (repeat' split) <;> simp

@[simp] theorem writeAt_pending (h : Nat) (g : Reg) (is : List Nat) (v : W32) (s : State) :
    (writeAt h g is v s).pending = s.pending := by
  simp [writeAt]

@[simp] theorem applyOldest_pending (s : State) : (applyOldest s).pending = s.pending := by
  unfold applyOldest
  (repeat' split)
  · rfl
  · rw [consumeAt_pending _ _ _ (fun s => by simp)]
  · rfl
  · rw [consumeAt_pending _ _ _ (fun s => by simp)]

@[simp] theorem writeSide_pending (h : Nat) (g : Reg) (is : List Nat) (v : W32) (s : State) :
    (writeSide h g is v s).pending = s.pending := by
  unfold writeSide
  dsimp only
  (repeat' split) <;> simp

@[simp] theorem readAt_pending (r : Reader) (a : Nat) (s : State) : (readAt r a s).pending = s.pending := by
  unfold readAt; split <;> simp

@[simp] theorem sideRead_pending (h : Host) (a : Nat) (s : State) : (sideRead h a s).pending = s.pending := by
  unfold sideRead
  (repeat' split) <;> simp

@[simp] theorem answerHeld_pending (h : Host) (a : Nat) (s : State) : (answerHeld h a s).pending = s.pending := by
  have hp : ∀ s, (answerHeld.plainHeld h a s).pending = s.pending := by
    intro s; unfold answerHeld.plainHeld; split <;> simp
  unfold answerHeld; dsimp only; (repeat' split) <;> simp [hp]

@[simp] theorem hostRead_pending (h : Host) (a : Nat) (s : State) : (hostRead h a s).pending = s.pending := by
  unfold hostRead
  (repeat' split) <;> simp

@[simp] theorem partRead_pending (r : Reader) (a : Nat) (s : State) : (partRead r a s).pending = s.pending := by
  unfold partRead
  (repeat' split) <;> simp

@[simp] theorem readerRead_pending (r : Reader) (a : Nat) (s : State) : (readerRead r a s).pending = s.pending := by
  unfold readerRead
  (repeat' split) <;> simp

@[simp] theorem readerWrite_pending (r : Reader) (g : Reg) (v : W32) (s : State) :
    (readerWrite r g v s).pending = s.pending := by
  unfold readerWrite
  (repeat' split) <;> simp

@[simp] theorem loadTable_pending (t : List (BitVec 512)) (s : State) : (loadTable t s).pending = s.pending := by rfl

/-- Every row of the opcode tables leaves the queue. -/
theorem commandTable_pending : ∀ x ∈ commandTable, ∀ w p l s, (actState (x.2.act w p l s)).pending = s.pending := by
  simp only [commandTable, List.forall_mem_cons, List.not_mem_nil, false_implies, implies_true, and_true]
  exact ⟨bodyCreateCq_pending, bodyCreateSq_pending, bodyDeleteSq_pending, bodyDeleteCq_pending, bodySetWrr_pending,
    bodySetQuota_pending, bodyQueQuery_pending, bodyPortSet_pending, bodyPortEnable_pending, bodyPortFilterSet_pending,
    bodyPortEeeSet_pending, bodyPortRecal_pending, bodyPortQuery_pending, bodyFldPortSet_pending, bodyAggLoad_pending,
    bodyFldQuery_pending, bodyTapeLoad_pending, bodyClassSet_pending, bodyCloseMode_pending, bodyFlowSet_pending,
    bodyFlowDisable_pending, bodyGateQuery_pending, bodySchQuery_pending, bodyTapeCancel_pending, bodyIdLoad_pending,
    bodyMeterSet_pending, bodySeqgenSet_pending, bodySeqrecSet_pending, bodyStrmQuery_pending, bodyDomainSet_pending,
    bodyTimeStep_pending, bodyRateSet_pending, bodyPpsSet_pending, bodyTimeQuery_pending, bodyCastle_pending,
    bodySelftest_pending, bodyResetStandby_pending, bodySideQuery_pending, bodyFabSet_pending, bodyRouteLoad_pending,
    bodyBypassSet_pending, bodyFabQuery_pending, bodyNote_pending, bodyChallenge_pending, bodyRecClear_pending,
    bodyRecQuery_pending, bodyFwQuery_pending, bodyFwWrite_pending, bodyFwVerify_pending, bodyFwActivate_pending,
    bodyModeQuery_pending, bodyConfigEnter_pending, bodyConfigExit_pending, bodySafeHold_pending, bodyResume_pending⟩

theorem commandOf_pending {p : Packet} {c : CmdSpec} {b : Body} (h : commandOf p = some (c, b)) (w : Issuer) (q : Packet) (l : List Byte)
    (s : State) : (actState (b.act w q l s)).pending = s.pending := by
  unfold commandOf at h
  split at h
  · cases h; split
    · exact bodyStartWarm_pending w q l s
    · exact bodyStartCold_pending w q l s
  · exact commandTable_pending _ (List.mem_of_find?_eq_some h) w q l s

@[simp] theorem nextItem_pending (s : State) : (nextItem s).pending = s.pending := by rfl

@[simp] theorem commandItem_pending (p : Packet) (ib : ReadEnd) (s : State) : (commandItem p ib s).pending = s.pending := by
  unfold commandItem
  split
  · simp
  · rename_i c b h
    have hp := perform_pending (commandOf_pending h) c { host := s.cmd.priv, cfg := true } p ib s
    split <;> rename_i e <;> rw [e] at hp
    · simp
    · simpa using hp
    · exact hp

@[simp] theorem uncount_pending (key : Nat) (s : State) : (uncount key s).pending = s.pending := by rfl

@[simp] theorem unwrite_pending (d : SideId) (slot off n : Nat) (old : Flash) (s : State) :
    (unwrite d slot off n old s).pending = s.pending := by
  unfold unwrite; split <;> simp

@[simp] theorem undoIb_pending (x : IbCmd) (later : List IbCmd) (s : State) : (undoIb x later s).pending = s.pending := by
  unfold undoIb
  dsimp only
  (repeat' split) <;> simp

@[simp] theorem restatus_pending (x : IbCmd) (st : Nat × Nat) (s : State) : (restatus x st s).pending = s.pending := by
  unfold restatus
  dsimp only
  (repeat' split) <;> simp

@[simp] theorem executeAgain_pending (x : IbCmd) (r : ReadEnd) (s : State) : (executeAgain x r s).pending = s.pending := by
  unfold executeAgain
  split
  · rfl
  · rename_i c b h
    have hb : ∀ w p l s, (actState (b.act w p l s)).pending = s.pending := fun w p l s => commandTable_pending _ (List.mem_of_find?_eq_some h) w p l s
    simp only [putAq_pending, perform_pending hb]
    split <;> simp

@[simp] theorem rereadIb_pending (x : IbCmd) (later : List IbCmd) (r : ReadEnd) (s : State) :
    (rereadIb x later r s).pending = s.pending := by
  unfold rereadIb
  (repeat' split) <;> simp

@[simp] theorem rereadAll_pending (l : List IbCmd) (m : List ReadEnd) (s : State) :
    (rereadAll l m s).pending = s.pending := by
  fun_induction rereadAll l m s <;> simp_all

end Sys2Proof.Machine
end

