-- ==== Sys2Proof/Laws/FrameFlash.lean ====
section
/-!
SUPPORT. Laws/FrameFlash.lean: the operations that leave both flashes as they are: all but those that store a flash. One
lemma for each operation and flash.
-/

namespace Sys2Proof.Machine

variable {α : Type}

theorem foldl_flashW (f : State → α → State) (h : ∀ s a, (f s a).flashW = s.flashW) (l : List α) (s : State) :
    (l.foldl f s).flashW = s.flashW := by
  induction l generalizing s with
  | nil => rfl
  | cons a l ih => rw [List.foldl_cons, ih, h]

@[simp] theorem regStore_flashW (s : State) (g : Reg) (is : List Nat) (v : W32) :
    (regStore s g is v).flashW = s.flashW := by rfl

@[simp] theorem bumpW_flashW (key w n : Nat) (s : State) : (bumpW key w n s).flashW = s.flashW := by rfl

@[simp] theorem count_flashW (g : Reg) (is : List Nat) (lo n : Nat) (s : State) :
    (count g is lo n s).flashW = s.flashW := by rfl

@[simp] theorem countMax_flashW (g : Reg) (is : List Nat) (lo n : Nat) (s : State) :
    (countMax g is lo n s).flashW = s.flashW := by rfl

@[simp] theorem portCount_flashW (p c n : Nat) (s : State) : (portCount p c n s).flashW = s.flashW := by rfl

@[simp] theorem putSide_flashW (s : State) (d : SideId) (r : SideRec) : (putSide s d r).flashW = s.flashW := by
  unfold putSide; split <;> simp

@[simp] theorem gatedWrite_flashW (d : SideId) (s : State) : (gatedWrite d s).flashW = s.flashW := by
  unfold gatedWrite; split <;> simp

/-- What a side does through its gate, where the act leaves it. -/
theorem byGate_flashW (d : SideId) (f : State → State) (s : State) (h : ∀ s, (f s).flashW = s.flashW) : (byGate d f s).flashW = s.flashW := by
  unfold byGate; split <;> simp [h]

@[simp] theorem record_flashW (b : SsBody) (s : State) : (record b s).flashW = s.flashW := by rfl

@[simp] theorem caughtUp_flashW (s : State) : (caughtUp s).flashW = s.flashW := by rfl

@[simp] theorem keepReg_flashW (x : RegRec) (s : State) : (keepReg x s).flashW = s.flashW := by rfl

@[simp] theorem timeRecordAt_flashW (sub : TimeSub) (ns : Nat) (s : State) : (timeRecordAt sub ns s).flashW = s.flashW := by rfl

@[simp] theorem timeRecord_flashW (sub : TimeSub) (s : State) : (timeRecord sub s).flashW = s.flashW := by rfl

/-- What a side decides at a record's own time, where the decision leaves it. -/
theorem consumeAt_flashW (st : Stamp) (f : State → State) (s : State) (h : ∀ s, (f s).flashW = s.flashW) :
    (consumeAt st f s).flashW = s.flashW := by
  have e : (f { s with jrn := { s.jrn with last := st } }).flashW = s.flashW := (h _).trans rfl
  exact e

@[simp] theorem pushSet_flashW (w : List RimWrite) (s : State) : (pushSet w s).flashW = s.flashW := by rfl

@[simp] theorem raiseS_flashW (src : Nat) (s : State) : (raiseS src s).flashW = s.flashW := by rfl

@[simp] theorem countS_flashW (g : Reg) (is : List Nat) (lo n : Nat) (s : State) :
    (countS g is lo n s).flashW = s.flashW := by rfl

@[simp] theorem portCountS_flashW (p c n : Nat) (s : State) : (portCountS p c n s).flashW = s.flashW := by rfl

@[simp] theorem putVec_flashW (s : State) (h v : Nat) (x : Vec) : (putVec s h v x).flashW = s.flashW := by rfl

@[simp] theorem msgDue_flashW (h v : Nat) (plain : Bool) (s : State) : (msgDue h v plain s).1.flashW = s.flashW := by
  unfold msgDue
  dsimp only
  (repeat' split) <;> simp

@[simp] theorem trigRaw_flashW (h v : Nat) (plain : Bool) (s : State) : (trigRaw h v plain s).1.flashW = s.flashW := by
  unfold trigRaw
  dsimp only
  (repeat' split) <;> simp

@[simp] theorem setBits_flashW (src : Nat) (s : State) : (setBits src s).1.flashW = s.flashW := by rfl

@[simp] theorem trigHosts_flashW (src : Nat) (l : List Nat) (s : State) : (trigHosts src l s).1.flashW = s.flashW := by
  induction l generalizing s with
  | nil => rfl
  | cons n ns ih =>
    simp only [trigHosts]
    rw [ih]; split <;> simp

@[simp] theorem raiseBlocked_flashW (s : State) : (raiseBlocked s).flashW = s.flashW := by
  simp [raiseBlocked]

@[simp] theorem raise_flashW (src : Nat) (s : State) : (raise src s).flashW = s.flashW := by
  unfold raise
  dsimp only
  (repeat' split) <;> simp

@[simp] theorem trigger_flashW (h v : Nat) (s : State) : (trigger h v s).flashW = s.flashW := by
  unfold trigger
  dsimp only
  (repeat' split) <;> simp

@[simp] theorem offer_flashW (r : RecIn) (s : State) : (offer r s).flashW = s.flashW := by rfl

@[simp] theorem setAlarm_flashW (i : Nat) (s : State) : (setAlarm i s).flashW = s.flashW := by rfl

@[simp] theorem clearAlarm_flashW (i : Nat) (s : State) : (clearAlarm i s).flashW = s.flashW := by rfl

@[simp] theorem bypDrive_flashW (s : State) : (bypDrive s).flashW = s.flashW := by rfl

@[simp] theorem toMode_flashW (m : Nat) (faulty : Bool) (s : State) : (toMode m faulty s).flashW = s.flashW := by
  unfold toMode; split <;> simp

@[simp] theorem followSides_flashW (s : State) : (followSides s).flashW = s.flashW := by
  unfold followSides; split <;> simp

@[simp] theorem putGate_flashW (s : State) (p : Nat) (g : GateP) : (putGate s p g).flashW = s.flashW := by rfl

@[simp] theorem putPort_flashW (s : State) (p : Nat) (x : PortSt) : (putPort s p x).flashW = s.flashW := by rfl

@[simp] theorem adjLost_flashW (p : Nat) (s : State) : (adjLost p s).flashW = s.flashW := by
  unfold adjLost
  dsimp only
  (repeat' split) <;> simp

@[simp] theorem accrueLpi_flashW (p : Nat) (s : State) : (accrueLpi p s).flashW = s.flashW := by
  unfold accrueLpi
  dsimp only
  (repeat' split) <;> simp

@[simp] theorem accrueRxLpi_flashW (p : Nat) (s : State) : (accrueRxLpi p s).flashW = s.flashW := by
  unfold accrueRxLpi
  dsimp only
  (repeat' split) <;> simp

@[simp] theorem accrueAll_flashW (s : State) : (accrueAll s).flashW = s.flashW := by
  simp only [accrueAll]
  (repeat' split) <;> simp [foldl_flashW]

@[simp] theorem leaveLpi_flashW (p : Nat) (s : State) : (leaveLpi p s).flashW = s.flashW := by
  unfold leaveLpi; split <;> simp

@[simp] theorem wake_flashW (p : Nat) (s : State) : (wake p s).flashW = s.flashW := by
  unfold wake; split <;> simp

@[simp] theorem dropLanes_flashW (p : Nat) (s : State) : (dropLanes p s).flashW = s.flashW := by
  dsimp only [dropLanes]; rw [foldl_flashW _ (fun s a => by simp)]; simp

@[simp] theorem dropLink_flashW (p : Nat) (lock : Bool) (s : State) : (dropLink p lock s).flashW = s.flashW := by
  simp [dropLink]

@[simp] theorem settleOff_flashW (p : Nat) (s : State) : (settleOff p s).flashW = s.flashW := by
  unfold settleOff
  dsimp only
  (repeat' split) <;> simp

@[simp] theorem safePorts_flashW (s : State) (on : Bool) : (safePorts s on).flashW = s.flashW := by
  unfold safePorts
  exact foldl_flashW _ (fun s a => by split <;> simp) _ _

@[simp] theorem safeFields_flashW (s : State) (on : Bool) : (safeFields s on).flashW = s.flashW := by rfl

@[simp] theorem updSide_flashW (d : SideId) (f : SideRec → SideRec) (s : State) : (updSide d f s).flashW = s.flashW := by
  simp [updSide]

@[simp] theorem putWork_flashW (g : Nat) (op : LongOp) (s : State) : (putWork g op s).flashW = s.flashW := by
  unfold putWork; split <;> simp

@[simp] theorem testOutcome_flashW (status : Nat) (s : State) : (testOutcome status s).flashW = s.flashW := by
  unfold testOutcome; split <;> simp

@[simp] theorem activateOutcome_flashW (d : SideId) (status : Nat) (s : State) :
    (activateOutcome d status s).flashW = s.flashW := by
  unfold activateOutcome
  (repeat' split) <;> simp

@[simp] theorem goOut_flashW (d : SideId) (s : State) : (goOut d s).flashW = s.flashW := by
  simp [goOut]

@[simp] theorem stopTest_flashW (s : State) : (stopTest s).flashW = s.flashW := by
  unfold stopTest
  dsimp only
  (repeat' split) <;> simp

@[simp] theorem goSafe_flashW (fault : Bool) (s : State) : (goSafe fault s).flashW = s.flashW := by
  simp [goSafe]

@[simp] theorem enterSafe_flashW (cause : Nat) (fault : Bool) (s : State) :
    (enterSafe cause fault s).flashW = s.flashW := by
  unfold enterSafe
  dsimp only
  (repeat' split) <;> simp

@[simp] theorem draw_flashW (s : State) : (draw s).2.flashW = s.flashW := by rfl

@[simp] theorem bumpGen_flashW (p : Packet) (s : State) : (bumpGen p s).flashW = s.flashW := by rfl

@[simp] theorem putAq_flashW (s : State) (h : Nat) (a : AdminHost) : (putAq s h a).flashW = s.flashW := by rfl

@[simp] theorem countStatus_flashW (who : Issuer) (p : Packet) (f : Option Finding) (s : State) :
    (countStatus who p f s).flashW = s.flashW := by
  unfold countStatus
  (repeat' split) <;> simp

@[simp] theorem dueStatus_flashW (who : Issuer) (p : Packet) (status off result : Nat) (gen : W32) (epoch head : BitVec 16) (s : State) :
    (dueStatus who p status off result gen epoch head s).flashW = s.flashW := by rfl

@[simp] theorem reply_flashW (who : Issuer) (p : Packet) (f : Option Finding) (result : Nat) (s : State) :
    (reply who p f result s).flashW = s.flashW := by
  unfold reply
  (repeat' split) <;> simp

@[simp] theorem putChan_flashW (s : State) (c : Nat) (x : ChanSt) : (putChan s c x).flashW = s.flashW := by rfl

@[simp] theorem pchError_flashW (c code : Nat) (dir : Bool) (addr : BitVec 64) (space h : Nat) (s : State) :
    (pchError c code dir addr space h s).flashW = s.flashW := by rfl

@[simp] theorem pchOver_flashW (c code n : Nat) (s : State) : (pchOver c code n s).flashW = s.flashW := by rfl

@[simp] theorem pchDone_flashW (c n : Nat) (s : State) : (pchDone c n s).flashW = s.flashW := by rfl

@[simp] theorem ibChannel_flashW (c : CmdSpec) (who : Issuer) (p : Packet) (ib : ReadEnd) (s : State) :
    (ibChannel c who p ib s).flashW = s.flashW := by
  unfold ibChannel
  (repeat' split) <;> simp

@[simp] theorem noteIb_flashW (c : CmdSpec) (who : Issuer) (p : Packet) (r : Running) (old s : State) :
    (noteIb c who p r old s).flashW = s.flashW := by
  unfold noteIb; split <;> simp

@[simp] theorem noteOther_flashW (c : CmdSpec) (b : Body) (who : Issuer) (p : Packet) (ib : ReadEnd) (kind : IbKind) (s : State) :
    (noteOther c b who p ib kind s).flashW = s.flashW := by
  unfold noteOther
  (repeat' split) <;> simp

/-- Executing a command, where its row's effect leaves it. -/
theorem perform_flashW {b : Body} (h : ∀ w p l s, (actState (b.act w p l s)).flashW = s.flashW)
    (c : CmdSpec) (w : Issuer) (p : Packet) (ib : ReadEnd) (s : State) : (perform c b w p ib s).1.flashW = s.flashW := by
  unfold perform
  dsimp only
  generalize hu : (if (dryRun p && !c.query) = true then s else ibChannel c w p ib s) = u
  have hq : u.flashW = s.flashW := by rw [← hu]; split <;> simp
  split
  · simp [hq]
  · split
    · simp [hq]
    · have h' := h w p ((c.ibuf.bind (fun o => ibBytes p o ib)).getD []) u
      split <;> rename_i e <;> rw [e] at h'
      · dsimp only [actState] at h' ⊢; split <;> simp [h', hq]
      · simpa [actState, hq] using h'

@[simp] theorem touch_flashW (o : Obj) (s : State) : (touch o s).flashW = s.flashW := by rfl

@[simp] theorem raiseAct_flashW (src : Nat) (s : State) : (raiseAct src s).flashW = s.flashW := by
  unfold raiseAct; split <;> simp

@[simp] theorem putSq_flashW (s : State) (h q : Nat) (x : Sq) : (putSq s h q x).flashW = s.flashW := by rfl

@[simp] theorem putCq_flashW (s : State) (h c : Nat) (x : Cq) : (putCq s h c x).flashW = s.flashW := by rfl

@[simp] theorem putPage_flashW (s : State) (h q : Nat) (x : Sq) : (putPage s h q x).flashW = s.flashW := by
  unfold putPage; split <;> simp

@[simp] theorem putCqPage_flashW (s : State) (h c : Nat) (x : Cq) : (putCqPage s h c x).flashW = s.flashW := by
  unfold putCqPage; split <;> simp

@[simp] theorem keepPage_flashW (h q : Nat) (s : State) : (keepPage h q s).flashW = s.flashW := by
  unfold keepPage; split <;> simp

@[simp] theorem keepCqPage_flashW (h c : Nat) (s : State) : (keepCqPage h c s).flashW = s.flashW := by
  unfold keepCqPage; split <;> simp

@[simp] theorem adminPlace_flashW (h : Nat) (s : State) : (adminPlace h s).flashW = s.flashW := by
  unfold adminPlace
  (repeat' split) <;> simp

@[simp] theorem consumeAdmin_flashW (h : Host) (s : State) : (consumeAdmin h s).flashW = s.flashW := by
  simp [consumeAdmin]

@[simp] theorem resume_flashW (s t : State) : (resume s t).flashW = t.flashW := by rfl

/-- A row of the opcode tables, where its effect leaves it. -/
theorem runAdmin_flashW {b : Body} (h : ∀ w p l s, (actState (b.act w p l s)).flashW = s.flashW)
    (c : CmdSpec) (n : Host) (p : Packet) (ib : ReadEnd) (s : State) : (runAdmin c b n p ib s).flashW = s.flashW := by
  unfold runAdmin
  dsimp only
  split
  · rw [resume_flashW, perform_flashW h]; simp
  · rfl

@[simp] theorem endLong_flashW (g : Nat) (status result : Nat) (s : State) :
    (endLong g status result s).flashW = s.flashW := by
  unfold endLong
  (repeat' split) <;> simp

theorem bodyCreateCq_flashW (w : Issuer) (p : Packet) (l : List Byte) (s : State) :
    (actState (bodyCreateCq.act w p l s)).flashW = s.flashW := by
  dsimp only [bodyCreateCq, actState]; simp

theorem bodyCreateSq_flashW (w : Issuer) (p : Packet) (l : List Byte) (s : State) :
    (actState (bodyCreateSq.act w p l s)).flashW = s.flashW := by
  dsimp only [bodyCreateSq, actState]; simp

@[simp] theorem dropSq_flashW (h q : Nat) (s : State) : (dropSq h q s).flashW = s.flashW := by
  unfold dropSq; split <;> simp

@[simp] theorem dropCq_flashW (h c : Nat) (s : State) : (dropCq h c s).flashW = s.flashW := by
  unfold dropCq; split <;> simp

theorem bodyDeleteSq_flashW (w : Issuer) (p : Packet) (l : List Byte) (s : State) :
    (actState (bodyDeleteSq.act w p l s)).flashW = s.flashW := by
  dsimp only [bodyDeleteSq, actState]; simp

theorem bodyDeleteCq_flashW (w : Issuer) (p : Packet) (l : List Byte) (s : State) :
    (actState (bodyDeleteCq.act w p l s)).flashW = s.flashW := by
  dsimp only [bodyDeleteCq, actState]; simp

theorem bodySetWrr_flashW (w : Issuer) (p : Packet) (l : List Byte) (s : State) :
    (actState (bodySetWrr.act w p l s)).flashW = s.flashW := by
  dsimp only [bodySetWrr]
  (repeat' split) <;> simp [actState]

theorem bodySetQuota_flashW (w : Issuer) (p : Packet) (l : List Byte) (s : State) :
    (actState (bodySetQuota.act w p l s)).flashW = s.flashW := by rfl

@[simp] theorem rimSqPage_flashW (h q : Nat) (on : Bool) (s : State) : (rimSqPage h q on s).flashW = s.flashW := by
  unfold rimSqPage
  (repeat' split) <;> simp

@[simp] theorem rimCqPage_flashW (h c : Nat) (on : Bool) (s : State) : (rimCqPage h c on s).flashW = s.flashW := by
  unfold rimCqPage
  (repeat' split) <;> simp

@[simp] theorem withOwn_flashW (who : Issuer) (p : Packet) (s : State) : (withOwn who p s).flashW = s.flashW := by
  unfold withOwn; split <;> simp

theorem bodyQueQuery_flashW (w : Issuer) (p : Packet) (l : List Byte) (s : State) :
    (actState (bodyQueQuery.act w p l s)).flashW = s.flashW := by rfl

@[simp] theorem settleGens_flashW (s : State) : (settleGens s).flashW = s.flashW := by rfl

theorem bodyIdLoad_flashW (w : Issuer) (p : Packet) (l : List Byte) (s : State) :
    (actState (bodyIdLoad.act w p l s)).flashW = s.flashW := by rfl

theorem bodyMeterSet_flashW (w : Issuer) (p : Packet) (l : List Byte) (s : State) :
    (actState (bodyMeterSet.act w p l s)).flashW = s.flashW := by rfl

theorem bodySeqgenSet_flashW (w : Issuer) (p : Packet) (l : List Byte) (s : State) :
    (actState (bodySeqgenSet.act w p l s)).flashW = s.flashW := by rfl

@[simp] theorem takeSeq_flashW (flow : Nat) (s : State) : (takeSeq flow s).1.flashW = s.flashW := by
  unfold takeSeq
  dsimp only
  (repeat' split) <;> simp

@[simp] theorem putRec_flashW (s : State) (r : Nat) (x : SeqRec) : (putRec s r x).flashW = s.flashW := by rfl

@[simp] theorem frerReset_flashW (r : Nat) (s : State) : (frerReset r s).flashW = s.flashW := by rfl

@[simp] theorem recover_flashW (r : Nat) (f : List Byte) (el : Nat) (s : State) :
    (recover r f el s).1.flashW = s.flashW := by
  unfold recover
  dsimp only
  (repeat' split) <;> simp

theorem bodySeqrecSet_flashW (w : Issuer) (p : Packet) (l : List Byte) (s : State) :
    (actState (bodySeqrecSet.act w p l s)).flashW = s.flashW := by rfl

@[simp] theorem block_flashW (h : Nat) (b : BitVec 2) (s : State) : (block h b s).flashW = s.flashW := by rfl

@[simp] theorem police_flashW (e : BitVec 512) (r : RxSum) (s : State) : (police e r s).1.flashW = s.flashW := by
  unfold police
  dsimp only
  (repeat' split) <;> simp

@[simp] theorem streamPath_flashW (e : BitVec 512) (r : RxSum) (s : State) : (streamPath e r s).1.flashW = s.flashW := by
  unfold streamPath
  dsimp only
  (repeat' split) <;> simp

theorem bodyStrmQuery_flashW (w : Issuer) (p : Packet) (l : List Byte) (s : State) :
    (actState (bodyStrmQuery.act w p l s)).flashW = s.flashW := by rfl

@[simp] theorem cutWire_flashW (p : Nat) (w : OnWire) (d : Nat) (s : State) : (cutWire p w d s).flashW = s.flashW := by rfl

@[simp] theorem assertHold_flashW (p : Nat) (s : State) : (assertHold p s).flashW = s.flashW := by
  unfold assertHold
  dsimp only
  (repeat' split) <;> simp

@[simp] theorem closeFrames_flashW (p : Nat) (new : BitVec 8) (el : Nat) (s : State) :
    (closeFrames p new el s).flashW = s.flashW := by
  unfold closeFrames
  (repeat' split) <;> simp

@[simp] theorem startEntry_flashW (p i : Nat) (el : Nat) (first : Bool) (s : State) :
    (startEntry p i el first s).flashW = s.flashW := by
  unfold startEntry
  dsimp only
  (repeat' split) <;> simp

@[simp] theorem midnight_flashW (p net el : Nat) (first : Bool) (s : State) :
    (midnight p net el first s).flashW = s.flashW := by
  simp [midnight]

@[simp] theorem toMidnight_flashW (p el e m : Nat) (first : Bool) (held : BitVec 8) (s : State) :
    (toMidnight p el e m first held s).flashW = s.flashW := by
  unfold toMidnight; split <;> simp

@[simp] theorem refill_flashW (p t : Nat) (s : State) : (refill p t s).flashW = s.flashW := by
  unfold refill
  dsimp only
  (repeat' split) <;> simp

@[simp] theorem dropHead_flashW (p t : Nat) (relay : Bool) (s : State) : (dropHead p t relay s).flashW = s.flashW := by
  unfold dropHead; split <;> simp

@[simp] theorem segmentStarts_flashW (p t : Nat) (x : Staged) (s : State) : (segmentStarts p t x s).flashW = s.flashW := by
  unfold segmentStarts; split <;> simp

@[simp] theorem startFrame_flashW (p t : Nat) (x : Staged) (relay : Bool) (at_ : Nat) (s : State) :
    (startFrame p t x relay at_ s).flashW = s.flashW := by
  simp [startFrame]

@[simp] theorem rimTape_flashW (p : Nat) (t : List TapeEntry) (start : Nat) (s : State) :
    (rimTape p t start s).flashW = s.flashW := by rfl

@[simp] theorem rimTapeCancel_flashW (p : Nat) (s : State) : (rimTapeCancel p s).flashW = s.flashW := by rfl

@[simp] theorem applyKinds_flashW (p : Nat) (s : State) : (applyKinds p s).flashW = s.flashW := by
  unfold applyKinds
  dsimp only
  (repeat' split) <;> simp

@[simp] theorem takeTx_flashW (p : Nat) (s : State) : (takeTx p s).flashW = s.flashW := by
  unfold takeTx
  dsimp only
  (repeat' split) <;> simp

@[simp] theorem rimGateClass_flashW (p t : Nat) (pre : Bool) (us : Nat) (s : State) :
    (rimGateClass p t pre us s).flashW = s.flashW := by
  simp [rimGateClass]

@[simp] theorem rimGateClose_flashW (p : Nat) (fit : Bool) (s : State) : (rimGateClose p fit s).flashW = s.flashW := by rfl

theorem bodyTapeLoad_flashW (w : Issuer) (p : Packet) (l : List Byte) (s : State) :
    (actState (bodyTapeLoad.act w p l s)).flashW = s.flashW := by rfl

theorem bodyClassSet_flashW (w : Issuer) (p : Packet) (l : List Byte) (s : State) :
    (actState (bodyClassSet.act w p l s)).flashW = s.flashW := by rfl

theorem bodyCloseMode_flashW (w : Issuer) (p : Packet) (l : List Byte) (s : State) :
    (actState (bodyCloseMode.act w p l s)).flashW = s.flashW := by rfl

theorem bodyTapeCancel_flashW (w : Issuer) (p : Packet) (l : List Byte) (s : State) :
    (actState (bodyTapeCancel.act w p l s)).flashW = s.flashW := by rfl

theorem bodyGateQuery_flashW (w : Issuer) (p : Packet) (l : List Byte) (s : State) :
    (actState (bodyGateQuery.act w p l s)).flashW = s.flashW := by rfl

@[simp] theorem putOp_flashW (s : State) (t : Nat) (o : Op) : (putOp s t o).flashW = s.flashW := by rfl

@[simp] theorem freeLater_flashW (use n : Nat) (s : State) : (freeLater use n s).flashW = s.flashW := by
  unfold freeLater; split <;> simp

@[simp] theorem freeNow_flashW (use n : Nat) (s : State) : (freeNow use n s).flashW = s.flashW := by
  unfold freeNow
  (repeat' split) <;> simp

@[simp] theorem freeCommitted_flashW (s : State) : (freeCommitted s).flashW = s.flashW := by
  simp [freeCommitted, foldl_flashW]

@[simp] theorem completeOp_flashW (t status : Nat) (flags : Byte) (result : Nat) (ts : Ts) (s : State) :
    (completeOp t status flags result ts s).flashW = s.flashW := by
  unfold completeOp
  dsimp only
  (repeat' split) <;> simp

@[simp] theorem settleTx_flashW (l : List Nat) (s : State) : (settleTx l s).flashW = s.flashW := by
  fun_induction settleTx l s <;> simp_all

@[simp] theorem finishTx_flashW (t : Nat) (s : State) : (finishTx t s).flashW = s.flashW := by
  unfold finishTx
  (repeat' split) <;> simp

@[simp] theorem completeRx_flashW (t code : Nat) (o : Op) (s : State) : (completeRx t code o s).flashW = s.flashW := by
  unfold completeRx; split <;> simp

@[simp] theorem settleRx_flashW (l : List Nat) (s : State) : (settleRx l s).flashW = s.flashW := by
  fun_induction settleRx l s <;> simp_all

@[simp] theorem finishRx_flashW (t code : Nat) (s : State) : (finishRx t code s).flashW = s.flashW := by
  unfold finishRx; split <;> simp

@[simp] theorem failOp_flashW (t status : Nat) (s : State) : (failOp t status s).flashW = s.flashW := by
  unfold failOp
  (repeat' split) <;> simp

@[simp] theorem countExpired_flashW (p : Nat) (s : State) : (countExpired p s).flashW = s.flashW := by rfl

@[simp] theorem putTxts_flashW (s : State) (p : Nat) (q : TxTsQ) : (putTxts s p q).flashW = s.flashW := by rfl

@[simp] theorem pushTxts_flashW (p : Nat) (ts : Ts) (ref : W32) (s : State) : (pushTxts p ts ref s).flashW = s.flashW := by
  unfold pushTxts
  dsimp only
  (repeat' split) <;> simp

@[simp] theorem popTxts_flashW (p : Nat) (s : State) : (popTxts p s).1.flashW = s.flashW := by
  unfold popTxts
  dsimp only
  (repeat' split) <;> simp

@[simp] theorem putFlow_flashW (s : State) (f : Nat) (x : FlowQ) : (putFlow s f x).flashW = s.flashW := by rfl

@[simp] theorem putVt_flashW (s : State) (p t v : Nat) : (putVt s p t v).flashW = s.flashW := by rfl

@[simp] theorem becomeHead_flashW (f : Nat) (wasEmpty : Bool) (s : State) :
    (becomeHead f wasEmpty s).flashW = s.flashW := by
  unfold becomeHead
  dsimp only
  (repeat' split) <;> simp

@[simp] theorem enqueue_flashW (f : Nat) (e : Elem) (s : State) : (enqueue f e s).flashW = s.flashW := by
  unfold enqueue
  dsimp only
  (repeat' split) <;> simp

@[simp] theorem dequeue_flashW (f : Nat) (s : State) : (dequeue f s).flashW = s.flashW := by
  simp [dequeue]

@[simp] theorem enterFlow_flashW (f : Nat) (kind : ElemKind) (tag : Option Nat) (bytes : List Byte) (s : State) :
    (enterFlow f kind tag bytes s).flashW = s.flashW := by
  unfold enterFlow
  dsimp only
  (repeat' split) <;> simp [foldl_flashW]

@[simp] theorem measure_flashW (f p t d : Nat) (s : State) : (measure f p t d s).flashW = s.flashW := by
  unfold measure
  refine foldl_flashW _ (fun s a => ?_) _ _
  dsimp only; (repeat' split) <;> simp

@[simp] theorem stage_flashW (p t : Nat) (x : Staged) (s : State) : (stage p t x s).flashW = s.flashW := by rfl

@[simp] theorem charge_flashW (f p t lc tag : Nat) (s : State) : (charge f p t lc tag s).flashW = s.flashW := by rfl

@[simp] theorem countWaiting_flashW (p t : Nat) (s : State) : (countWaiting p t s).flashW = s.flashW := by
  unfold countWaiting
  refine foldl_flashW _ (fun s a => ?_) _ _
  (repeat' split) <;> simp [countWaiting.portCountWaited]

@[simp] theorem releaseChan_flashW (c : Nat) (s : State) : (releaseChan c s).flashW = s.flashW := by rfl

@[simp] theorem endPrefetch_flashW (tag : Nat) (s : State) : (endPrefetch tag s).flashW = s.flashW := by
  unfold endPrefetch
  (repeat' split) <;> simp

@[simp] theorem dropStream_flashW (f tag : Nat) (s : State) : (dropStream f tag s).flashW = s.flashW := by
  unfold dropStream
  dsimp only
  (repeat' split) <;> simp

@[simp] theorem dropFlow_flashW (ts : List Nat) (s : State) (f : Nat) : (dropFlow ts s f).flashW = s.flashW := by
  unfold dropFlow
  dsimp only
  (repeat' split) <;> simp

@[simp] theorem putPtp_flashW (p : Nat) (x : Staged) (s : State) : (putPtp p x s).flashW = s.flashW := by rfl

@[simp] theorem flushPtp_flashW (l : List (Nat × Staged)) (s : State) : (flushPtp l s).flashW = s.flashW := by
  fun_induction flushPtp l s <;> simp_all

@[simp] theorem settleDuePtp_flashW (s : State) : (settleDuePtp s).flashW = s.flashW := by
  unfold settleDuePtp; split <;> simp

@[simp] theorem stagePtp_flashW (p ty slot seq : Nat) (cap : Option Ts) (s : State) :
    (stagePtp p ty slot seq cap s).flashW = s.flashW := by
  simp only [stagePtp]; split <;> simp

@[simp] theorem putDelay_flashW (s : State) (p k : Nat) (x : PtpDelay) : (putDelay s p k x).flashW = s.flashW := by rfl

@[simp] theorem noteReq_flashW (p k seq : Nat) (ts : Ts) (s : State) : (noteReq p k seq ts s).flashW = s.flashW := by rfl

@[simp] theorem ptpFollow_flashW (p : Nat) (x : Staged) (ts : Ts) (s : State) : (ptpFollow p x ts s).flashW = s.flashW := by
  unfold ptpFollow
  dsimp only
  (repeat' split) <;> simp

@[simp] theorem consumeDepart_flashW (p : Nat) (x : Staged) (left : Bool) (ts : Ts) (s : State) :
    (consumeDepart p x left ts s).flashW = s.flashW := by
  unfold consumeDepart
  dsimp only
  (repeat' split) <;> simp

@[simp] theorem consumeDeparts_flashW (s : State) : (consumeDeparts s).flashW = s.flashW := by
  unfold consumeDeparts
  split
  · dsimp only
    rw [settleDuePtp_flashW, foldl_flashW _ (fun s a => consumeAt_flashW _ _ _ (fun s => by simp))]
  · rfl

@[simp] theorem reportDepart_flashW (p t : Nat) (x : Staged) (left : Bool) (ts : Ts) (s : State) :
    (reportDepart p t x left ts s).flashW = s.flashW := by
  unfold reportDepart; split <;> simp

@[simp] theorem countTx_flashW (p : Nat) (w : OnWire) (s : State) : (countTx p w s).flashW = s.flashW := by
  unfold countTx
  (repeat' split) <;> simp

@[simp] theorem endWire_flashW (p : Nat) (w : OnWire) (s : State) : (endWire p w s).flashW = s.flashW := by
  unfold endWire
  (repeat' split) <;> simp

@[simp] theorem endExpired_flashW (p : Nat) (e : Elem) (s : State) : (endExpired p e s).flashW = s.flashW := by
  unfold endExpired
  dsimp only
  (repeat' split) <;> simp

@[simp] theorem expireHead_flashW (f : Nat) (s : State) : (expireHead f s).flashW = s.flashW := by
  unfold expireHead
  dsimp only
  (repeat' split) <;> simp

@[simp] theorem expireAt_flashW (f : Nat) (before : List Elem) (e : Elem) (behind : List Elem) (s : State) :
    (expireAt f before e behind s).flashW = s.flashW := by
  unfold expireAt; split <;> simp

theorem bodyFlowSet_flashW (w : Issuer) (p : Packet) (l : List Byte) (s : State) :
    (actState (bodyFlowSet.act w p l s)).flashW = s.flashW := by rfl

theorem bodyFlowDisable_flashW (w : Issuer) (p : Packet) (l : List Byte) (s : State) :
    (actState (bodyFlowDisable.act w p l s)).flashW = s.flashW := by rfl

theorem bodySchQuery_flashW (w : Issuer) (p : Packet) (l : List Byte) (s : State) :
    (actState (bodySchQuery.act w p l s)).flashW = s.flashW := by rfl

@[simp] theorem sendLldp_flashW (p : Nat) (s : State) : (sendLldp p s).flashW = s.flashW := by
  unfold sendLldp; split <;> simp

@[simp] theorem abortTx_flashW (p : Nat) (s : State) : (abortTx p s).flashW = s.flashW := by
  unfold abortTx
  dsimp only
  (repeat' split) <;> simp

@[simp] theorem rxPop_flashW (p : Nat) (s : State) : (rxPop p s).flashW = s.flashW := by
  unfold rxPop
  dsimp only
  (repeat' split) <;> simp

@[simp] theorem dropRx_flashW (p : Nat) (s : State) : (dropRx p s).flashW = s.flashW := by
  unfold dropRx; split <;> simp

@[simp] theorem abortRx_flashW (p : Nat) (s : State) : (abortRx p s).flashW = s.flashW := by
  simp [abortRx]

@[simp] theorem laneDown_flashW (p : Nat) (lock : Bool) (s : State) : (laneDown p lock s).flashW = s.flashW := by
  unfold laneDown; split <;> simp

@[simp] theorem linkLost_flashW (p : Nat) (lock : Bool) (s : State) : (linkLost p lock s).flashW = s.flashW := by
  unfold linkLost
  dsimp only
  (repeat' split) <;> simp

/-- A reservation that is made leaves it. -/
theorem reserve_flashW {p n : Nat} {s t : State} (e : reserve p n s = some t) : t.flashW = s.flashW := by
  unfold reserve at e
  simp only at e
  split at e
  · cases e; simp
  · cases e

@[simp] theorem rimPortSet_flashW (p speed iface maxlen : Nat) (bad eee : Bool) (s : State) :
    (rimPortSet p speed iface maxlen bad eee s).flashW = s.flashW := by
  unfold rimPortSet
  dsimp only
  (repeat' split) <;> simp

@[simp] theorem noteKeep_flashW (p : Nat) (s : State) : (noteKeep p s).flashW = s.flashW := by
  unfold noteKeep
  dsimp only
  (repeat' split) <;> simp

@[simp] theorem noteKeeps_flashW (s : State) : (noteKeeps s).flashW = s.flashW := by
  unfold noteKeeps
  exact foldl_flashW _ (fun s a => by simp) _ _

@[simp] theorem asSeen_flashW (p : Nat) (s : State) : (asSeen p s).flashW = s.flashW := by
  unfold asSeen; split <;> simp

@[simp] theorem rimPortEnable_flashW (p : Nat) (en : Bool) (s : State) : (rimPortEnable p en s).flashW = s.flashW := by
  simp [rimPortEnable]

@[simp] theorem rimPortFilter_flashW (p i : Nat) (valid : Bool) (mac : BitVec 48) (s : State) :
    (rimPortFilter p i valid mac s).flashW = s.flashW := by
  simp [rimPortFilter]

@[simp] theorem rimPortPeer_flashW (p : Nat) (tw : Option Nat) (addFrag : BitVec 2) (s : State) :
    (rimPortPeer p tw addFrag s).flashW = s.flashW := by
  unfold rimPortPeer; split <;> simp

@[simp] theorem rimPortRecal_flashW (p : Nat) (s : State) : (rimPortRecal p s).flashW = s.flashW := by
  simp [rimPortRecal]

theorem bodyPortSet_flashW (w : Issuer) (p : Packet) (l : List Byte) (s : State) :
    (actState (bodyPortSet.act w p l s)).flashW = s.flashW := by rfl

theorem bodyPortEnable_flashW (w : Issuer) (p : Packet) (l : List Byte) (s : State) :
    (actState (bodyPortEnable.act w p l s)).flashW = s.flashW := by
  dsimp only [bodyPortEnable]
  (repeat' split) <;> simp [actState]

theorem bodyPortFilterSet_flashW (w : Issuer) (p : Packet) (l : List Byte) (s : State) :
    (actState (bodyPortFilterSet.act w p l s)).flashW = s.flashW := by rfl

theorem bodyPortEeeSet_flashW (w : Issuer) (p : Packet) (l : List Byte) (s : State) :
    (actState (bodyPortEeeSet.act w p l s)).flashW = s.flashW := by rfl

theorem bodyPortRecal_flashW (w : Issuer) (p : Packet) (l : List Byte) (s : State) :
    (actState (bodyPortRecal.act w p l s)).flashW = s.flashW := by rfl

theorem bodyPortQuery_flashW (w : Issuer) (p : Packet) (l : List Byte) (s : State) :
    (actState (bodyPortQuery.act w p l s)).flashW = s.flashW := by rfl

@[simp] theorem writeDb_flashW (h q : Nat) (aligned : Bool) (v : W32) (s : State) :
    (writeDb h q aligned v s).flashW = s.flashW := by
  unfold writeDb
  dsimp only
  (repeat' split) <;> simp

@[simp] theorem pushError_flashW (h q : Nat) (x : Sq) (s : State) : (pushError h q x s).flashW = s.flashW := by
  simp [pushError]

@[simp] theorem pushSlots_flashW (h q : Nat) (l : List (List Byte)) (s : State) :
    (pushSlots h q l s).flashW = s.flashW := by
  fun_induction pushSlots h q l s <;> simp_all

@[simp] theorem writePush_flashW (h q off : Nat) (bytes : List Byte) (s : State) :
    (writePush h q off bytes s).flashW = s.flashW := by
  unfold writePush
  dsimp only
  (repeat' split) <;> simp

@[simp] theorem startTurn_flashW (h q slots : Nat) (x : Sq) (s : State) : (startTurn h q slots x s).flashW = s.flashW := by rfl

@[simp] theorem noteTurn_flashW (h : Nat) (admin : Bool) (s : State) : (noteTurn h admin s).flashW = s.flashW := by rfl

@[simp] theorem takeEntries_flashW (h q : Nat) (x : Sq) (first : Idx) (l : List Taken) (stalled : Bool) (turn : Option FetchTurn) (s : State) :
    (takeEntries h q x first l stalled turn s).flashW = s.flashW := by
  unfold takeEntries
  simp only [putSq_flashW]
  exact foldl_flashW _ (fun s a => by simp) _ _

@[simp] theorem noteFault_flashW (h q : Nat) (first : Idx) (n : Nat) (s : State) :
    (noteFault h q first n s).flashW = s.flashW := by rfl

@[simp] theorem dropTurns_flashW (s : State) : (dropTurns s).flashW = s.flashW := by rfl

@[simp] theorem markStaged_flashW (t : Nat) (s : State) : (markStaged t s).flashW = s.flashW := by rfl

@[simp] theorem adminFault_flashW (h : Nat) (e : FetchErr) (s : State) : (adminFault h e s).flashW = s.flashW := by rfl

@[simp] theorem takePlace_flashW (h c : Nat) (s : State) : (takePlace h c s).flashW = s.flashW := by
  unfold takePlace
  dsimp only
  (repeat' split) <;> simp

@[simp] theorem takeTag_flashW (h q t : Nat) (x : Sq) (es : List Taken) (o : Op) (s : State) :
    (takeTag h q t x es o s).flashW = s.flashW := by
  simp [takeTag]

/-- The rows of a submission entry, where what the row runs leaves it. -/
theorem startNow_flashW (h : Host) (q : QId) (t : OpTag) (mine : List Byte → Bool) (kind : OpKind)
    (extra : State → List Byte → List Finding) (ready : State → Sq → Bool) (run : Nat → Taken → State → State) (s : State)
    (hr : ∀ t e s, (run t e s).flashW = s.flashW) :
    (startNow h q t mine kind extra ready run s).flashW = s.flashW := by
  unfold startNow
  dsimp only
  (repeat' split) <;> simp [hr]

@[simp] theorem asOf_flashW (e : Taken) (s : State) : (asOf e s).flashW = s.flashW := by
  unfold asOf; split <;> simp

@[simp] theorem goOn_flashW (e : Taken) (s t : State) : (goOn e s t).flashW = t.flashW := by
  unfold goOn; split <;> simp

/-- The same at the record's own times. -/
theorem startRow_flashW (h : Host) (q : QId) (t : OpTag) (mine : List Byte → Bool) (kind : OpKind)
    (extra : State → List Byte → List Finding) (ready : State → Sq → Bool) (run : Nat → Taken → State → State) (s : State)
    (hr : ∀ t e s, (run t e s).flashW = s.flashW) :
    (startRow h q t mine kind extra ready run s).flashW = s.flashW := by
  unfold startRow
  split
  · rfl
  · rw [goOn_flashW, startNow_flashW _ _ _ _ _ _ _ _ _ hr, asOf_flashW]

@[simp] theorem updOp_flashW (t : Nat) (f : Op → Op) (s : State) : (updOp t f s).flashW = s.flashW := by
  unfold updOp; split <;> simp

@[simp] theorem endFence_flashW (h q t n : Nat) (s : State) : (endFence h q t n s).flashW = s.flashW := by
  unfold endFence; split <;> simp

@[simp] theorem laneStage_flashW (f p tc t : Nat) (b : List Byte) (s : State) :
    (laneStage f p tc t b s).flashW = s.flashW := by
  unfold laneStage
  dsimp only
  (repeat' split) <;> simp [foldl_flashW]

@[simp] theorem noteWritten_flashW (i : CqItem) (s : State) : (noteWritten i s).flashW = s.flashW := by
  unfold noteWritten
  (repeat' split) <;> simp

@[simp] theorem writeSlot_flashW (h c : Nat) (x : Cq) (i : CqItem) (s : State) :
    (writeSlot h c x i s).flashW = s.flashW := by
  unfold writeSlot; split <;> simp

@[simp] theorem writeItem_flashW (h c : Nat) (i : CqItem) (s : State) : (writeItem h c i s).flashW = s.flashW := by
  unfold writeItem
  (repeat' split) <;> simp

@[simp] theorem settleAq_flashW (h : Nat) (s : State) : (settleAq h s).flashW = s.flashW := by
  unfold settleAq
  dsimp only
  (repeat' split) <;> simp

@[simp] theorem putStatus_flashW (h : Nat) (x : DueStatus) (rest : List DueStatus) (s : State) :
    (putStatus h x rest s).flashW = s.flashW := by
  simp [putStatus]

@[simp] theorem freeItems_flashW (h c : Nat) (l : List CqItem) (s : State) : (freeItems h c l s).flashW = s.flashW := by
  unfold freeItems
  dsimp only
  (repeat' split) <;> simp

@[simp] theorem writeCi_flashW (h q : Nat) (aligned : Bool) (v : W32) (s : State) :
    (writeCi h q aligned v s).flashW = s.flashW := by
  unfold writeCi
  dsimp only
  (repeat' split) <;> simp

@[simp] theorem writePage_flashW (h a : Nat) (enables : BitVec 4) (v : W32) (s : State) :
    (writePage h a enables v s).flashW = s.flashW := by
  unfold writePage
  dsimp only
  (repeat' split) <;> simp

@[simp] theorem rewriteAll_flashW (s : State) : (rewriteAll s).flashW = s.flashW := by
  unfold rewriteAll
  refine foldl_flashW _ (fun s a => ?_) _ _
  dsimp only
  split <;> simp

@[simp] theorem freeBytes_flashW (l : Nat) (s : State) : (freeBytes l s).2.flashW = s.flashW := by
  induction l generalizing s <;> simp_all [freeBytes]

@[simp] theorem writeBuf_flashW (c h dst : Nat) (last : Bool) (s : State) :
    (writeBuf c h dst last s).flashW = s.flashW := by rfl

@[simp] theorem issueRead_flashW (c : Nat) (s : State) : (issueRead c s).flashW = s.flashW := by
  unfold issueRead
  dsimp only
  (repeat' split) <;> simp

@[simp] theorem dmaTurns_flashW (l : Nat) (s : State) : (dmaTurns l s).flashW = s.flashW := by
  fun_induction dmaTurns l s <;> simp_all

@[simp] theorem dmaGo_flashW (s : State) : (dmaGo s).flashW = s.flashW := by
  unfold dmaGo; split <;> simp

@[simp] theorem streamData_flashW (d : Desc) (offs : List Nat) (l : List Byte) (s : State) :
    (streamData d offs l s).2.flashW = s.flashW := by
  unfold streamData; split <;> simp

@[simp] theorem takeXfer_flashW (c : Nat) (x : ChanSt) (l : List Byte) (s : State) :
    (takeXfer c x l s).flashW = s.flashW := by
  simp [takeXfer]

@[simp] theorem takeCopy_flashW (c : Nat) (x : ChanSt) (o : Op) (l : List Byte) (s : State) :
    (takeCopy c x o l s).flashW = s.flashW := by
  unfold takeCopy
  dsimp only
  (repeat' split) <;> simp

@[simp] theorem takeRxWrite_flashW (c : Nat) (x : ChanSt) (o : Op) (l : List Byte) (s : State) :
    (takeRxWrite c x o l s).flashW = s.flashW := by rfl

@[simp] theorem noteRead_flashW (r : ReadReq) (s : State) : (noteRead r s).flashW = s.flashW := by
  unfold noteRead; split <;> simp

@[simp] theorem takeRead_flashW (c : Nat) (s : State) : (takeRead c s).flashW = s.flashW := by
  simp only [takeRead]
  (repeat' split) <;> simp

@[simp] theorem arrive_flashW (c : Nat) (bytes : List Byte) (s : State) : (arrive c bytes s).flashW = s.flashW := by
  unfold arrive
  dsimp only
  (repeat' split) <;> simp

@[simp] theorem poolError_flashW (c code : Nat) (addr : BitVec 64) (s : State) :
    (poolError c code addr s).flashW = s.flashW := by
  unfold poolError
  dsimp only
  (repeat' split) <;> simp

@[simp] theorem poolErrors_flashW (c code : Nat) (addr : BitVec 64) (also : Option PoolFault) (s : State) :
    (poolErrors c code addr also s).flashW = s.flashW := by
  unfold poolErrors
  (repeat' split) <;> simp

@[simp] theorem freeChan_flashW (c : Nat) (s : State) : (freeChan c s).flashW = s.flashW := by rfl

@[simp] theorem fwStart_flashW (c : Nat) (s : State) : (fwStart c s).flashW = s.flashW := by rfl

@[simp] theorem fwNext_flashW (c : Nat) (more : Bool) (s : State) : (fwNext c more s).flashW = s.flashW := by
  unfold fwNext; split <;> simp

@[simp] theorem fwEnd_flashW (c n : Nat) (more : Bool) (s : State) : (fwEnd c n more s).flashW = s.flashW := by
  simp [fwEnd]

@[simp] theorem withdrawn_flashW (c residue : Nat) (s : State) : (withdrawn c residue s).flashW = s.flashW := by rfl

@[simp] theorem resumeChan_flashW (c : Nat) (s : State) : (resumeChan c s).flashW = s.flashW := by
  unfold resumeChan
  dsimp only
  (repeat' split) <;> simp

@[simp] theorem poolRun_flashW (s : State) : (poolRun s).flashW = s.flashW := by
  simp only [poolRun, dmaGo_flashW]
  rw [foldl_flashW _ (fun s a => by split <;> simp)]

@[simp] theorem poolResume_flashW (s : State) : (poolResume s).flashW = s.flashW := by
  unfold poolResume; split <;> simp

@[simp] theorem poolAbort_flashW (s : State) : (poolAbort s).flashW = s.flashW := by
  simp only [poolAbort]; split
  · rw [poolRun_flashW, foldl_flashW _ (fun s a => by split <;> simp)]
  · rfl

@[simp] theorem dropReads_flashW (s : State) : (dropReads s).flashW = s.flashW := by rfl

@[simp] theorem endTxCopy_flashW (t : Nat) (bytes : List Byte) (o : Op) (s : State) :
    (endTxCopy t bytes o s).flashW = s.flashW := by
  unfold endTxCopy
  (repeat' split) <;> simp

@[simp] theorem endOp_flashW (t : Nat) (x : ChanSt) (s : State) : (endOp t x s).flashW = s.flashW := by
  unfold endOp
  dsimp only
  (repeat' split) <;> simp

@[simp] theorem putFld_flashW (s : State) (n : Nat) (x : FldP) : (putFld s n x).flashW = s.flashW := by rfl

@[simp] theorem fldCount_flashW (n c k : Nat) (s : State) : (fldCount n c k s).flashW = s.flashW := by rfl

theorem bodyFldPortSet_flashW (w : Issuer) (p : Packet) (l : List Byte) (s : State) :
    (actState (bodyFldPortSet.act w p l s)).flashW = s.flashW := by rfl

theorem bodyFldQuery_flashW (w : Issuer) (p : Packet) (l : List Byte) (s : State) :
    (actState (bodyFldQuery.act w p l s)).flashW = s.flashW := by rfl

@[simp] theorem startField_flashW (n : Nat) (s : State) : (startField n s).flashW = s.flashW := by
  unfold startField
  dsimp only
  (repeat' split) <;> simp

@[simp] theorem leaveBus_flashW (n : Nat) (s : State) : (leaveBus n s).flashW = s.flashW := by
  unfold leaveBus
  dsimp only
  (repeat' split) <;> simp

@[simp] theorem failDirect_flashW (n : Nat) (s : State) : (failDirect n s).flashW = s.flashW := by
  unfold failDirect
  exact foldl_flashW _ (fun s a => by split <;> simp) _ _

@[simp] theorem applyField_flashW (n : Nat) (s : State) : (applyField n s).flashW = s.flashW := by
  unfold applyField
  dsimp only
  (repeat' split) <;> simp

@[simp] theorem fieldsOff_flashW (s : State) : (fieldsOff s).flashW = s.flashW := by
  unfold fieldsOff
  dsimp only
  (repeat' split) <;> simp [foldl_flashW]

@[simp] theorem goBusOff_flashW (n : Nat) (s : State) : (goBusOff n s).flashW = s.flashW := by
  simp [goBusOff]

@[simp] theorem fieldGood_flashW (n r : Nat) (f : FldFrame) (s : State) : (fieldGood n r f s).flashW = s.flashW := by
  unfold fieldGood
  dsimp only
  (repeat' split) <;> simp

@[simp] theorem fieldDrop_flashW (n c r : Nat) (s : State) : (fieldDrop n c r s).flashW = s.flashW := by rfl

@[simp] theorem fieldAbort_flashW (n r : Nat) (s : State) : (fieldAbort n r s).flashW = s.flashW := by
  simp [fieldAbort]

@[simp] theorem cutField_flashW (n : Nat) (s : State) : (cutField n s).flashW = s.flashW := by
  unfold cutField
  dsimp only
  (repeat' split) <;> simp

@[simp] theorem fieldEnd_flashW (n r : Nat) (f : FldFrame) (s : State) : (fieldEnd n r f s).flashW = s.flashW := by
  unfold fieldEnd
  dsimp only
  (repeat' split) <;> simp

@[simp] theorem fieldMoved_flashW (n k : Nat) (s : State) : (fieldMoved n k s).flashW = s.flashW := by
  simp [fieldMoved]

@[simp] theorem takeEnqueue_flashW (n : Nat) (f : FldTx) (s : State) : (takeEnqueue n f s).flashW = s.flashW := by
  unfold takeEnqueue
  dsimp only
  (repeat' split) <;> simp

@[simp] theorem decideEnqueue_flashW (n : Nat) (f : FldFrame) (s : State) : (decideEnqueue n f s).flashW = s.flashW := by rfl

@[simp] theorem putAgg_flashW (s : State) (a : Nat) (x : Agg) : (putAgg s a x).flashW = s.flashW := by rfl

theorem bodyAggLoad_flashW (w : Issuer) (p : Packet) (l : List Byte) (s : State) :
    (actState (bodyAggLoad.act w p l s)).flashW = s.flashW := by rfl

@[simp] theorem loadAgg_flashW (a : Nat) (l : List Byte) (s : State) : (loadAgg a l s).flashW = s.flashW := by
  unfold loadAgg; split <;> simp

@[simp] theorem triggerRun_flashW (ref i : Nat) (s : State) : (triggerRun ref i s).flashW = s.flashW := by
  unfold triggerRun
  dsimp only
  (repeat' split) <;> simp

@[simp] theorem scatterWrite_flashW (l : List (Nat × Nat × Nat)) (m : List Byte) (s : State) :
    (scatterWrite l m s).flashW = s.flashW := by
  fun_induction scatterWrite l m s <;> simp_all

@[simp] theorem imageBytes_flashW (l : Nat) (s : State) : (imageBytes l s).2.flashW = s.flashW := by
  induction l generalizing s <;> simp_all [imageBytes]

@[simp] theorem badImage_flashW (n : Nat) (s : State) : (badImage n s).flashW = s.flashW := by rfl

@[simp] theorem enqueueImage_flashW (a n : Nat) (s : State) : (enqueueImage a n s).1.flashW = s.flashW := by
  unfold enqueueImage
  dsimp only
  (repeat' split) <;> simp

@[simp] theorem enqueueImages_flashW (a : Nat) (l : List Nat) (s : State) : (enqueueImages a l s).1.flashW = s.flashW := by
  induction l generalizing s <;> simp_all [enqueueImages]

@[simp] theorem scatterEnd_flashW (a : Nat) (s : State) : (scatterEnd a s).flashW = s.flashW := by
  unfold scatterEnd
  dsimp only
  (repeat' split) <;> simp

@[simp] theorem scatterRun_flashW (a : Nat) (src : List Byte) (t : Option Nat) (s : State) :
    (scatterRun a src t s).flashW = s.flashW := by
  simp [scatterRun]

@[simp] theorem directSend_flashW (a t : Nat) (s : State) : (directSend a t s).flashW = s.flashW := by
  unfold directSend
  (repeat' split) <;> simp

@[simp] theorem settleDirect_flashW (s : State) : (settleDirect s).flashW = s.flashW := by
  simp only [settleDirect]
  (repeat' split) <;> simp [foldl_flashW]

@[simp] theorem sourceFault_flashW (h : Host) (q : QId) (t : OpTag) (src : ReadEnd) (s v : State) :
    (sourceFault h q t src s v).flashW = v.flashW := by
  unfold sourceFault
  (repeat' split) <;> simp

@[simp] theorem claimFrame_flashW (i : Nat) (a : Agg) (f : List Byte) (s : State) :
    (claimFrame i a f s).flashW = s.flashW := by
  unfold claimFrame
  (repeat' split) <;> simp

@[simp] theorem fieldSent_flashW (n c : Nat) (f : FldTx) (x : FldP) (s : State) :
    (fieldSent n c f x s).flashW = s.flashW := by
  simp [fieldSent]

@[simp] theorem failRun_flashW (c status : Nat) (s : State) : (failRun c status s).flashW = s.flashW := by
  unfold failRun
  dsimp only
  (repeat' split) <;> simp

@[simp] theorem abandonRx_flashW (s : State) : (abandonRx s).flashW = s.flashW := by
  unfold abandonRx; split <;> simp

@[simp] theorem abandonTx_flashW (s : State) : (abandonTx s).flashW = s.flashW := by
  unfold abandonTx; split <;> simp

@[simp] theorem endServed_flashW (c status : Nat) (s : State) : (endServed c status s).flashW = s.flashW := by
  unfold endServed
  (repeat' split) <;> simp

@[simp] theorem setId_flashW (st id : Nat) (s : State) : (setId st id s).flashW = s.flashW := by rfl

@[simp] theorem sendCtl_flashW (p : Nat) (bytes : List Byte) (s : State) : (sendCtl p bytes s).flashW = s.flashW := by
  unfold sendCtl
  dsimp only
  (repeat' split) <;> simp

@[simp] theorem enterConflict_flashW (uid : BitVec 64) (s : State) : (enterConflict uid s).flashW = s.flashW := by
  unfold enterConflict
  (repeat' split) <;> simp

@[simp] theorem yieldId_flashW (s : State) : (yieldId s).flashW = s.flashW := by rfl

@[simp] theorem judgeId_flashW (uid : BitVec 64) (id : BitVec 12) (st : BitVec 2) (otherGiven : Bool) (s : State) :
    (judgeId uid id st otherGiven s).flashW = s.flashW := by
  unfold judgeId
  (repeat' split) <;> simp

@[simp] theorem endConflict_flashW (s : State) : (endConflict s).flashW = s.flashW := by
  unfold endConflict
  (repeat' split) <;> simp

@[simp] theorem markConflicts_flashW (s : State) : (markConflicts s).flashW = s.flashW := by
  unfold markConflicts
  dsimp only
  (repeat' split) <;> simp

@[simp] theorem takeHello_flashW (p : Nat) (x : Hello) (s : State) : (takeHello p x s).flashW = s.flashW := by
  unfold takeHello
  dsimp only
  (repeat' split) <;> simp

@[simp] theorem keepFab_flashW (x : FabIn) (s : State) : (keepFab x s).flashW = s.flashW := by
  unfold keepFab; split <;> simp

@[simp] theorem trimDb_flashW (s : State) : (trimDb s).flashW = s.flashW := by
  unfold trimDb
  dsimp only
  (repeat' split) <;> simp

@[simp] theorem putTopo_flashW (m : TopoMsg) (s : State) : (putTopo m s).flashW = s.flashW := by rfl

@[simp] theorem floodTopo_flashW (p : Nat) (m : TopoMsg) (s : State) : (floodTopo p m s).flashW = s.flashW := by
  unfold floodTopo
  exact foldl_flashW _ (fun s a => by split <;> simp) _ _

@[simp] theorem takeTopo_flashW (p : Nat) (m : TopoMsg) (s : State) : (takeTopo p m s).flashW = s.flashW := by
  unfold takeTopo
  (repeat' split) <;> simp

@[simp] theorem consumeFab_flashW (s : State) : (consumeFab s).flashW = s.flashW := by
  unfold consumeFab
  split
  · rw [foldl_flashW _ (fun s a => ?_)]
    obtain ⟨a, st⟩ := a
    cases a <;> exact consumeAt_flashW _ _ _ (fun s => by simp)
  · rfl

theorem bodyRouteLoad_flashW (w : Issuer) (p : Packet) (l : List Byte) (s : State) :
    (actState (bodyRouteLoad.act w p l s)).flashW = s.flashW := by rfl

theorem bodyFabSet_flashW (w : Issuer) (p : Packet) (l : List Byte) (s : State) :
    (actState (bodyFabSet.act w p l s)).flashW = s.flashW := by rfl

theorem bodyBypassSet_flashW (w : Issuer) (p : Packet) (l : List Byte) (s : State) :
    (actState (bodyBypassSet.act w p l s)).flashW = s.flashW := by rfl

theorem bodyFabQuery_flashW (w : Issuer) (p : Packet) (l : List Byte) (s : State) :
    (actState (bodyFabQuery.act w p l s)).flashW = s.flashW := by rfl

@[simp] theorem rimFabEnable_flashW (en given : Bool) (st id : Nat) (s : State) :
    (rimFabEnable en given st id s).flashW = s.flashW := by
  have hb : ∀ t : State, (bypDrive { t with fab := { t.fab with en := en, given := given, idState := st, nodeId := id } }).flashW = t.flashW :=
    fun t => bypDrive_flashW _
  exact (hb (noteKeeps s)).trans (noteKeeps_flashW s)

@[simp] theorem rimBypassForce_flashW (k : Nat) (on : Bool) (s : State) : (rimBypassForce k on s).flashW = s.flashW := by rfl

@[simp] theorem bypFailed_flashW (k : Nat) (s : State) : (bypFailed k s).flashW = s.flashW := by
  unfold bypFailed; split <;> simp

@[simp] theorem countRelayed_flashW (p : Nat) (s : State) : (countRelayed p s).flashW = s.flashW := by
  simp [countRelayed]

@[simp] theorem cutTo_flashW (p e tc at_ : Nat) (bad : Bool) (f : List Byte) (s : State) :
    (cutTo p e tc at_ bad f s).flashW = s.flashW := by
  simp [cutTo]

@[simp] theorem relayTo_flashW (p e : Nat) (cut : Option Nat) (f : List Byte) (s : State) :
    (relayTo p e cut f s).flashW = s.flashW := by
  unfold relayTo
  dsimp only
  (repeat' split) <;> simp

@[simp] theorem relayGood_flashW (p : Nat) (cut : Option Nat) (f : List Byte) (s : State) :
    (relayGood p cut f s).flashW = s.flashW := by
  unfold relayGood
  (repeat' split) <;> simp

@[simp] theorem relayStomp_flashW (p at_ : Nat) (f : List Byte) (s : State) : (relayStomp p at_ f s).flashW = s.flashW := by
  unfold relayStomp
  (repeat' split) <;> simp

/-- A delivery, where what it does to a frame it takes, and with one that finds no queue, leaves it. -/
theorem deliverRx_flashW (h q source : Nat) (bytes : List Byte) (ts : Ts) (errs : BitVec 4) (bad : Bool) (took noQueue : State → State)
    (use n : Nat) (s : State) (ht : ∀ s, (took s).flashW = s.flashW) (hn : ∀ s, (noQueue s).flashW = s.flashW) :
    (deliverRx h q source bytes ts errs bad took noQueue use n s).flashW = s.flashW := by
  unfold deliverRx; (repeat' split) <;> simp [ht, hn]

@[simp] theorem deliverPort_flashW (p h q : Nat) (bytes : List Byte) (x : RxSum) (s : State) :
    (deliverPort p h q bytes x s).flashW = s.flashW :=
  deliverRx_flashW _ _ _ _ _ _ _ _ _ _ _ _ (fun s => by split <;> simp) (fun s => by simp)

@[simp] theorem countGood_flashW (p : Nat) (b : List Byte) (s : State) : (countGood p b s).flashW = s.flashW := by rfl

@[simp] theorem endRx_flashW (p r keep : Nat) (s : State) : (endRx p r keep s).flashW = s.flashW := by
  simp [endRx]

@[simp] theorem summarize_flashW (p r : Nat) (errs : BitVec 4) (bad : Bool) (f : RxFacts) (s : State) :
    (summarize p r errs bad f s).flashW = s.flashW := by
  unfold summarize; split <;> simp

@[simp] theorem badEnd_flashW (p r : Nat) (errs : BitVec 4) (f : RxFacts) (s : State) : (badEnd p r errs f s).flashW = s.flashW := by
  simp only [badEnd]; (repeat' split)
  · simp
  · rename_i e
    simp [reserve_flashW e]
  · simp

@[simp] theorem goodEnd_flashW (p r : Nat) (f : RxFacts) (s : State) : (goodEnd p r f s).flashW = s.flashW := by
  unfold goodEnd
  dsimp only
  (repeat' split) <;> simp

@[simp] theorem frameEnd_flashW (p r : Nat) (f : RxFacts) (s : State) : (frameEnd p r f s).flashW = s.flashW := by
  unfold frameEnd
  dsimp only
  (repeat' split) <;> simp

/-- What a frame meets that was being received when a setting changed, where the rest of its path leaves it. -/
theorem seen_flashW (p : Nat) (f : State → State) (s : State) (h : ∀ s, (f s).flashW = s.flashW) : (seen p f s).flashW = s.flashW := by
  unfold seen; dsimp only; split <;> simp [h]

@[simp] theorem rxEnd_flashW (p : Nat) (f : RxFacts) (s : State) : (rxEnd p f s).flashW = s.flashW := by
  unfold rxEnd
  dsimp only
  have hs : ∀ r s, (seen p (frameEnd p r f) s).flashW = s.flashW := fun r s => seen_flashW p _ s (fun s => by simp)
  (repeat' split) <;> simp [hs]

@[simp] theorem claimRest_flashW (p : Nat) (out : List Byte) (x : RxSum) (s : State) :
    (claimRest p out x s).flashW = s.flashW := by
  unfold claimRest
  dsimp only
  (repeat' split) <;> simp

@[simp] theorem classify_flashW (p : Nat) (x : RxSum) (s : State) : (classify p x s).flashW = s.flashW := by
  unfold classify
  dsimp only
  (repeat' split) <;> simp

@[simp] theorem takeCtl_flashW (p : Nat) (b : List Byte) (s : State) : (takeCtl p b s).flashW = s.flashW := by
  unfold takeCtl; split <;> simp

@[simp] theorem rxPath_flashW (p : Nat) (x : RxSum) (s : State) : (rxPath p x s).flashW = s.flashW := by
  unfold rxPath
  dsimp only
  (repeat' split) <;> simp

@[simp] theorem opTick_flashW (s : State) : (opTick s).flashW = s.flashW := by
  unfold opTick; split <;> simp

@[simp] theorem rimTimeStep_flashW (off : Int) (s : State) : (rimTimeStep off s).flashW = s.flashW := by rfl

@[simp] theorem rimTimeRate_flashW (adj : Int) (s : State) : (rimTimeRate adj s).flashW = s.flashW := by rfl

@[simp] theorem rimPps_flashW (outEn inEn : Bool) (width : Nat) (s : State) :
    (rimPps outEn inEn width s).flashW = s.flashW := by rfl

@[simp] theorem applyStep_flashW (off : Int) (s : State) : (applyStep off s).flashW = s.flashW := by
  simp [applyStep]

@[simp] theorem applyRate_flashW (adj : Int) (s : State) : (applyRate adj s).flashW = s.flashW := by rfl

@[simp] theorem putSlot_flashW (s : State) (k : Nat) (x : DomSlot) : (putSlot s k x).flashW = s.flashW := by
  unfold putSlot; split <;> simp

@[simp] theorem syncInterval_flashW (k : Nat) (s : State) : (syncInterval k s).flashW = s.flashW := by rfl

@[simp] theorem decideRate_flashW (a : Int) (s : State) : (decideRate a s).flashW = s.flashW := by rfl

@[simp] theorem dropSlew_flashW (s : State) : (dropSlew s).flashW = s.flashW := by
  unfold dropSlew; split <;> simp

@[simp] theorem domainSwitch_flashW (k : Nat) (s : State) : (domainSwitch k s).flashW = s.flashW := by
  unfold domainSwitch
  dsimp only
  (repeat' split) <;> simp

@[simp] theorem reselect_flashW (s : State) : (reselect s).flashW = s.flashW := by
  unfold reselect
  dsimp only
  (repeat' split) <;> simp

@[simp] theorem acquired_flashW (s : State) : (acquired s).flashW = s.flashW := by
  unfold acquired; split <;> simp

@[simp] theorem settleSlot_flashW (k : Nat) (s : State) : (settleSlot k s).flashW = s.flashW := by
  simp [settleSlot]

@[simp] theorem settlePtp_flashW (s : State) : (settlePtp s).flashW = s.flashW := by
  simp [settlePtp]

@[simp] theorem servo_flashW (k : Nat) (off adj : Int) (s : State) : (servo k off adj s).flashW = s.flashW := by
  unfold servo
  dsimp only
  (repeat' split) <;> simp

@[simp] theorem takeSync_flashW (f : SyncFacts) (s : State) : (takeSync f s).flashW = s.flashW := by
  unfold takeSync
  dsimp only
  (repeat' split) <;> simp

@[simp] theorem keepPtp_flashW (x : PtpIn) (s : State) : (keepPtp x s).flashW = s.flashW := by
  unfold keepPtp; split <;> simp

@[simp] theorem sendPtp_flashW (ty k seq st : Nat) (s : State) : (sendPtp ty k seq st s).flashW = s.flashW := by
  unfold sendPtp; exact foldl_flashW _ (fun s a => by split <;> simp) _ _

@[simp] theorem takeResponse_flashW (m : PtpMsg) (ts : Ts) (s : State) : (takeResponse m ts s).flashW = s.flashW := by
  unfold takeResponse
  dsimp only
  (repeat' split) <;> simp

@[simp] theorem takePdelay_flashW (m : PtpMsg) (ts : Ts) (s : State) : (takePdelay m ts s).flashW = s.flashW := by
  unfold takePdelay
  (repeat' split) <;> simp

@[simp] theorem consumePtp_flashW (s : State) : (consumePtp s).flashW = s.flashW := by
  unfold consumePtp
  split
  · rw [foldl_flashW _ (fun s a => ?_)]
    obtain ⟨a, st⟩ := a
    cases a <;> exact consumeAt_flashW _ _ _ (fun s => by simp)
  · rfl

@[simp] theorem putRead_flashW (r : Reader) (v : W32) (s : State) : (putRead r v s).flashW = s.flashW := by rfl

@[simp] theorem latchPut_flashW (r : Reader) (addr : Nat) (v : Nat) (s : State) :
    (latchPut r addr v s).flashW = s.flashW := by rfl

@[simp] theorem txtsPop_flashW (r : Reader) (p : Nat) (s : State) : (txtsPop r p s).1.flashW = s.flashW := by
  unfold txtsPop; split <;> simp

theorem bodyDomainSet_flashW (w : Issuer) (p : Packet) (l : List Byte) (s : State) :
    (actState (bodyDomainSet.act w p l s)).flashW = s.flashW := by
  dsimp only [bodyDomainSet]
  (repeat' split) <;> simp [actState]

theorem bodyTimeStep_flashW (w : Issuer) (p : Packet) (l : List Byte) (s : State) :
    (actState (bodyTimeStep.act w p l s)).flashW = s.flashW := by
  dsimp only [bodyTimeStep]
  (repeat' split) <;> simp [actState]

theorem bodyRateSet_flashW (w : Issuer) (p : Packet) (l : List Byte) (s : State) :
    (actState (bodyRateSet.act w p l s)).flashW = s.flashW := by rfl

theorem bodyPpsSet_flashW (w : Issuer) (p : Packet) (l : List Byte) (s : State) :
    (actState (bodyPpsSet.act w p l s)).flashW = s.flashW := by rfl

theorem bodyTimeQuery_flashW (w : Issuer) (p : Packet) (l : List Byte) (s : State) :
    (actState (bodyTimeQuery.act w p l s)).flashW = s.flashW := by rfl

@[simp] theorem evict_flashW (l : List W32) (s : State) : (evict l s).flashW = s.flashW := by
  show (count .recOverwritten [] 0 l.length _).flashW = _
  rw [count_flashW]

@[simp] theorem keepRecord_flashW (r : RecIn) (kept : Bool) (s : State) : (keepRecord r kept s).flashW = s.flashW := by rfl

@[simp] theorem takeRecord_flashW (r : RecIn) (s : State) : (takeRecord r s).flashW = s.flashW := by
  unfold takeRecord
  dsimp only
  (repeat' split) <;> simp

@[simp] theorem writeFirst_flashW (s : State) : (writeFirst s).flashW = s.flashW := by
  unfold writeFirst
  (repeat' split) <;> simp

@[simp] theorem markBank_flashW (b cause : Nat) (s : State) : (markBank b cause s).flashW = s.flashW := by
  unfold markBank; split <;> simp

@[simp] theorem goVolatile_flashW (s : State) : (goVolatile s).flashW = s.flashW := by
  simp [goVolatile]

@[simp] theorem takeBank_flashW (b cause : Nat) (seq : W32) (s : State) : (takeBank b cause seq s).flashW = s.flashW := by
  unfold takeBank
  dsimp only
  (repeat' split) <;> simp

@[simp] theorem checkLost_flashW (s : State) : (checkLost s).flashW = s.flashW := by
  unfold checkLost
  dsimp only
  (repeat' split) <;> simp

@[simp] theorem rebuildBank_flashW (b : Nat) (s : State) : (rebuildBank b s).flashW = s.flashW := by
  simp [rebuildBank]

@[simp] theorem startAnew_flashW (s : State) : (startAnew s).flashW = s.flashW := by
  simp [startAnew]

@[simp] theorem takeAnew_flashW (s : State) (r : Rec) : (takeAnew s r).flashW = s.flashW := by
  simp [takeAnew]

@[simp] theorem rimStep_flashW (k : Nat) (s : State) : (rimStep k s).flashW = s.flashW := by
  unfold rimStep; split <;> simp

@[simp] theorem writeSummary_flashW (flushed : Bool) (s : State) : (writeSummary flushed s).flashW = s.flashW := by
  unfold writeSummary; split <;> simp

@[simp] theorem putReader_flashW (s : State) (r : Reader) (x : RecReader) : (putReader s r x).flashW = s.flashW := by rfl

@[simp] theorem markDamaged_flashW (l : List W32) (s : State) : (markDamaged l s).flashW = s.flashW := by rfl

@[simp] theorem startLoad_flashW (r : Reader) (ask : Nat) (v : W32) (s : State) :
    (startLoad r ask v s).flashW = s.flashW := by rfl

@[simp] theorem rimClearFloor_flashW (host : Nat) (s : State) : (rimClearFloor host s).flashW = s.flashW := by
  simp [rimClearFloor]

theorem bodyNote_flashW (w : Issuer) (p : Packet) (l : List Byte) (s : State) :
    (actState (bodyNote.act w p l s)).flashW = s.flashW := by rfl

theorem bodyChallenge_flashW (w : Issuer) (p : Packet) (l : List Byte) (s : State) :
    (actState (bodyChallenge.act w p l s)).flashW = s.flashW := by rfl

theorem bodyRecClear_flashW (w : Issuer) (p : Packet) (l : List Byte) (s : State) :
    (actState (bodyRecClear.act w p l s)).flashW = s.flashW := by rfl

theorem bodyRecQuery_flashW (w : Issuer) (p : Packet) (l : List Byte) (s : State) :
    (actState (bodyRecQuery.act w p l s)).flashW = s.flashW := by rfl

@[simp] theorem castleOutcome_flashW (status : Nat) (d : SideId) (s : State) :
    (castleOutcome status d s).flashW = s.flashW := by
  unfold castleOutcome
  (repeat' split) <;> simp

@[simp] theorem exitCommit_flashW (n : Nat) (s : State) : (exitCommit n s).flashW = s.flashW := by
  unfold exitCommit
  (repeat' split) <;> simp

@[simp] theorem commitCounters_flashW (n : Nat) (s : State) : (commitCounters n s).flashW = s.flashW := by
  simp [commitCounters]

@[simp] theorem slotEnd_flashW (s : State) : (slotEnd s).flashW = s.flashW := by
  unfold slotEnd; split <;> simp

@[simp] theorem commitMove_flashW (n : Nat) (s : State) : (commitMove n s).flashW = s.flashW := by
  unfold commitMove
  dsimp only
  (repeat' split) <;> simp

@[simp] theorem undoPending_flashW (s : State) : (undoPending s).flashW = s.flashW := by
  unfold undoPending; split <;> simp

@[simp] theorem settlePending_flashW (d : SideId) (s : State) : (settlePending d s).flashW = s.flashW := by
  unfold settlePending
  (repeat' split) <;> simp

@[simp] theorem abortResync_flashW (s : State) : (abortResync s).flashW = s.flashW := by
  simp [abortResync]

@[simp] theorem beginIntr_flashW (tick : Nat) (s : State) : (beginIntr tick s).flashW = s.flashW := by
  unfold beginIntr; split <;> simp

@[simp] theorem endIntr_flashW (s : State) : (endIntr s).flashW = s.flashW := by
  unfold endIntr; split <;> simp

@[simp] theorem soloCommit_flashW (h : SideId) (s : State) : (soloCommit h s).flashW = s.flashW := by
  unfold soloCommit
  (repeat' split) <;> simp

@[simp] theorem endHandover_flashW (h : SideId) (s : State) : (endHandover h s).flashW = s.flashW := by
  unfold endHandover
  (repeat' split) <;> simp

@[simp] theorem leaveState_flashW (d : SideId) (status : Nat) (s : State) : (leaveState d status s).flashW = s.flashW := by
  unfold leaveState
  dsimp only
  (repeat' split) <;> simp

@[simp] theorem enterResync_flashW (d : SideId) (s : State) : (enterResync d s).flashW = s.flashW := by
  simp only [enterResync, followSides_flashW, updSide_flashW, draw_flashW]

@[simp] theorem admitWaiting_flashW (s : State) : (admitWaiting s).flashW = s.flashW := by
  unfold admitWaiting
  dsimp only
  (repeat' split) <;> simp

@[simp] theorem endStart_flashW (s : State) : (endStart s).flashW = s.flashW := by rfl

@[simp] theorem safeFromStart_flashW (s : State) : (safeFromStart s).flashW = s.flashW := by
  simp [safeFromStart]

@[simp] theorem bypassFail_flashW (s : State) : (bypassFail s).flashW = s.flashW := by
  unfold bypassFail
  dsimp only
  (repeat' split) <;> simp [foldl_flashW]

@[simp] theorem loseClock_flashW (s : State) : (loseClock s).flashW = s.flashW := by rfl

@[simp] theorem declareFall_flashW (d : SideId) (s : State) : (declareFall d s).flashW = s.flashW := by
  simp [declareFall]

@[simp] theorem noTaker_flashW (d : SideId) (s : State) : (noTaker d s).flashW = s.flashW := by
  unfold noTaker
  dsimp only
  (repeat' split) <;> simp

@[simp] theorem endCheck_flashW (v : Nat) (s : State) : (endCheck v s).flashW = s.flashW := by
  simp [endCheck]

@[simp] theorem forcedIntr_flashW (d : SideId) (s : State) : (forcedIntr d s).flashW = s.flashW := by rfl

@[simp] theorem holderFell_flashW (d : SideId) (s : State) : (holderFell d s).flashW = s.flashW := by
  unfold holderFell
  dsimp only
  (repeat' split) <;> simp

@[simp] theorem otherFell_flashW (d : SideId) (s : State) : (otherFell d s).flashW = s.flashW := by
  unfold otherFell
  dsimp only
  (repeat' split) <;> simp

@[simp] theorem flagFall_flashW (d : SideId) (s : State) : (flagFall d s).flashW = s.flashW := by
  unfold flagFall; split <;> simp

@[simp] theorem loseLock_flashW (d : SideId) (c : HealthCause) (s : State) : (loseLock d c s).flashW = s.flashW := by
  unfold loseLock; split <;> simp

@[simp] theorem writeAgain_flashW (s : State) : (writeAgain s).flashW = s.flashW := by rfl

@[simp] theorem beginReplay_flashW (s : State) : (beginReplay s).flashW = s.flashW := by rfl

@[simp] theorem enterLockstep_flashW (h : SideId) (s : State) : (enterLockstep h s).flashW = s.flashW := by
  simp [enterLockstep]

@[simp] theorem linkFailed_flashW (h : SideId) (s : State) : (linkFailed h s).flashW = s.flashW := by
  unfold linkFailed
  dsimp only
  (repeat' split) <;> simp

@[simp] theorem mlFail_flashW (s : State) : (mlFail s).flashW = s.flashW := by
  unfold mlFail
  dsimp only
  (repeat' split) <;> simp

@[simp] theorem handedOver_flashW (d : SideId) (s : State) : (handedOver d s).flashW = s.flashW := by
  unfold handedOver
  dsimp only
  (repeat' split) <;> simp

@[simp] theorem startTests_flashW (d : SideId) (s : State) : (startTests d s).flashW = s.flashW := by
  simp [startTests]

@[simp] theorem beginPending_flashW (s : State) : (beginPending s).flashW = s.flashW := by
  unfold beginPending
  (repeat' split) <;> simp

@[simp] theorem leaveCastling_flashW (s : State) : (leaveCastling s).flashW = s.flashW := by
  unfold leaveCastling
  (repeat' split) <;> simp

@[simp] theorem warmLane_flashW (s : State) : (warmLane s).flashW = s.flashW := by
  unfold warmLane
  dsimp only
  (repeat' split) <;> simp [foldl_flashW]

@[simp] theorem warmDma_flashW (s : State) : (warmDma s).flashW = s.flashW := by rfl

@[simp] theorem warmRx_flashW (s : State) : (warmRx s).flashW = s.flashW := by
  simp [warmRx, foldl_flashW]

@[simp] theorem takeBack_flashW (x : Staged) (s : State) : (takeBack x s).flashW = s.flashW := by
  unfold takeBack
  dsimp only
  (repeat' split) <;> simp

@[simp] theorem warmTx_flashW (s : State) : (warmTx s).flashW = s.flashW := by
  have hf : ∀ (l : List (Nat × Nat × Nat × Staged)) (g : (Nat × Nat × Nat × Staged) → State → State) (s : State),
      (∀ a s, (g a s).flashW = s.flashW) → (l.foldr g s).flashW = s.flashW := by
    intro l g s h
    induction l with
    | nil => rfl
    | cons a l ih => rw [List.foldr_cons, h, ih]
  unfold warmTx
  dsimp only
  rw [hf _ _ _ (fun a s => by simp), foldl_flashW _ (fun s a => by simp)]

@[simp] theorem warmRestore_flashW (s : State) : (warmRestore s).flashW = s.flashW := by
  unfold warmRestore
  dsimp only
  split <;> split <;> simp only [fwStart_flashW, warmTx_flashW, warmRx_flashW, warmDma_flashW, warmLane_flashW]

@[simp] theorem releaseClock_flashW (h : SideId) (s : State) : (releaseClock h s).flashW = s.flashW := by
  simp [releaseClock]

@[simp] theorem divergeCase_flashW (s : State) (t : Nat) : (divergeCase s t).flashW = s.flashW := by rfl

@[simp] theorem warmDone_flashW (s : State) : (warmDone s).flashW = s.flashW := by
  unfold warmDone; split <;> simp

@[simp] theorem warmMode_flashW (s : State) : (warmMode s).flashW = s.flashW := by
  unfold warmMode
  dsimp only
  (repeat' split) <;> simp

@[simp] theorem endWarm_flashW (s : State) : (endWarm s).flashW = s.flashW := by
  simp [endWarm]

@[simp] theorem consumeInputs_flashW (s : State) : (consumeInputs s).flashW = s.flashW := by
  simp [consumeInputs]

@[simp] theorem mismatch_flashW (kind : Nat) (o : LsOutput) (s : State) : (mismatch kind o s).flashW = s.flashW := by
  unfold mismatch
  (repeat' split) <;> simp

@[simp] theorem lsContinue_flashW (d : SideId) (s : State) : (lsContinue d s).flashW = s.flashW := by
  unfold lsContinue
  dsimp only
  (repeat' split) <;> simp

@[simp] theorem failCheck_flashW (d : SideId) (s : State) : (failCheck d s).flashW = s.flashW := by
  unfold failCheck; split <;> simp

@[simp] theorem exitLockstep_flashW (s : State) : (exitLockstep s).flashW = s.flashW := by
  unfold exitLockstep
  (repeat' split) <;> simp

@[simp] theorem testDdr_flashW (d : SideId) (ran good : BitVec 7) (s : State) :
    (testDdr d ran good s).flashW = s.flashW := by
  unfold testDdr
  (repeat' split) <;> simp

theorem bodyCastle_flashW (w : Issuer) (p : Packet) (l : List Byte) (s : State) :
    (actState (bodyCastle.act w p l s)).flashW = s.flashW := by rfl

theorem bodySelftest_flashW (w : Issuer) (p : Packet) (l : List Byte) (s : State) :
    (actState (bodySelftest.act w p l s)).flashW = s.flashW := by
  dsimp only [bodySelftest]
  (repeat' split) <;> simp [actState]

theorem bodyResetStandby_flashW (w : Issuer) (p : Packet) (l : List Byte) (s : State) :
    (actState (bodyResetStandby.act w p l s)).flashW = s.flashW := by rfl

theorem bodySideQuery_flashW (w : Issuer) (p : Packet) (l : List Byte) (s : State) :
    (actState (bodySideQuery.act w p l s)).flashW = s.flashW := by rfl

@[simp] theorem fixAi_flashW (s : State) : (fixAi s).flashW = s.flashW := by rfl

@[simp] theorem slotStart_flashW (s : State) : (slotStart s).flashW = s.flashW := by
  unfold slotStart; split <;> simp

@[simp] theorem offerCommit_flashW (s : State) : (offerCommit s).flashW = s.flashW := by
  unfold offerCommit
  dsimp only
  (repeat' split) <;> simp

@[simp] theorem beginCastling_flashW (s : State) : (beginCastling s).flashW = s.flashW := by
  unfold beginCastling
  dsimp only
  (repeat' split) <;> simp

@[simp] theorem holdAtMarker_flashW (s : State) : (holdAtMarker s).flashW = s.flashW := by
  unfold holdAtMarker; split <;> simp

@[simp] theorem notLate_flashW (s : State) : (notLate s).flashW = s.flashW := by rfl

@[simp] theorem frerCheck_flashW (s : State) : (frerCheck s).flashW = s.flashW := by
  unfold frerCheck
  exact foldl_flashW _ (fun s a => by split <;> simp) _ _

@[simp] theorem throttle_flashW (s : State) : (throttle s).flashW = s.flashW := by rfl

@[simp] theorem writeDue_flashW (l : List DueStatus) (s : State) : (writeDue l s).flashW = s.flashW := by
  induction l generalizing s with
  | nil => rfl
  | cons d r ih => simp only [writeDue]; split <;> rw [ih]; split <;> simp

@[simp] theorem drainVecs_flashW (s : State) : (drainVecs s).flashW = s.flashW := by
  unfold drainVecs
  refine foldl_flashW _ (fun s a => ?_) _ _
  dsimp only
  (repeat' split) <;> simp

@[simp] theorem coldReset_flashW (cause : Nat) (s : State) : (coldReset cause s).flashW = s.flashW := by
  simp [coldReset]

@[simp] theorem abortRunning_flashW (s : State) : (abortRunning s).flashW = s.flashW := by
  simp only [abortRunning]
  (repeat' split) <;> simp [foldl_flashW]

@[simp] theorem abortWaiting_flashW (l : List (Nat × Packet × Stamp)) (s : State) :
    (abortWaiting l s).flashW = s.flashW := by
  induction l generalizing s <;> simp_all [abortWaiting]

@[simp] theorem abortStatuses_flashW (s : State) : (abortStatuses s).flashW = s.flashW := by
  simp [abortStatuses]

@[simp] theorem beginCold_flashW (s : State) : (beginCold s).flashW = s.flashW := by
  unfold beginCold
  dsimp only
  (repeat' split) <;> simp

@[simp] theorem endLoad_flashW (m : Nat) (s : State) : (endLoad m s).flashW = s.flashW := by
  unfold endLoad
  dsimp only
  (repeat' split) <;> simp

@[simp] theorem refuseItem_flashW (s : State) : (refuseItem s).flashW = s.flashW := by
  simp [refuseItem]

@[simp] theorem finishLong_flashW (g status result : Nat) (s : State) :
    (finishLong g status result s).flashW = s.flashW := by
  unfold finishLong
  dsimp only
  (repeat' split) <;> simp

@[simp] theorem abortWork_flashW (d : SideId) (s : State) : (abortWork d s).flashW = s.flashW := by
  unfold abortWork
  dsimp only
  (repeat' split) <;> simp

@[simp] theorem resetSide_flashW (d : SideId) (cause : Nat) (s : State) : (resetSide d cause s).flashW = s.flashW := by
  unfold resetSide
  dsimp only
  (repeat' split) <;> simp

@[simp] theorem pinCause_flashW (s : State) : (pinCause s).flashW = s.flashW := by
  unfold pinCause
  dsimp only
  (repeat' split) <;> simp

@[simp] theorem warmStart_flashW (cause : Nat) (s : State) : (warmStart cause s).flashW = s.flashW := by
  unfold warmStart
  dsimp only
  (repeat' split) <;> simp

@[simp] theorem selfRefresh_flashW (d : SideId) (on : Bool) (s : State) : (selfRefresh d on s).flashW = s.flashW := by
  unfold selfRefresh; split <;> simp

@[simp] theorem oneSideWarm_flashW (s : State) : (oneSideWarm s).flashW = s.flashW := by
  unfold oneSideWarm; split <;> simp

@[simp] theorem putPin_flashW (d : SideId) (on : Bool) (s : State) : (putPin d on s).flashW = s.flashW := by rfl

@[simp] theorem putDdr_flashW (s : State) (d : SideId) (x : Ddr) : (putDdr s d x).flashW = s.flashW := by
  unfold putDdr; split <;> simp

@[simp] theorem lockSide_flashW (d : SideId) (s : State) : (lockSide d s).flashW = s.flashW := by rfl

@[simp] theorem giveUpWarm_flashW (s : State) : (giveUpWarm s).flashW = s.flashW := by
  unfold giveUpWarm
  dsimp only
  (repeat' split) <;> simp

@[simp] theorem bootFailed_flashW (d : SideId) (cause : Nat) (s : State) : (bootFailed d cause s).flashW = s.flashW := by
  unfold bootFailed
  dsimp only
  (repeat' split) <;> simp

@[simp] theorem bootReady_flashW (d : SideId) (s : State) : (bootReady d s).flashW = s.flashW := by
  unfold bootReady
  dsimp only
  (repeat' split) <;> simp

@[simp] theorem loseQueued_flashW (s : State) : (loseQueued s).flashW = s.flashW := by rfl

@[simp] theorem releasePorst_flashW (s : State) : (releasePorst s).flashW = s.flashW := by rfl

@[simp] theorem pinReset_flashW (d : SideId) (cause : Nat) (s : State) : (pinReset d cause s).flashW = s.flashW := by
  unfold pinReset
  dsimp only
  (repeat' split) <;> simp

theorem bodyModeQuery_flashW (w : Issuer) (p : Packet) (l : List Byte) (s : State) :
    (actState (bodyModeQuery.act w p l s)).flashW = s.flashW := by rfl

@[simp] theorem markStart_flashW (kind : Nat) (s : State) : (markStart kind s).flashW = s.flashW := by rfl

@[simp] theorem dropWarm_flashW (s : State) : (dropWarm s).flashW = s.flashW := by
  unfold dropWarm
  dsimp only
  (repeat' split) <;> simp

theorem bodyStartCold_flashW (w : Issuer) (p : Packet) (l : List Byte) (s : State) :
    (actState (bodyStartCold.act w p l s)).flashW = s.flashW := by
  dsimp only [bodyStartCold]
  (repeat' split) <;> simp [actState]

theorem bodyStartWarm_flashW (w : Issuer) (p : Packet) (l : List Byte) (s : State) :
    (actState (bodyStartWarm.act w p l s)).flashW = s.flashW := by rfl

theorem bodyConfigEnter_flashW (w : Issuer) (p : Packet) (l : List Byte) (s : State) :
    (actState (bodyConfigEnter.act w p l s)).flashW = s.flashW := by rfl

theorem bodyConfigExit_flashW (w : Issuer) (p : Packet) (l : List Byte) (s : State) :
    (actState (bodyConfigExit.act w p l s)).flashW = s.flashW := by rfl

theorem bodySafeHold_flashW (w : Issuer) (p : Packet) (l : List Byte) (s : State) :
    (actState (bodySafeHold.act w p l s)).flashW = s.flashW := by rfl

theorem bodyResume_flashW (w : Issuer) (p : Packet) (l : List Byte) (s : State) :
    (actState (bodyResume.act w p l s)).flashW = s.flashW := by rfl

@[simp] theorem putFeed_flashW (f : Feed) (on : Bool) (s : State) : (putFeed f on s).flashW = s.flashW := by
  unfold putFeed; split <;> simp

@[simp] theorem loseLocks_flashW (d : SideId) (s : State) : (loseLocks d s).flashW = s.flashW := by
  simp [loseLocks]

@[simp] theorem feedLost_flashW (f : Feed) (s : State) : (feedLost f s).flashW = s.flashW := by
  simp [feedLost]

@[simp] theorem putRef_flashW (r : Nat) (here qual : Bool) (s : State) : (putRef r here qual s).flashW = s.flashW := by rfl

@[simp] theorem switchRef_flashW (s : State) : (switchRef s).flashW = s.flashW := by
  simp [switchRef]

@[simp] theorem regainLocks_flashW (s : State) : (regainLocks s).flashW = s.flashW := by
  unfold regainLocks; split <;> simp

@[simp] theorem rimUnlock_flashW (s : State) : (rimUnlock s).flashW = s.flashW := by
  simp [rimUnlock]

@[simp] theorem putLock_flashW (i : RimIsland) (on : Bool) (s : State) : (putLock i on s).flashW = s.flashW := by
  unfold putLock; split <;> simp

@[simp] theorem putTemp_flashW (n : Sensor) (t : BitVec 16) (s : State) : (putTemp n t s).flashW = s.flashW := by
  unfold putTemp; split <;> simp

@[simp] theorem putViof_flashW (k : Nat) (v : BitVec 2) (s : State) : (putViof k v s).flashW = s.flashW := by rfl

@[simp] theorem putLink_flashW (h : Nat) (l : Link) (s : State) : (putLink h l s).flashW = s.flashW := by rfl

@[simp] theorem changeLink_flashW (h : Nat) (up : Bool) (s : State) : (changeLink h up s).flashW = s.flashW := by
  unfold changeLink; split <;> simp

@[simp] theorem unmask_flashW (h v : Nat) (s : State) : (unmask h v s).flashW = s.flashW := by
  unfold unmask
  dsimp only
  (repeat' split) <;> simp

@[simp] theorem writeMsix_flashW (h a : Nat) (enables : BitVec 4) (v : W32) (s : State) :
    (writeMsix h a enables v s).flashW = s.flashW := by
  unfold writeMsix
  dsimp only
  (repeat' split) <;> simp

@[simp] theorem dropWork_flashW (ts : List Nat) (s : State) : (dropWork ts s).flashW = s.flashW := by
  simp [dropWork, foldl_flashW]

@[simp] theorem perstSide_flashW (h : Nat) (s : State) : (perstSide h s).flashW = s.flashW := by
  simp [perstSide, foldl_flashW]

@[simp] theorem perstRim_flashW (h : Nat) (s : State) : (perstRim h s).flashW = s.flashW := by
  simp [perstRim]

theorem bodyFwQuery_flashW (w : Issuer) (p : Packet) (l : List Byte) (s : State) :
    (actState (bodyFwQuery.act w p l s)).flashW = s.flashW := by rfl

@[simp] theorem leaveStep_flashW (d : SideId) (s : State) : (leaveStep d s).flashW = s.flashW := by
  unfold leaveStep; split <;> simp

theorem bodyFwVerify_flashW (w : Issuer) (p : Packet) (l : List Byte) (s : State) :
    (actState (bodyFwVerify.act w p l s)).flashW = s.flashW := by
  dsimp only [bodyFwVerify, actState]; simp

@[simp] theorem rimResetStandby_flashW (s : State) : (rimResetStandby s).flashW = s.flashW := by
  unfold rimResetStandby; split <;> simp

@[simp] theorem rimResume_flashW (causes : BitVec 5) (s : State) : (rimResume causes s).flashW = s.flashW := by
  unfold rimResume
  dsimp only
  (repeat' split) <;> simp

@[simp] theorem rimMode_flashW (m : Nat) (s : State) : (rimMode m s).flashW = s.flashW := by
  unfold rimMode
  (repeat' split) <;> simp

@[simp] theorem rimFwClear_flashW (w : Nat) (v : W32) (s : State) : (rimFwClear w v s).flashW = s.flashW := by rfl

@[simp] theorem rimRoutes_flashW (t : Tab (BitVec 64)) (s : State) : (rimRoutes t s).flashW = s.flashW := by
  have hb : ∀ u : State, ({ u with fab := { u.fab with routes := t } } : State).flashW = u.flashW := fun u => rfl
  exact (hb (noteKeeps s)).trans (noteKeeps_flashW s)

@[simp] theorem rimWrite_flashW (s : State) (w : RimWrite) : (rimWrite s w).flashW = s.flashW := by
  unfold rimWrite; split <;> simp

@[simp] theorem loadLatch_flashW (r : Reader) (g : Reg) (is : List Nat) (s : State) :
    (loadLatch r g is s).flashW = s.flashW := by
  unfold loadLatch
  (repeat' split) <;> simp

@[simp] theorem clearRc_flashW (r : Reader) (g : Reg) (is : List Nat) (s : State) (x : Nat × Nat) :
    (clearRc r g is s x).flashW = s.flashW := by
  unfold clearRc
  dsimp only
  (repeat' split) <;> simp

@[simp] theorem readEffects_flashW (r : Reader) (g : Reg) (is : List Nat) (s : State) :
    (readEffects r g is s).flashW = s.flashW := by
  unfold readEffects
  dsimp only
  (repeat' split) <;> simp [foldl_flashW]

@[simp] theorem doRead_flashW (r : Reader) (g : Reg) (is : List Nat) (s : State) : (doRead r g is s).flashW = s.flashW := by
  unfold doRead
  (repeat' split) <;> simp

@[simp] theorem accErr_flashW (h lo : Nat) (s : State) : (accErr h lo s).flashW = s.flashW := by rfl

@[simp] theorem accErrOf_flashW (r : Reader) (lo : Nat) (s : State) : (accErrOf r lo s).flashW = s.flashW := by
  unfold accErrOf; split <;> simp

@[simp] theorem storeReg_flashW (g : Reg) (is : List Nat) (v : W32) (s : State) :
    (storeReg g is v s).flashW = s.flashW := by rfl

@[simp] theorem enableAq_flashW (h : Nat) (v : W32) (s : State) : (enableAq h v s).flashW = s.flashW := by
  unfold enableAq
  dsimp only
  (repeat' split) <;> simp

@[simp] theorem writeAqCfg_flashW (h : Nat) (v : W32) (s : State) : (writeAqCfg h v s).flashW = s.flashW := by
  unfold writeAqCfg
  dsimp only
  (repeat' split) <;> simp

@[simp] theorem writePriv_flashW (r : Reader) (v : W32) (s : State) : (writePriv r v s).flashW = s.flashW := by
  unfold writePriv
  dsimp only
  (repeat' split) <;> simp

@[simp] theorem writePoolCtl_flashW (v : W32) (s : State) : (writePoolCtl v s).flashW = s.flashW := by
  unfold writePoolCtl
  (repeat' split) <;> simp

@[simp] theorem clearMonitor_flashW (m : Nat) (s : State) : (clearMonitor m s).flashW = s.flashW := by rfl

@[simp] theorem writeMonCfg_flashW (m : Nat) (v : W32) (s : State) : (writeMonCfg m v s).flashW = s.flashW := by
  unfold writeMonCfg
  dsimp only
  (repeat' split) <;> simp

@[simp] theorem writeRoute_flashW (n src : Nat) (v : W32) (s : State) : (writeRoute n src v s).flashW = s.flashW := by
  unfold writeRoute
  dsimp only
  (repeat' split) <;> simp

@[simp] theorem sendDue_flashW (h v : Nat) (s : State) : (sendDue h v s).flashW = s.flashW := by
  unfold sendDue
  dsimp only
  (repeat' split) <;> simp

@[simp] theorem writeCoal_flashW (n v : Nat) (x : W32) (s : State) : (writeCoal n v x s).flashW = s.flashW := by
  unfold writeCoal
  dsimp only
  (repeat' split) <;> simp

@[simp] theorem writeEvtStat_flashW (r : Reader) (w : Nat) (v : W32) (s : State) :
    (writeEvtStat r w v s).flashW = s.flashW := by
  unfold writeEvtStat; split <;> simp

@[simp] theorem writePinStat_flashW (w : Nat) (v : W32) (s : State) : (writePinStat w v s).flashW = s.flashW := by rfl

@[simp] theorem writeRdCfg_flashW (r : Reader) (v : W32) (s : State) : (writeRdCfg r v s).flashW = s.flashW := by
  unfold writeRdCfg
  dsimp only
  (repeat' split) <;> simp

@[simp] theorem writeClkCfg_flashW (v : W32) (s : State) : (writeClkCfg v s).flashW = s.flashW := by
  unfold writeClkCfg
  dsimp only
  (repeat' split) <;> simp

@[simp] theorem writeReg_flashW (r : Reader) (g : Reg) (is : List Nat) (v : W32) (s : State) :
    (writeReg r g is v s).flashW = s.flashW := by
  unfold writeReg
  dsimp only
  (repeat' split) <;> simp

@[simp] theorem applyWrite_flashW (r : Reader) (a : Nat) (v : W32) (s : State) :
    (applyWrite r a v s).flashW = s.flashW := by
  unfold applyWrite
  dsimp only
  (repeat' split) <;> simp

@[simp] theorem hostWrite_flashW (h a : Nat) (enables : BitVec 4) (v : W32) (s : State) :
    (hostWrite h a enables v s).flashW = s.flashW := by
  unfold hostWrite
  (repeat' split) <;> simp

@[simp] theorem writeAt_flashW (h : Nat) (g : Reg) (is : List Nat) (v : W32) (s : State) :
    (writeAt h g is v s).flashW = s.flashW := by
  simp [writeAt]

@[simp] theorem applyOldest_flashW (s : State) : (applyOldest s).flashW = s.flashW := by
  unfold applyOldest
  (repeat' split)
  · rfl
  · rw [consumeAt_flashW _ _ _ (fun s => by simp)]
  · rfl
  · rw [consumeAt_flashW _ _ _ (fun s => by simp)]

@[simp] theorem writeSide_flashW (h : Nat) (g : Reg) (is : List Nat) (v : W32) (s : State) :
    (writeSide h g is v s).flashW = s.flashW := by
  unfold writeSide
  dsimp only
  (repeat' split) <;> simp

@[simp] theorem readAt_flashW (r : Reader) (a : Nat) (s : State) : (readAt r a s).flashW = s.flashW := by
  unfold readAt; split <;> simp

@[simp] theorem sideRead_flashW (h : Host) (a : Nat) (s : State) : (sideRead h a s).flashW = s.flashW := by
  unfold sideRead
  (repeat' split) <;> simp

@[simp] theorem answerHeld_flashW (h : Host) (a : Nat) (s : State) : (answerHeld h a s).flashW = s.flashW := by
  have hp : ∀ s, (answerHeld.plainHeld h a s).flashW = s.flashW := by
    intro s; unfold answerHeld.plainHeld; split <;> simp
  unfold answerHeld; dsimp only; (repeat' split) <;> simp [hp]

@[simp] theorem hostRead_flashW (h : Host) (a : Nat) (s : State) : (hostRead h a s).flashW = s.flashW := by
  unfold hostRead
  (repeat' split) <;> simp

@[simp] theorem partRead_flashW (r : Reader) (a : Nat) (s : State) : (partRead r a s).flashW = s.flashW := by
  unfold partRead
  (repeat' split) <;> simp

@[simp] theorem readerRead_flashW (r : Reader) (a : Nat) (s : State) : (readerRead r a s).flashW = s.flashW := by
  unfold readerRead
  (repeat' split) <;> simp

@[simp] theorem readerWrite_flashW (r : Reader) (g : Reg) (v : W32) (s : State) :
    (readerWrite r g v s).flashW = s.flashW := by
  unfold readerWrite
  (repeat' split) <;> simp

@[simp] theorem loadTable_flashW (t : List (BitVec 512)) (s : State) : (loadTable t s).flashW = s.flashW := by rfl

@[simp] theorem nextItem_flashW (s : State) : (nextItem s).flashW = s.flashW := by rfl

@[simp] theorem uncount_flashW (key : Nat) (s : State) : (uncount key s).flashW = s.flashW := by rfl

@[simp] theorem restatus_flashW (x : IbCmd) (st : Nat × Nat) (s : State) : (restatus x st s).flashW = s.flashW := by
  unfold restatus
  dsimp only
  (repeat' split) <;> simp

/-! ### The black side's -/

theorem foldl_flashB (f : State → α → State) (h : ∀ s a, (f s a).flashB = s.flashB) (l : List α) (s : State) :
    (l.foldl f s).flashB = s.flashB := by
  induction l generalizing s with
  | nil => rfl
  | cons a l ih => rw [List.foldl_cons, ih, h]

@[simp] theorem regStore_flashB (s : State) (g : Reg) (is : List Nat) (v : W32) :
    (regStore s g is v).flashB = s.flashB := by rfl

@[simp] theorem bumpW_flashB (key w n : Nat) (s : State) : (bumpW key w n s).flashB = s.flashB := by rfl

@[simp] theorem count_flashB (g : Reg) (is : List Nat) (lo n : Nat) (s : State) :
    (count g is lo n s).flashB = s.flashB := by rfl

@[simp] theorem countMax_flashB (g : Reg) (is : List Nat) (lo n : Nat) (s : State) :
    (countMax g is lo n s).flashB = s.flashB := by rfl

@[simp] theorem portCount_flashB (p c n : Nat) (s : State) : (portCount p c n s).flashB = s.flashB := by rfl

@[simp] theorem putSide_flashB (s : State) (d : SideId) (r : SideRec) : (putSide s d r).flashB = s.flashB := by
  unfold putSide; split <;> simp

@[simp] theorem gatedWrite_flashB (d : SideId) (s : State) : (gatedWrite d s).flashB = s.flashB := by
  unfold gatedWrite; split <;> simp

/-- What a side does through its gate, where the act leaves it. -/
theorem byGate_flashB (d : SideId) (f : State → State) (s : State) (h : ∀ s, (f s).flashB = s.flashB) : (byGate d f s).flashB = s.flashB := by
  unfold byGate; split <;> simp [h]

@[simp] theorem record_flashB (b : SsBody) (s : State) : (record b s).flashB = s.flashB := by rfl

@[simp] theorem caughtUp_flashB (s : State) : (caughtUp s).flashB = s.flashB := by rfl

@[simp] theorem keepReg_flashB (x : RegRec) (s : State) : (keepReg x s).flashB = s.flashB := by rfl

@[simp] theorem timeRecordAt_flashB (sub : TimeSub) (ns : Nat) (s : State) : (timeRecordAt sub ns s).flashB = s.flashB := by rfl

@[simp] theorem timeRecord_flashB (sub : TimeSub) (s : State) : (timeRecord sub s).flashB = s.flashB := by rfl

/-- What a side decides at a record's own time, where the decision leaves it. -/
theorem consumeAt_flashB (st : Stamp) (f : State → State) (s : State) (h : ∀ s, (f s).flashB = s.flashB) :
    (consumeAt st f s).flashB = s.flashB := by
  have e : (f { s with jrn := { s.jrn with last := st } }).flashB = s.flashB := (h _).trans rfl
  exact e

@[simp] theorem pushSet_flashB (w : List RimWrite) (s : State) : (pushSet w s).flashB = s.flashB := by rfl

@[simp] theorem raiseS_flashB (src : Nat) (s : State) : (raiseS src s).flashB = s.flashB := by rfl

@[simp] theorem countS_flashB (g : Reg) (is : List Nat) (lo n : Nat) (s : State) :
    (countS g is lo n s).flashB = s.flashB := by rfl

@[simp] theorem portCountS_flashB (p c n : Nat) (s : State) : (portCountS p c n s).flashB = s.flashB := by rfl

@[simp] theorem putVec_flashB (s : State) (h v : Nat) (x : Vec) : (putVec s h v x).flashB = s.flashB := by rfl

@[simp] theorem msgDue_flashB (h v : Nat) (plain : Bool) (s : State) : (msgDue h v plain s).1.flashB = s.flashB := by
  unfold msgDue
  dsimp only
  (repeat' split) <;> simp

@[simp] theorem trigRaw_flashB (h v : Nat) (plain : Bool) (s : State) : (trigRaw h v plain s).1.flashB = s.flashB := by
  unfold trigRaw
  dsimp only
  (repeat' split) <;> simp

@[simp] theorem setBits_flashB (src : Nat) (s : State) : (setBits src s).1.flashB = s.flashB := by rfl

@[simp] theorem trigHosts_flashB (src : Nat) (l : List Nat) (s : State) : (trigHosts src l s).1.flashB = s.flashB := by
  induction l generalizing s with
  | nil => rfl
  | cons n ns ih =>
    simp only [trigHosts]
    rw [ih]; split <;> simp

@[simp] theorem raiseBlocked_flashB (s : State) : (raiseBlocked s).flashB = s.flashB := by
  simp [raiseBlocked]

@[simp] theorem raise_flashB (src : Nat) (s : State) : (raise src s).flashB = s.flashB := by
  unfold raise
  dsimp only
  (repeat' split) <;> simp

@[simp] theorem trigger_flashB (h v : Nat) (s : State) : (trigger h v s).flashB = s.flashB := by
  unfold trigger
  dsimp only
  (repeat' split) <;> simp

@[simp] theorem offer_flashB (r : RecIn) (s : State) : (offer r s).flashB = s.flashB := by rfl

@[simp] theorem setAlarm_flashB (i : Nat) (s : State) : (setAlarm i s).flashB = s.flashB := by rfl

@[simp] theorem clearAlarm_flashB (i : Nat) (s : State) : (clearAlarm i s).flashB = s.flashB := by rfl

@[simp] theorem bypDrive_flashB (s : State) : (bypDrive s).flashB = s.flashB := by rfl

@[simp] theorem toMode_flashB (m : Nat) (faulty : Bool) (s : State) : (toMode m faulty s).flashB = s.flashB := by
  unfold toMode; split <;> simp

@[simp] theorem followSides_flashB (s : State) : (followSides s).flashB = s.flashB := by
  unfold followSides; split <;> simp

@[simp] theorem putGate_flashB (s : State) (p : Nat) (g : GateP) : (putGate s p g).flashB = s.flashB := by rfl

@[simp] theorem putPort_flashB (s : State) (p : Nat) (x : PortSt) : (putPort s p x).flashB = s.flashB := by rfl

@[simp] theorem adjLost_flashB (p : Nat) (s : State) : (adjLost p s).flashB = s.flashB := by
  unfold adjLost
  dsimp only
  (repeat' split) <;> simp

@[simp] theorem accrueLpi_flashB (p : Nat) (s : State) : (accrueLpi p s).flashB = s.flashB := by
  unfold accrueLpi
  dsimp only
  (repeat' split) <;> simp

@[simp] theorem accrueRxLpi_flashB (p : Nat) (s : State) : (accrueRxLpi p s).flashB = s.flashB := by
  unfold accrueRxLpi
  dsimp only
  (repeat' split) <;> simp

@[simp] theorem accrueAll_flashB (s : State) : (accrueAll s).flashB = s.flashB := by
  simp only [accrueAll]
  (repeat' split) <;> simp [foldl_flashB]

@[simp] theorem leaveLpi_flashB (p : Nat) (s : State) : (leaveLpi p s).flashB = s.flashB := by
  unfold leaveLpi; split <;> simp

@[simp] theorem wake_flashB (p : Nat) (s : State) : (wake p s).flashB = s.flashB := by
  unfold wake; split <;> simp

@[simp] theorem dropLanes_flashB (p : Nat) (s : State) : (dropLanes p s).flashB = s.flashB := by
  dsimp only [dropLanes]; rw [foldl_flashB _ (fun s a => by simp)]; simp

@[simp] theorem dropLink_flashB (p : Nat) (lock : Bool) (s : State) : (dropLink p lock s).flashB = s.flashB := by
  simp [dropLink]

@[simp] theorem settleOff_flashB (p : Nat) (s : State) : (settleOff p s).flashB = s.flashB := by
  unfold settleOff
  dsimp only
  (repeat' split) <;> simp

@[simp] theorem safePorts_flashB (s : State) (on : Bool) : (safePorts s on).flashB = s.flashB := by
  unfold safePorts
  exact foldl_flashB _ (fun s a => by split <;> simp) _ _

@[simp] theorem safeFields_flashB (s : State) (on : Bool) : (safeFields s on).flashB = s.flashB := by rfl

@[simp] theorem updSide_flashB (d : SideId) (f : SideRec → SideRec) (s : State) : (updSide d f s).flashB = s.flashB := by
  simp [updSide]

@[simp] theorem putWork_flashB (g : Nat) (op : LongOp) (s : State) : (putWork g op s).flashB = s.flashB := by
  unfold putWork; split <;> simp

@[simp] theorem testOutcome_flashB (status : Nat) (s : State) : (testOutcome status s).flashB = s.flashB := by
  unfold testOutcome; split <;> simp

@[simp] theorem activateOutcome_flashB (d : SideId) (status : Nat) (s : State) :
    (activateOutcome d status s).flashB = s.flashB := by
  unfold activateOutcome
  (repeat' split) <;> simp

@[simp] theorem goOut_flashB (d : SideId) (s : State) : (goOut d s).flashB = s.flashB := by
  simp [goOut]

@[simp] theorem stopTest_flashB (s : State) : (stopTest s).flashB = s.flashB := by
  unfold stopTest
  dsimp only
  (repeat' split) <;> simp

@[simp] theorem goSafe_flashB (fault : Bool) (s : State) : (goSafe fault s).flashB = s.flashB := by
  simp [goSafe]

@[simp] theorem enterSafe_flashB (cause : Nat) (fault : Bool) (s : State) :
    (enterSafe cause fault s).flashB = s.flashB := by
  unfold enterSafe
  dsimp only
  (repeat' split) <;> simp

@[simp] theorem draw_flashB (s : State) : (draw s).2.flashB = s.flashB := by rfl

@[simp] theorem bumpGen_flashB (p : Packet) (s : State) : (bumpGen p s).flashB = s.flashB := by rfl

@[simp] theorem putAq_flashB (s : State) (h : Nat) (a : AdminHost) : (putAq s h a).flashB = s.flashB := by rfl

@[simp] theorem countStatus_flashB (who : Issuer) (p : Packet) (f : Option Finding) (s : State) :
    (countStatus who p f s).flashB = s.flashB := by
  unfold countStatus
  (repeat' split) <;> simp

@[simp] theorem dueStatus_flashB (who : Issuer) (p : Packet) (status off result : Nat) (gen : W32) (epoch head : BitVec 16) (s : State) :
    (dueStatus who p status off result gen epoch head s).flashB = s.flashB := by rfl

@[simp] theorem reply_flashB (who : Issuer) (p : Packet) (f : Option Finding) (result : Nat) (s : State) :
    (reply who p f result s).flashB = s.flashB := by
  unfold reply
  (repeat' split) <;> simp

@[simp] theorem putChan_flashB (s : State) (c : Nat) (x : ChanSt) : (putChan s c x).flashB = s.flashB := by rfl

@[simp] theorem pchError_flashB (c code : Nat) (dir : Bool) (addr : BitVec 64) (space h : Nat) (s : State) :
    (pchError c code dir addr space h s).flashB = s.flashB := by rfl

@[simp] theorem pchOver_flashB (c code n : Nat) (s : State) : (pchOver c code n s).flashB = s.flashB := by rfl

@[simp] theorem pchDone_flashB (c n : Nat) (s : State) : (pchDone c n s).flashB = s.flashB := by rfl

@[simp] theorem ibChannel_flashB (c : CmdSpec) (who : Issuer) (p : Packet) (ib : ReadEnd) (s : State) :
    (ibChannel c who p ib s).flashB = s.flashB := by
  unfold ibChannel
  (repeat' split) <;> simp

@[simp] theorem noteIb_flashB (c : CmdSpec) (who : Issuer) (p : Packet) (r : Running) (old s : State) :
    (noteIb c who p r old s).flashB = s.flashB := by
  unfold noteIb; split <;> simp

@[simp] theorem noteOther_flashB (c : CmdSpec) (b : Body) (who : Issuer) (p : Packet) (ib : ReadEnd) (kind : IbKind) (s : State) :
    (noteOther c b who p ib kind s).flashB = s.flashB := by
  unfold noteOther
  (repeat' split) <;> simp

/-- Executing a command, where its row's effect leaves it. -/
theorem perform_flashB {b : Body} (h : ∀ w p l s, (actState (b.act w p l s)).flashB = s.flashB)
    (c : CmdSpec) (w : Issuer) (p : Packet) (ib : ReadEnd) (s : State) : (perform c b w p ib s).1.flashB = s.flashB := by
  unfold perform
  dsimp only
  generalize hu : (if (dryRun p && !c.query) = true then s else ibChannel c w p ib s) = u
  have hq : u.flashB = s.flashB := by rw [← hu]; split <;> simp
  split
  · simp [hq]
  · split
    · simp [hq]
    · have h' := h w p ((c.ibuf.bind (fun o => ibBytes p o ib)).getD []) u
      split <;> rename_i e <;> rw [e] at h'
      · dsimp only [actState] at h' ⊢; split <;> simp [h', hq]
      · simpa [actState, hq] using h'

@[simp] theorem touch_flashB (o : Obj) (s : State) : (touch o s).flashB = s.flashB := by rfl

@[simp] theorem raiseAct_flashB (src : Nat) (s : State) : (raiseAct src s).flashB = s.flashB := by
  unfold raiseAct; split <;> simp

@[simp] theorem putSq_flashB (s : State) (h q : Nat) (x : Sq) : (putSq s h q x).flashB = s.flashB := by rfl

@[simp] theorem putCq_flashB (s : State) (h c : Nat) (x : Cq) : (putCq s h c x).flashB = s.flashB := by rfl

@[simp] theorem putPage_flashB (s : State) (h q : Nat) (x : Sq) : (putPage s h q x).flashB = s.flashB := by
  unfold putPage; split <;> simp

@[simp] theorem putCqPage_flashB (s : State) (h c : Nat) (x : Cq) : (putCqPage s h c x).flashB = s.flashB := by
  unfold putCqPage; split <;> simp

@[simp] theorem keepPage_flashB (h q : Nat) (s : State) : (keepPage h q s).flashB = s.flashB := by
  unfold keepPage; split <;> simp

@[simp] theorem keepCqPage_flashB (h c : Nat) (s : State) : (keepCqPage h c s).flashB = s.flashB := by
  unfold keepCqPage; split <;> simp

@[simp] theorem adminPlace_flashB (h : Nat) (s : State) : (adminPlace h s).flashB = s.flashB := by
  unfold adminPlace
  (repeat' split) <;> simp

@[simp] theorem consumeAdmin_flashB (h : Host) (s : State) : (consumeAdmin h s).flashB = s.flashB := by
  simp [consumeAdmin]

@[simp] theorem resume_flashB (s t : State) : (resume s t).flashB = t.flashB := by rfl

/-- A row of the opcode tables, where its effect leaves it. -/
theorem runAdmin_flashB {b : Body} (h : ∀ w p l s, (actState (b.act w p l s)).flashB = s.flashB)
    (c : CmdSpec) (n : Host) (p : Packet) (ib : ReadEnd) (s : State) : (runAdmin c b n p ib s).flashB = s.flashB := by
  unfold runAdmin
  dsimp only
  split
  · rw [resume_flashB, perform_flashB h]; simp
  · rfl

@[simp] theorem endLong_flashB (g : Nat) (status result : Nat) (s : State) :
    (endLong g status result s).flashB = s.flashB := by
  unfold endLong
  (repeat' split) <;> simp

theorem bodyCreateCq_flashB (w : Issuer) (p : Packet) (l : List Byte) (s : State) :
    (actState (bodyCreateCq.act w p l s)).flashB = s.flashB := by
  dsimp only [bodyCreateCq, actState]; simp

theorem bodyCreateSq_flashB (w : Issuer) (p : Packet) (l : List Byte) (s : State) :
    (actState (bodyCreateSq.act w p l s)).flashB = s.flashB := by
  dsimp only [bodyCreateSq, actState]; simp

@[simp] theorem dropSq_flashB (h q : Nat) (s : State) : (dropSq h q s).flashB = s.flashB := by
  unfold dropSq; split <;> simp

@[simp] theorem dropCq_flashB (h c : Nat) (s : State) : (dropCq h c s).flashB = s.flashB := by
  unfold dropCq; split <;> simp

theorem bodyDeleteSq_flashB (w : Issuer) (p : Packet) (l : List Byte) (s : State) :
    (actState (bodyDeleteSq.act w p l s)).flashB = s.flashB := by
  dsimp only [bodyDeleteSq, actState]; simp

theorem bodyDeleteCq_flashB (w : Issuer) (p : Packet) (l : List Byte) (s : State) :
    (actState (bodyDeleteCq.act w p l s)).flashB = s.flashB := by
  dsimp only [bodyDeleteCq, actState]; simp

theorem bodySetWrr_flashB (w : Issuer) (p : Packet) (l : List Byte) (s : State) :
    (actState (bodySetWrr.act w p l s)).flashB = s.flashB := by
  dsimp only [bodySetWrr]
  (repeat' split) <;> simp [actState]

theorem bodySetQuota_flashB (w : Issuer) (p : Packet) (l : List Byte) (s : State) :
    (actState (bodySetQuota.act w p l s)).flashB = s.flashB := by rfl

@[simp] theorem rimSqPage_flashB (h q : Nat) (on : Bool) (s : State) : (rimSqPage h q on s).flashB = s.flashB := by
  unfold rimSqPage
  (repeat' split) <;> simp

@[simp] theorem rimCqPage_flashB (h c : Nat) (on : Bool) (s : State) : (rimCqPage h c on s).flashB = s.flashB := by
  unfold rimCqPage
  (repeat' split) <;> simp

@[simp] theorem withOwn_flashB (who : Issuer) (p : Packet) (s : State) : (withOwn who p s).flashB = s.flashB := by
  unfold withOwn; split <;> simp

theorem bodyQueQuery_flashB (w : Issuer) (p : Packet) (l : List Byte) (s : State) :
    (actState (bodyQueQuery.act w p l s)).flashB = s.flashB := by rfl

@[simp] theorem settleGens_flashB (s : State) : (settleGens s).flashB = s.flashB := by rfl

theorem bodyIdLoad_flashB (w : Issuer) (p : Packet) (l : List Byte) (s : State) :
    (actState (bodyIdLoad.act w p l s)).flashB = s.flashB := by rfl

theorem bodyMeterSet_flashB (w : Issuer) (p : Packet) (l : List Byte) (s : State) :
    (actState (bodyMeterSet.act w p l s)).flashB = s.flashB := by rfl

theorem bodySeqgenSet_flashB (w : Issuer) (p : Packet) (l : List Byte) (s : State) :
    (actState (bodySeqgenSet.act w p l s)).flashB = s.flashB := by rfl

@[simp] theorem takeSeq_flashB (flow : Nat) (s : State) : (takeSeq flow s).1.flashB = s.flashB := by
  unfold takeSeq
  dsimp only
  (repeat' split) <;> simp

@[simp] theorem putRec_flashB (s : State) (r : Nat) (x : SeqRec) : (putRec s r x).flashB = s.flashB := by rfl

@[simp] theorem frerReset_flashB (r : Nat) (s : State) : (frerReset r s).flashB = s.flashB := by rfl

@[simp] theorem recover_flashB (r : Nat) (f : List Byte) (el : Nat) (s : State) :
    (recover r f el s).1.flashB = s.flashB := by
  unfold recover
  dsimp only
  (repeat' split) <;> simp

theorem bodySeqrecSet_flashB (w : Issuer) (p : Packet) (l : List Byte) (s : State) :
    (actState (bodySeqrecSet.act w p l s)).flashB = s.flashB := by rfl

@[simp] theorem block_flashB (h : Nat) (b : BitVec 2) (s : State) : (block h b s).flashB = s.flashB := by rfl

@[simp] theorem police_flashB (e : BitVec 512) (r : RxSum) (s : State) : (police e r s).1.flashB = s.flashB := by
  unfold police
  dsimp only
  (repeat' split) <;> simp

@[simp] theorem streamPath_flashB (e : BitVec 512) (r : RxSum) (s : State) : (streamPath e r s).1.flashB = s.flashB := by
  unfold streamPath
  dsimp only
  (repeat' split) <;> simp

theorem bodyStrmQuery_flashB (w : Issuer) (p : Packet) (l : List Byte) (s : State) :
    (actState (bodyStrmQuery.act w p l s)).flashB = s.flashB := by rfl

@[simp] theorem cutWire_flashB (p : Nat) (w : OnWire) (d : Nat) (s : State) : (cutWire p w d s).flashB = s.flashB := by rfl

@[simp] theorem assertHold_flashB (p : Nat) (s : State) : (assertHold p s).flashB = s.flashB := by
  unfold assertHold
  dsimp only
  (repeat' split) <;> simp

@[simp] theorem closeFrames_flashB (p : Nat) (new : BitVec 8) (el : Nat) (s : State) :
    (closeFrames p new el s).flashB = s.flashB := by
  unfold closeFrames
  (repeat' split) <;> simp

@[simp] theorem startEntry_flashB (p i : Nat) (el : Nat) (first : Bool) (s : State) :
    (startEntry p i el first s).flashB = s.flashB := by
  unfold startEntry
  dsimp only
  (repeat' split) <;> simp

@[simp] theorem midnight_flashB (p net el : Nat) (first : Bool) (s : State) :
    (midnight p net el first s).flashB = s.flashB := by
  simp [midnight]

@[simp] theorem toMidnight_flashB (p el e m : Nat) (first : Bool) (held : BitVec 8) (s : State) :
    (toMidnight p el e m first held s).flashB = s.flashB := by
  unfold toMidnight; split <;> simp

@[simp] theorem refill_flashB (p t : Nat) (s : State) : (refill p t s).flashB = s.flashB := by
  unfold refill
  dsimp only
  (repeat' split) <;> simp

@[simp] theorem dropHead_flashB (p t : Nat) (relay : Bool) (s : State) : (dropHead p t relay s).flashB = s.flashB := by
  unfold dropHead; split <;> simp

@[simp] theorem segmentStarts_flashB (p t : Nat) (x : Staged) (s : State) : (segmentStarts p t x s).flashB = s.flashB := by
  unfold segmentStarts; split <;> simp

@[simp] theorem startFrame_flashB (p t : Nat) (x : Staged) (relay : Bool) (at_ : Nat) (s : State) :
    (startFrame p t x relay at_ s).flashB = s.flashB := by
  simp [startFrame]

@[simp] theorem rimTape_flashB (p : Nat) (t : List TapeEntry) (start : Nat) (s : State) :
    (rimTape p t start s).flashB = s.flashB := by rfl

@[simp] theorem rimTapeCancel_flashB (p : Nat) (s : State) : (rimTapeCancel p s).flashB = s.flashB := by rfl

@[simp] theorem applyKinds_flashB (p : Nat) (s : State) : (applyKinds p s).flashB = s.flashB := by
  unfold applyKinds
  dsimp only
  (repeat' split) <;> simp

@[simp] theorem takeTx_flashB (p : Nat) (s : State) : (takeTx p s).flashB = s.flashB := by
  unfold takeTx
  dsimp only
  (repeat' split) <;> simp

@[simp] theorem rimGateClass_flashB (p t : Nat) (pre : Bool) (us : Nat) (s : State) :
    (rimGateClass p t pre us s).flashB = s.flashB := by
  simp [rimGateClass]

@[simp] theorem rimGateClose_flashB (p : Nat) (fit : Bool) (s : State) : (rimGateClose p fit s).flashB = s.flashB := by rfl

theorem bodyTapeLoad_flashB (w : Issuer) (p : Packet) (l : List Byte) (s : State) :
    (actState (bodyTapeLoad.act w p l s)).flashB = s.flashB := by rfl

theorem bodyClassSet_flashB (w : Issuer) (p : Packet) (l : List Byte) (s : State) :
    (actState (bodyClassSet.act w p l s)).flashB = s.flashB := by rfl

theorem bodyCloseMode_flashB (w : Issuer) (p : Packet) (l : List Byte) (s : State) :
    (actState (bodyCloseMode.act w p l s)).flashB = s.flashB := by rfl

theorem bodyTapeCancel_flashB (w : Issuer) (p : Packet) (l : List Byte) (s : State) :
    (actState (bodyTapeCancel.act w p l s)).flashB = s.flashB := by rfl

theorem bodyGateQuery_flashB (w : Issuer) (p : Packet) (l : List Byte) (s : State) :
    (actState (bodyGateQuery.act w p l s)).flashB = s.flashB := by rfl

@[simp] theorem putOp_flashB (s : State) (t : Nat) (o : Op) : (putOp s t o).flashB = s.flashB := by rfl

@[simp] theorem freeLater_flashB (use n : Nat) (s : State) : (freeLater use n s).flashB = s.flashB := by
  unfold freeLater; split <;> simp

@[simp] theorem freeNow_flashB (use n : Nat) (s : State) : (freeNow use n s).flashB = s.flashB := by
  unfold freeNow
  (repeat' split) <;> simp

@[simp] theorem freeCommitted_flashB (s : State) : (freeCommitted s).flashB = s.flashB := by
  simp [freeCommitted, foldl_flashB]

@[simp] theorem completeOp_flashB (t status : Nat) (flags : Byte) (result : Nat) (ts : Ts) (s : State) :
    (completeOp t status flags result ts s).flashB = s.flashB := by
  unfold completeOp
  dsimp only
  (repeat' split) <;> simp

@[simp] theorem settleTx_flashB (l : List Nat) (s : State) : (settleTx l s).flashB = s.flashB := by
  fun_induction settleTx l s <;> simp_all

@[simp] theorem finishTx_flashB (t : Nat) (s : State) : (finishTx t s).flashB = s.flashB := by
  unfold finishTx
  (repeat' split) <;> simp

@[simp] theorem completeRx_flashB (t code : Nat) (o : Op) (s : State) : (completeRx t code o s).flashB = s.flashB := by
  unfold completeRx; split <;> simp

@[simp] theorem settleRx_flashB (l : List Nat) (s : State) : (settleRx l s).flashB = s.flashB := by
  fun_induction settleRx l s <;> simp_all

@[simp] theorem finishRx_flashB (t code : Nat) (s : State) : (finishRx t code s).flashB = s.flashB := by
  unfold finishRx; split <;> simp

@[simp] theorem failOp_flashB (t status : Nat) (s : State) : (failOp t status s).flashB = s.flashB := by
  unfold failOp
  (repeat' split) <;> simp

@[simp] theorem countExpired_flashB (p : Nat) (s : State) : (countExpired p s).flashB = s.flashB := by rfl

@[simp] theorem putTxts_flashB (s : State) (p : Nat) (q : TxTsQ) : (putTxts s p q).flashB = s.flashB := by rfl

@[simp] theorem pushTxts_flashB (p : Nat) (ts : Ts) (ref : W32) (s : State) : (pushTxts p ts ref s).flashB = s.flashB := by
  unfold pushTxts
  dsimp only
  (repeat' split) <;> simp

@[simp] theorem popTxts_flashB (p : Nat) (s : State) : (popTxts p s).1.flashB = s.flashB := by
  unfold popTxts
  dsimp only
  (repeat' split) <;> simp

@[simp] theorem putFlow_flashB (s : State) (f : Nat) (x : FlowQ) : (putFlow s f x).flashB = s.flashB := by rfl

@[simp] theorem putVt_flashB (s : State) (p t v : Nat) : (putVt s p t v).flashB = s.flashB := by rfl

@[simp] theorem becomeHead_flashB (f : Nat) (wasEmpty : Bool) (s : State) :
    (becomeHead f wasEmpty s).flashB = s.flashB := by
  unfold becomeHead
  dsimp only
  (repeat' split) <;> simp

@[simp] theorem enqueue_flashB (f : Nat) (e : Elem) (s : State) : (enqueue f e s).flashB = s.flashB := by
  unfold enqueue
  dsimp only
  (repeat' split) <;> simp

@[simp] theorem dequeue_flashB (f : Nat) (s : State) : (dequeue f s).flashB = s.flashB := by
  simp [dequeue]

@[simp] theorem enterFlow_flashB (f : Nat) (kind : ElemKind) (tag : Option Nat) (bytes : List Byte) (s : State) :
    (enterFlow f kind tag bytes s).flashB = s.flashB := by
  unfold enterFlow
  dsimp only
  (repeat' split) <;> simp [foldl_flashB]

@[simp] theorem measure_flashB (f p t d : Nat) (s : State) : (measure f p t d s).flashB = s.flashB := by
  unfold measure
  refine foldl_flashB _ (fun s a => ?_) _ _
  dsimp only; (repeat' split) <;> simp

@[simp] theorem stage_flashB (p t : Nat) (x : Staged) (s : State) : (stage p t x s).flashB = s.flashB := by rfl

@[simp] theorem charge_flashB (f p t lc tag : Nat) (s : State) : (charge f p t lc tag s).flashB = s.flashB := by rfl

@[simp] theorem countWaiting_flashB (p t : Nat) (s : State) : (countWaiting p t s).flashB = s.flashB := by
  unfold countWaiting
  refine foldl_flashB _ (fun s a => ?_) _ _
  (repeat' split) <;> simp [countWaiting.portCountWaited]

@[simp] theorem releaseChan_flashB (c : Nat) (s : State) : (releaseChan c s).flashB = s.flashB := by rfl

@[simp] theorem endPrefetch_flashB (tag : Nat) (s : State) : (endPrefetch tag s).flashB = s.flashB := by
  unfold endPrefetch
  (repeat' split) <;> simp

@[simp] theorem dropStream_flashB (f tag : Nat) (s : State) : (dropStream f tag s).flashB = s.flashB := by
  unfold dropStream
  dsimp only
  (repeat' split) <;> simp

@[simp] theorem dropFlow_flashB (ts : List Nat) (s : State) (f : Nat) : (dropFlow ts s f).flashB = s.flashB := by
  unfold dropFlow
  dsimp only
  (repeat' split) <;> simp

@[simp] theorem putPtp_flashB (p : Nat) (x : Staged) (s : State) : (putPtp p x s).flashB = s.flashB := by rfl

@[simp] theorem flushPtp_flashB (l : List (Nat × Staged)) (s : State) : (flushPtp l s).flashB = s.flashB := by
  fun_induction flushPtp l s <;> simp_all

@[simp] theorem settleDuePtp_flashB (s : State) : (settleDuePtp s).flashB = s.flashB := by
  unfold settleDuePtp; split <;> simp

@[simp] theorem stagePtp_flashB (p ty slot seq : Nat) (cap : Option Ts) (s : State) :
    (stagePtp p ty slot seq cap s).flashB = s.flashB := by
  simp only [stagePtp]; split <;> simp

@[simp] theorem putDelay_flashB (s : State) (p k : Nat) (x : PtpDelay) : (putDelay s p k x).flashB = s.flashB := by rfl

@[simp] theorem noteReq_flashB (p k seq : Nat) (ts : Ts) (s : State) : (noteReq p k seq ts s).flashB = s.flashB := by rfl

@[simp] theorem ptpFollow_flashB (p : Nat) (x : Staged) (ts : Ts) (s : State) : (ptpFollow p x ts s).flashB = s.flashB := by
  unfold ptpFollow
  dsimp only
  (repeat' split) <;> simp

@[simp] theorem consumeDepart_flashB (p : Nat) (x : Staged) (left : Bool) (ts : Ts) (s : State) :
    (consumeDepart p x left ts s).flashB = s.flashB := by
  unfold consumeDepart
  dsimp only
  (repeat' split) <;> simp

@[simp] theorem consumeDeparts_flashB (s : State) : (consumeDeparts s).flashB = s.flashB := by
  unfold consumeDeparts
  split
  · dsimp only
    rw [settleDuePtp_flashB, foldl_flashB _ (fun s a => consumeAt_flashB _ _ _ (fun s => by simp))]
  · rfl

@[simp] theorem reportDepart_flashB (p t : Nat) (x : Staged) (left : Bool) (ts : Ts) (s : State) :
    (reportDepart p t x left ts s).flashB = s.flashB := by
  unfold reportDepart; split <;> simp

@[simp] theorem countTx_flashB (p : Nat) (w : OnWire) (s : State) : (countTx p w s).flashB = s.flashB := by
  unfold countTx
  (repeat' split) <;> simp

@[simp] theorem endWire_flashB (p : Nat) (w : OnWire) (s : State) : (endWire p w s).flashB = s.flashB := by
  unfold endWire
  (repeat' split) <;> simp

@[simp] theorem endExpired_flashB (p : Nat) (e : Elem) (s : State) : (endExpired p e s).flashB = s.flashB := by
  unfold endExpired
  dsimp only
  (repeat' split) <;> simp

@[simp] theorem expireHead_flashB (f : Nat) (s : State) : (expireHead f s).flashB = s.flashB := by
  unfold expireHead
  dsimp only
  (repeat' split) <;> simp

@[simp] theorem expireAt_flashB (f : Nat) (before : List Elem) (e : Elem) (behind : List Elem) (s : State) :
    (expireAt f before e behind s).flashB = s.flashB := by
  unfold expireAt; split <;> simp

theorem bodyFlowSet_flashB (w : Issuer) (p : Packet) (l : List Byte) (s : State) :
    (actState (bodyFlowSet.act w p l s)).flashB = s.flashB := by rfl

theorem bodyFlowDisable_flashB (w : Issuer) (p : Packet) (l : List Byte) (s : State) :
    (actState (bodyFlowDisable.act w p l s)).flashB = s.flashB := by rfl

theorem bodySchQuery_flashB (w : Issuer) (p : Packet) (l : List Byte) (s : State) :
    (actState (bodySchQuery.act w p l s)).flashB = s.flashB := by rfl

@[simp] theorem sendLldp_flashB (p : Nat) (s : State) : (sendLldp p s).flashB = s.flashB := by
  unfold sendLldp; split <;> simp

@[simp] theorem abortTx_flashB (p : Nat) (s : State) : (abortTx p s).flashB = s.flashB := by
  unfold abortTx
  dsimp only
  (repeat' split) <;> simp

@[simp] theorem rxPop_flashB (p : Nat) (s : State) : (rxPop p s).flashB = s.flashB := by
  unfold rxPop
  dsimp only
  (repeat' split) <;> simp

@[simp] theorem dropRx_flashB (p : Nat) (s : State) : (dropRx p s).flashB = s.flashB := by
  unfold dropRx; split <;> simp

@[simp] theorem abortRx_flashB (p : Nat) (s : State) : (abortRx p s).flashB = s.flashB := by
  simp [abortRx]

@[simp] theorem laneDown_flashB (p : Nat) (lock : Bool) (s : State) : (laneDown p lock s).flashB = s.flashB := by
  unfold laneDown; split <;> simp

@[simp] theorem linkLost_flashB (p : Nat) (lock : Bool) (s : State) : (linkLost p lock s).flashB = s.flashB := by
  unfold linkLost
  dsimp only
  (repeat' split) <;> simp

/-- A reservation that is made leaves it. -/
theorem reserve_flashB {p n : Nat} {s t : State} (e : reserve p n s = some t) : t.flashB = s.flashB := by
  unfold reserve at e
  simp only at e
  split at e
  · cases e; simp
  · cases e

@[simp] theorem rimPortSet_flashB (p speed iface maxlen : Nat) (bad eee : Bool) (s : State) :
    (rimPortSet p speed iface maxlen bad eee s).flashB = s.flashB := by
  unfold rimPortSet
  dsimp only
  (repeat' split) <;> simp

@[simp] theorem noteKeep_flashB (p : Nat) (s : State) : (noteKeep p s).flashB = s.flashB := by
  unfold noteKeep
  dsimp only
  (repeat' split) <;> simp

@[simp] theorem noteKeeps_flashB (s : State) : (noteKeeps s).flashB = s.flashB := by
  unfold noteKeeps
  exact foldl_flashB _ (fun s a => by simp) _ _

@[simp] theorem asSeen_flashB (p : Nat) (s : State) : (asSeen p s).flashB = s.flashB := by
  unfold asSeen; split <;> simp

@[simp] theorem rimPortEnable_flashB (p : Nat) (en : Bool) (s : State) : (rimPortEnable p en s).flashB = s.flashB := by
  simp [rimPortEnable]

@[simp] theorem rimPortFilter_flashB (p i : Nat) (valid : Bool) (mac : BitVec 48) (s : State) :
    (rimPortFilter p i valid mac s).flashB = s.flashB := by
  simp [rimPortFilter]

@[simp] theorem rimPortPeer_flashB (p : Nat) (tw : Option Nat) (addFrag : BitVec 2) (s : State) :
    (rimPortPeer p tw addFrag s).flashB = s.flashB := by
  unfold rimPortPeer; split <;> simp

@[simp] theorem rimPortRecal_flashB (p : Nat) (s : State) : (rimPortRecal p s).flashB = s.flashB := by
  simp [rimPortRecal]

theorem bodyPortSet_flashB (w : Issuer) (p : Packet) (l : List Byte) (s : State) :
    (actState (bodyPortSet.act w p l s)).flashB = s.flashB := by rfl

theorem bodyPortEnable_flashB (w : Issuer) (p : Packet) (l : List Byte) (s : State) :
    (actState (bodyPortEnable.act w p l s)).flashB = s.flashB := by
  dsimp only [bodyPortEnable]
  (repeat' split) <;> simp [actState]

theorem bodyPortFilterSet_flashB (w : Issuer) (p : Packet) (l : List Byte) (s : State) :
    (actState (bodyPortFilterSet.act w p l s)).flashB = s.flashB := by rfl

theorem bodyPortEeeSet_flashB (w : Issuer) (p : Packet) (l : List Byte) (s : State) :
    (actState (bodyPortEeeSet.act w p l s)).flashB = s.flashB := by rfl

theorem bodyPortRecal_flashB (w : Issuer) (p : Packet) (l : List Byte) (s : State) :
    (actState (bodyPortRecal.act w p l s)).flashB = s.flashB := by rfl

theorem bodyPortQuery_flashB (w : Issuer) (p : Packet) (l : List Byte) (s : State) :
    (actState (bodyPortQuery.act w p l s)).flashB = s.flashB := by rfl

@[simp] theorem writeDb_flashB (h q : Nat) (aligned : Bool) (v : W32) (s : State) :
    (writeDb h q aligned v s).flashB = s.flashB := by
  unfold writeDb
  dsimp only
  (repeat' split) <;> simp

@[simp] theorem pushError_flashB (h q : Nat) (x : Sq) (s : State) : (pushError h q x s).flashB = s.flashB := by
  simp [pushError]

@[simp] theorem pushSlots_flashB (h q : Nat) (l : List (List Byte)) (s : State) :
    (pushSlots h q l s).flashB = s.flashB := by
  fun_induction pushSlots h q l s <;> simp_all

@[simp] theorem writePush_flashB (h q off : Nat) (bytes : List Byte) (s : State) :
    (writePush h q off bytes s).flashB = s.flashB := by
  unfold writePush
  dsimp only
  (repeat' split) <;> simp

@[simp] theorem startTurn_flashB (h q slots : Nat) (x : Sq) (s : State) : (startTurn h q slots x s).flashB = s.flashB := by rfl

@[simp] theorem noteTurn_flashB (h : Nat) (admin : Bool) (s : State) : (noteTurn h admin s).flashB = s.flashB := by rfl

@[simp] theorem takeEntries_flashB (h q : Nat) (x : Sq) (first : Idx) (l : List Taken) (stalled : Bool) (turn : Option FetchTurn) (s : State) :
    (takeEntries h q x first l stalled turn s).flashB = s.flashB := by
  unfold takeEntries
  simp only [putSq_flashB]
  exact foldl_flashB _ (fun s a => by simp) _ _

@[simp] theorem noteFault_flashB (h q : Nat) (first : Idx) (n : Nat) (s : State) :
    (noteFault h q first n s).flashB = s.flashB := by rfl

@[simp] theorem dropTurns_flashB (s : State) : (dropTurns s).flashB = s.flashB := by rfl

@[simp] theorem markStaged_flashB (t : Nat) (s : State) : (markStaged t s).flashB = s.flashB := by rfl

@[simp] theorem adminFault_flashB (h : Nat) (e : FetchErr) (s : State) : (adminFault h e s).flashB = s.flashB := by rfl

@[simp] theorem takePlace_flashB (h c : Nat) (s : State) : (takePlace h c s).flashB = s.flashB := by
  unfold takePlace
  dsimp only
  (repeat' split) <;> simp

@[simp] theorem takeTag_flashB (h q t : Nat) (x : Sq) (es : List Taken) (o : Op) (s : State) :
    (takeTag h q t x es o s).flashB = s.flashB := by
  simp [takeTag]

/-- The rows of a submission entry, where what the row runs leaves it. -/
theorem startNow_flashB (h : Host) (q : QId) (t : OpTag) (mine : List Byte → Bool) (kind : OpKind)
    (extra : State → List Byte → List Finding) (ready : State → Sq → Bool) (run : Nat → Taken → State → State) (s : State)
    (hr : ∀ t e s, (run t e s).flashB = s.flashB) :
    (startNow h q t mine kind extra ready run s).flashB = s.flashB := by
  unfold startNow
  dsimp only
  (repeat' split) <;> simp [hr]

@[simp] theorem asOf_flashB (e : Taken) (s : State) : (asOf e s).flashB = s.flashB := by
  unfold asOf; split <;> simp

@[simp] theorem goOn_flashB (e : Taken) (s t : State) : (goOn e s t).flashB = t.flashB := by
  unfold goOn; split <;> simp

/-- The same at the record's own times. -/
theorem startRow_flashB (h : Host) (q : QId) (t : OpTag) (mine : List Byte → Bool) (kind : OpKind)
    (extra : State → List Byte → List Finding) (ready : State → Sq → Bool) (run : Nat → Taken → State → State) (s : State)
    (hr : ∀ t e s, (run t e s).flashB = s.flashB) :
    (startRow h q t mine kind extra ready run s).flashB = s.flashB := by
  unfold startRow
  split
  · rfl
  · rw [goOn_flashB, startNow_flashB _ _ _ _ _ _ _ _ _ hr, asOf_flashB]

@[simp] theorem updOp_flashB (t : Nat) (f : Op → Op) (s : State) : (updOp t f s).flashB = s.flashB := by
  unfold updOp; split <;> simp

@[simp] theorem endFence_flashB (h q t n : Nat) (s : State) : (endFence h q t n s).flashB = s.flashB := by
  unfold endFence; split <;> simp

@[simp] theorem laneStage_flashB (f p tc t : Nat) (b : List Byte) (s : State) :
    (laneStage f p tc t b s).flashB = s.flashB := by
  unfold laneStage
  dsimp only
  (repeat' split) <;> simp [foldl_flashB]

@[simp] theorem noteWritten_flashB (i : CqItem) (s : State) : (noteWritten i s).flashB = s.flashB := by
  unfold noteWritten
  (repeat' split) <;> simp

@[simp] theorem writeSlot_flashB (h c : Nat) (x : Cq) (i : CqItem) (s : State) :
    (writeSlot h c x i s).flashB = s.flashB := by
  unfold writeSlot; split <;> simp

@[simp] theorem writeItem_flashB (h c : Nat) (i : CqItem) (s : State) : (writeItem h c i s).flashB = s.flashB := by
  unfold writeItem
  (repeat' split) <;> simp

@[simp] theorem settleAq_flashB (h : Nat) (s : State) : (settleAq h s).flashB = s.flashB := by
  unfold settleAq
  dsimp only
  (repeat' split) <;> simp

@[simp] theorem putStatus_flashB (h : Nat) (x : DueStatus) (rest : List DueStatus) (s : State) :
    (putStatus h x rest s).flashB = s.flashB := by
  simp [putStatus]

@[simp] theorem freeItems_flashB (h c : Nat) (l : List CqItem) (s : State) : (freeItems h c l s).flashB = s.flashB := by
  unfold freeItems
  dsimp only
  (repeat' split) <;> simp

@[simp] theorem writeCi_flashB (h q : Nat) (aligned : Bool) (v : W32) (s : State) :
    (writeCi h q aligned v s).flashB = s.flashB := by
  unfold writeCi
  dsimp only
  (repeat' split) <;> simp

@[simp] theorem writePage_flashB (h a : Nat) (enables : BitVec 4) (v : W32) (s : State) :
    (writePage h a enables v s).flashB = s.flashB := by
  unfold writePage
  dsimp only
  (repeat' split) <;> simp

@[simp] theorem rewriteAll_flashB (s : State) : (rewriteAll s).flashB = s.flashB := by
  unfold rewriteAll
  refine foldl_flashB _ (fun s a => ?_) _ _
  dsimp only
  split <;> simp

@[simp] theorem freeBytes_flashB (l : Nat) (s : State) : (freeBytes l s).2.flashB = s.flashB := by
  induction l generalizing s <;> simp_all [freeBytes]

@[simp] theorem writeBuf_flashB (c h dst : Nat) (last : Bool) (s : State) :
    (writeBuf c h dst last s).flashB = s.flashB := by rfl

@[simp] theorem issueRead_flashB (c : Nat) (s : State) : (issueRead c s).flashB = s.flashB := by
  unfold issueRead
  dsimp only
  (repeat' split) <;> simp

@[simp] theorem dmaTurns_flashB (l : Nat) (s : State) : (dmaTurns l s).flashB = s.flashB := by
  fun_induction dmaTurns l s <;> simp_all

@[simp] theorem dmaGo_flashB (s : State) : (dmaGo s).flashB = s.flashB := by
  unfold dmaGo; split <;> simp

@[simp] theorem streamData_flashB (d : Desc) (offs : List Nat) (l : List Byte) (s : State) :
    (streamData d offs l s).2.flashB = s.flashB := by
  unfold streamData; split <;> simp

@[simp] theorem takeXfer_flashB (c : Nat) (x : ChanSt) (l : List Byte) (s : State) :
    (takeXfer c x l s).flashB = s.flashB := by
  simp [takeXfer]

@[simp] theorem takeCopy_flashB (c : Nat) (x : ChanSt) (o : Op) (l : List Byte) (s : State) :
    (takeCopy c x o l s).flashB = s.flashB := by
  unfold takeCopy
  dsimp only
  (repeat' split) <;> simp

@[simp] theorem takeRxWrite_flashB (c : Nat) (x : ChanSt) (o : Op) (l : List Byte) (s : State) :
    (takeRxWrite c x o l s).flashB = s.flashB := by rfl

@[simp] theorem noteRead_flashB (r : ReadReq) (s : State) : (noteRead r s).flashB = s.flashB := by
  unfold noteRead; split <;> simp

@[simp] theorem takeRead_flashB (c : Nat) (s : State) : (takeRead c s).flashB = s.flashB := by
  simp only [takeRead]
  (repeat' split) <;> simp

@[simp] theorem arrive_flashB (c : Nat) (bytes : List Byte) (s : State) : (arrive c bytes s).flashB = s.flashB := by
  unfold arrive
  dsimp only
  (repeat' split) <;> simp

@[simp] theorem poolError_flashB (c code : Nat) (addr : BitVec 64) (s : State) :
    (poolError c code addr s).flashB = s.flashB := by
  unfold poolError
  dsimp only
  (repeat' split) <;> simp

@[simp] theorem poolErrors_flashB (c code : Nat) (addr : BitVec 64) (also : Option PoolFault) (s : State) :
    (poolErrors c code addr also s).flashB = s.flashB := by
  unfold poolErrors
  (repeat' split) <;> simp

@[simp] theorem freeChan_flashB (c : Nat) (s : State) : (freeChan c s).flashB = s.flashB := by rfl

@[simp] theorem fwStart_flashB (c : Nat) (s : State) : (fwStart c s).flashB = s.flashB := by rfl

@[simp] theorem fwNext_flashB (c : Nat) (more : Bool) (s : State) : (fwNext c more s).flashB = s.flashB := by
  unfold fwNext; split <;> simp

@[simp] theorem fwEnd_flashB (c n : Nat) (more : Bool) (s : State) : (fwEnd c n more s).flashB = s.flashB := by
  simp [fwEnd]

@[simp] theorem withdrawn_flashB (c residue : Nat) (s : State) : (withdrawn c residue s).flashB = s.flashB := by rfl

@[simp] theorem resumeChan_flashB (c : Nat) (s : State) : (resumeChan c s).flashB = s.flashB := by
  unfold resumeChan
  dsimp only
  (repeat' split) <;> simp

@[simp] theorem poolRun_flashB (s : State) : (poolRun s).flashB = s.flashB := by
  simp only [poolRun, dmaGo_flashB]
  rw [foldl_flashB _ (fun s a => by split <;> simp)]

@[simp] theorem poolResume_flashB (s : State) : (poolResume s).flashB = s.flashB := by
  unfold poolResume; split <;> simp

@[simp] theorem poolAbort_flashB (s : State) : (poolAbort s).flashB = s.flashB := by
  simp only [poolAbort]; split
  · rw [poolRun_flashB, foldl_flashB _ (fun s a => by split <;> simp)]
  · rfl

@[simp] theorem dropReads_flashB (s : State) : (dropReads s).flashB = s.flashB := by rfl

@[simp] theorem endTxCopy_flashB (t : Nat) (bytes : List Byte) (o : Op) (s : State) :
    (endTxCopy t bytes o s).flashB = s.flashB := by
  unfold endTxCopy
  (repeat' split) <;> simp

@[simp] theorem endOp_flashB (t : Nat) (x : ChanSt) (s : State) : (endOp t x s).flashB = s.flashB := by
  unfold endOp
  dsimp only
  (repeat' split) <;> simp

@[simp] theorem putFld_flashB (s : State) (n : Nat) (x : FldP) : (putFld s n x).flashB = s.flashB := by rfl

@[simp] theorem fldCount_flashB (n c k : Nat) (s : State) : (fldCount n c k s).flashB = s.flashB := by rfl

theorem bodyFldPortSet_flashB (w : Issuer) (p : Packet) (l : List Byte) (s : State) :
    (actState (bodyFldPortSet.act w p l s)).flashB = s.flashB := by rfl

theorem bodyFldQuery_flashB (w : Issuer) (p : Packet) (l : List Byte) (s : State) :
    (actState (bodyFldQuery.act w p l s)).flashB = s.flashB := by rfl

@[simp] theorem startField_flashB (n : Nat) (s : State) : (startField n s).flashB = s.flashB := by
  unfold startField
  dsimp only
  (repeat' split) <;> simp

@[simp] theorem leaveBus_flashB (n : Nat) (s : State) : (leaveBus n s).flashB = s.flashB := by
  unfold leaveBus
  dsimp only
  (repeat' split) <;> simp

@[simp] theorem failDirect_flashB (n : Nat) (s : State) : (failDirect n s).flashB = s.flashB := by
  unfold failDirect
  exact foldl_flashB _ (fun s a => by split <;> simp) _ _

@[simp] theorem applyField_flashB (n : Nat) (s : State) : (applyField n s).flashB = s.flashB := by
  unfold applyField
  dsimp only
  (repeat' split) <;> simp

@[simp] theorem fieldsOff_flashB (s : State) : (fieldsOff s).flashB = s.flashB := by
  unfold fieldsOff
  dsimp only
  (repeat' split) <;> simp [foldl_flashB]

@[simp] theorem goBusOff_flashB (n : Nat) (s : State) : (goBusOff n s).flashB = s.flashB := by
  simp [goBusOff]

@[simp] theorem fieldGood_flashB (n r : Nat) (f : FldFrame) (s : State) : (fieldGood n r f s).flashB = s.flashB := by
  unfold fieldGood
  dsimp only
  (repeat' split) <;> simp

@[simp] theorem fieldDrop_flashB (n c r : Nat) (s : State) : (fieldDrop n c r s).flashB = s.flashB := by rfl

@[simp] theorem fieldAbort_flashB (n r : Nat) (s : State) : (fieldAbort n r s).flashB = s.flashB := by
  simp [fieldAbort]

@[simp] theorem cutField_flashB (n : Nat) (s : State) : (cutField n s).flashB = s.flashB := by
  unfold cutField
  dsimp only
  (repeat' split) <;> simp

@[simp] theorem fieldEnd_flashB (n r : Nat) (f : FldFrame) (s : State) : (fieldEnd n r f s).flashB = s.flashB := by
  unfold fieldEnd
  dsimp only
  (repeat' split) <;> simp

@[simp] theorem fieldMoved_flashB (n k : Nat) (s : State) : (fieldMoved n k s).flashB = s.flashB := by
  simp [fieldMoved]

@[simp] theorem takeEnqueue_flashB (n : Nat) (f : FldTx) (s : State) : (takeEnqueue n f s).flashB = s.flashB := by
  unfold takeEnqueue
  dsimp only
  (repeat' split) <;> simp

@[simp] theorem decideEnqueue_flashB (n : Nat) (f : FldFrame) (s : State) : (decideEnqueue n f s).flashB = s.flashB := by rfl

@[simp] theorem putAgg_flashB (s : State) (a : Nat) (x : Agg) : (putAgg s a x).flashB = s.flashB := by rfl

theorem bodyAggLoad_flashB (w : Issuer) (p : Packet) (l : List Byte) (s : State) :
    (actState (bodyAggLoad.act w p l s)).flashB = s.flashB := by rfl

@[simp] theorem loadAgg_flashB (a : Nat) (l : List Byte) (s : State) : (loadAgg a l s).flashB = s.flashB := by
  unfold loadAgg; split <;> simp

@[simp] theorem triggerRun_flashB (ref i : Nat) (s : State) : (triggerRun ref i s).flashB = s.flashB := by
  unfold triggerRun
  dsimp only
  (repeat' split) <;> simp

@[simp] theorem scatterWrite_flashB (l : List (Nat × Nat × Nat)) (m : List Byte) (s : State) :
    (scatterWrite l m s).flashB = s.flashB := by
  fun_induction scatterWrite l m s <;> simp_all

@[simp] theorem imageBytes_flashB (l : Nat) (s : State) : (imageBytes l s).2.flashB = s.flashB := by
  induction l generalizing s <;> simp_all [imageBytes]

@[simp] theorem badImage_flashB (n : Nat) (s : State) : (badImage n s).flashB = s.flashB := by rfl

@[simp] theorem enqueueImage_flashB (a n : Nat) (s : State) : (enqueueImage a n s).1.flashB = s.flashB := by
  unfold enqueueImage
  dsimp only
  (repeat' split) <;> simp

@[simp] theorem enqueueImages_flashB (a : Nat) (l : List Nat) (s : State) : (enqueueImages a l s).1.flashB = s.flashB := by
  induction l generalizing s <;> simp_all [enqueueImages]

@[simp] theorem scatterEnd_flashB (a : Nat) (s : State) : (scatterEnd a s).flashB = s.flashB := by
  unfold scatterEnd
  dsimp only
  (repeat' split) <;> simp

@[simp] theorem scatterRun_flashB (a : Nat) (src : List Byte) (t : Option Nat) (s : State) :
    (scatterRun a src t s).flashB = s.flashB := by
  simp [scatterRun]

@[simp] theorem directSend_flashB (a t : Nat) (s : State) : (directSend a t s).flashB = s.flashB := by
  unfold directSend
  (repeat' split) <;> simp

@[simp] theorem settleDirect_flashB (s : State) : (settleDirect s).flashB = s.flashB := by
  simp only [settleDirect]
  (repeat' split) <;> simp [foldl_flashB]

@[simp] theorem sourceFault_flashB (h : Host) (q : QId) (t : OpTag) (src : ReadEnd) (s v : State) :
    (sourceFault h q t src s v).flashB = v.flashB := by
  unfold sourceFault
  (repeat' split) <;> simp

@[simp] theorem claimFrame_flashB (i : Nat) (a : Agg) (f : List Byte) (s : State) :
    (claimFrame i a f s).flashB = s.flashB := by
  unfold claimFrame
  (repeat' split) <;> simp

@[simp] theorem fieldSent_flashB (n c : Nat) (f : FldTx) (x : FldP) (s : State) :
    (fieldSent n c f x s).flashB = s.flashB := by
  simp [fieldSent]

@[simp] theorem failRun_flashB (c status : Nat) (s : State) : (failRun c status s).flashB = s.flashB := by
  unfold failRun
  dsimp only
  (repeat' split) <;> simp

@[simp] theorem abandonRx_flashB (s : State) : (abandonRx s).flashB = s.flashB := by
  unfold abandonRx; split <;> simp

@[simp] theorem abandonTx_flashB (s : State) : (abandonTx s).flashB = s.flashB := by
  unfold abandonTx; split <;> simp

@[simp] theorem endServed_flashB (c status : Nat) (s : State) : (endServed c status s).flashB = s.flashB := by
  unfold endServed
  (repeat' split) <;> simp

@[simp] theorem setId_flashB (st id : Nat) (s : State) : (setId st id s).flashB = s.flashB := by rfl

@[simp] theorem sendCtl_flashB (p : Nat) (bytes : List Byte) (s : State) : (sendCtl p bytes s).flashB = s.flashB := by
  unfold sendCtl
  dsimp only
  (repeat' split) <;> simp

@[simp] theorem enterConflict_flashB (uid : BitVec 64) (s : State) : (enterConflict uid s).flashB = s.flashB := by
  unfold enterConflict
  (repeat' split) <;> simp

@[simp] theorem yieldId_flashB (s : State) : (yieldId s).flashB = s.flashB := by rfl

@[simp] theorem judgeId_flashB (uid : BitVec 64) (id : BitVec 12) (st : BitVec 2) (otherGiven : Bool) (s : State) :
    (judgeId uid id st otherGiven s).flashB = s.flashB := by
  unfold judgeId
  (repeat' split) <;> simp

@[simp] theorem endConflict_flashB (s : State) : (endConflict s).flashB = s.flashB := by
  unfold endConflict
  (repeat' split) <;> simp

@[simp] theorem markConflicts_flashB (s : State) : (markConflicts s).flashB = s.flashB := by
  unfold markConflicts
  dsimp only
  (repeat' split) <;> simp

@[simp] theorem takeHello_flashB (p : Nat) (x : Hello) (s : State) : (takeHello p x s).flashB = s.flashB := by
  unfold takeHello
  dsimp only
  (repeat' split) <;> simp

@[simp] theorem keepFab_flashB (x : FabIn) (s : State) : (keepFab x s).flashB = s.flashB := by
  unfold keepFab; split <;> simp

@[simp] theorem trimDb_flashB (s : State) : (trimDb s).flashB = s.flashB := by
  unfold trimDb
  dsimp only
  (repeat' split) <;> simp

@[simp] theorem putTopo_flashB (m : TopoMsg) (s : State) : (putTopo m s).flashB = s.flashB := by rfl

@[simp] theorem floodTopo_flashB (p : Nat) (m : TopoMsg) (s : State) : (floodTopo p m s).flashB = s.flashB := by
  unfold floodTopo
  exact foldl_flashB _ (fun s a => by split <;> simp) _ _

@[simp] theorem takeTopo_flashB (p : Nat) (m : TopoMsg) (s : State) : (takeTopo p m s).flashB = s.flashB := by
  unfold takeTopo
  (repeat' split) <;> simp

@[simp] theorem consumeFab_flashB (s : State) : (consumeFab s).flashB = s.flashB := by
  unfold consumeFab
  split
  · rw [foldl_flashB _ (fun s a => ?_)]
    obtain ⟨a, st⟩ := a
    cases a <;> exact consumeAt_flashB _ _ _ (fun s => by simp)
  · rfl

theorem bodyRouteLoad_flashB (w : Issuer) (p : Packet) (l : List Byte) (s : State) :
    (actState (bodyRouteLoad.act w p l s)).flashB = s.flashB := by rfl

theorem bodyFabSet_flashB (w : Issuer) (p : Packet) (l : List Byte) (s : State) :
    (actState (bodyFabSet.act w p l s)).flashB = s.flashB := by rfl

theorem bodyBypassSet_flashB (w : Issuer) (p : Packet) (l : List Byte) (s : State) :
    (actState (bodyBypassSet.act w p l s)).flashB = s.flashB := by rfl

theorem bodyFabQuery_flashB (w : Issuer) (p : Packet) (l : List Byte) (s : State) :
    (actState (bodyFabQuery.act w p l s)).flashB = s.flashB := by rfl

@[simp] theorem rimFabEnable_flashB (en given : Bool) (st id : Nat) (s : State) :
    (rimFabEnable en given st id s).flashB = s.flashB := by
  have hb : ∀ t : State, (bypDrive { t with fab := { t.fab with en := en, given := given, idState := st, nodeId := id } }).flashB = t.flashB :=
    fun t => bypDrive_flashB _
  exact (hb (noteKeeps s)).trans (noteKeeps_flashB s)

@[simp] theorem rimBypassForce_flashB (k : Nat) (on : Bool) (s : State) : (rimBypassForce k on s).flashB = s.flashB := by rfl

@[simp] theorem bypFailed_flashB (k : Nat) (s : State) : (bypFailed k s).flashB = s.flashB := by
  unfold bypFailed; split <;> simp

@[simp] theorem countRelayed_flashB (p : Nat) (s : State) : (countRelayed p s).flashB = s.flashB := by
  simp [countRelayed]

@[simp] theorem cutTo_flashB (p e tc at_ : Nat) (bad : Bool) (f : List Byte) (s : State) :
    (cutTo p e tc at_ bad f s).flashB = s.flashB := by
  simp [cutTo]

@[simp] theorem relayTo_flashB (p e : Nat) (cut : Option Nat) (f : List Byte) (s : State) :
    (relayTo p e cut f s).flashB = s.flashB := by
  unfold relayTo
  dsimp only
  (repeat' split) <;> simp

@[simp] theorem relayGood_flashB (p : Nat) (cut : Option Nat) (f : List Byte) (s : State) :
    (relayGood p cut f s).flashB = s.flashB := by
  unfold relayGood
  (repeat' split) <;> simp

@[simp] theorem relayStomp_flashB (p at_ : Nat) (f : List Byte) (s : State) : (relayStomp p at_ f s).flashB = s.flashB := by
  unfold relayStomp
  (repeat' split) <;> simp

/-- A delivery, where what it does to a frame it takes, and with one that finds no queue, leaves it. -/
theorem deliverRx_flashB (h q source : Nat) (bytes : List Byte) (ts : Ts) (errs : BitVec 4) (bad : Bool) (took noQueue : State → State)
    (use n : Nat) (s : State) (ht : ∀ s, (took s).flashB = s.flashB) (hn : ∀ s, (noQueue s).flashB = s.flashB) :
    (deliverRx h q source bytes ts errs bad took noQueue use n s).flashB = s.flashB := by
  unfold deliverRx; (repeat' split) <;> simp [ht, hn]

@[simp] theorem deliverPort_flashB (p h q : Nat) (bytes : List Byte) (x : RxSum) (s : State) :
    (deliverPort p h q bytes x s).flashB = s.flashB :=
  deliverRx_flashB _ _ _ _ _ _ _ _ _ _ _ _ (fun s => by split <;> simp) (fun s => by simp)

@[simp] theorem countGood_flashB (p : Nat) (b : List Byte) (s : State) : (countGood p b s).flashB = s.flashB := by rfl

@[simp] theorem endRx_flashB (p r keep : Nat) (s : State) : (endRx p r keep s).flashB = s.flashB := by
  simp [endRx]

@[simp] theorem summarize_flashB (p r : Nat) (errs : BitVec 4) (bad : Bool) (f : RxFacts) (s : State) :
    (summarize p r errs bad f s).flashB = s.flashB := by
  unfold summarize; split <;> simp

@[simp] theorem badEnd_flashB (p r : Nat) (errs : BitVec 4) (f : RxFacts) (s : State) : (badEnd p r errs f s).flashB = s.flashB := by
  simp only [badEnd]; (repeat' split)
  · simp
  · rename_i e
    simp [reserve_flashB e]
  · simp

@[simp] theorem goodEnd_flashB (p r : Nat) (f : RxFacts) (s : State) : (goodEnd p r f s).flashB = s.flashB := by
  unfold goodEnd
  dsimp only
  (repeat' split) <;> simp

@[simp] theorem frameEnd_flashB (p r : Nat) (f : RxFacts) (s : State) : (frameEnd p r f s).flashB = s.flashB := by
  unfold frameEnd
  dsimp only
  (repeat' split) <;> simp

/-- What a frame meets that was being received when a setting changed, where the rest of its path leaves it. -/
theorem seen_flashB (p : Nat) (f : State → State) (s : State) (h : ∀ s, (f s).flashB = s.flashB) : (seen p f s).flashB = s.flashB := by
  unfold seen; dsimp only; split <;> simp [h]

@[simp] theorem rxEnd_flashB (p : Nat) (f : RxFacts) (s : State) : (rxEnd p f s).flashB = s.flashB := by
  unfold rxEnd
  dsimp only
  have hs : ∀ r s, (seen p (frameEnd p r f) s).flashB = s.flashB := fun r s => seen_flashB p _ s (fun s => by simp)
  (repeat' split) <;> simp [hs]

@[simp] theorem claimRest_flashB (p : Nat) (out : List Byte) (x : RxSum) (s : State) :
    (claimRest p out x s).flashB = s.flashB := by
  unfold claimRest
  dsimp only
  (repeat' split) <;> simp

@[simp] theorem classify_flashB (p : Nat) (x : RxSum) (s : State) : (classify p x s).flashB = s.flashB := by
  unfold classify
  dsimp only
  (repeat' split) <;> simp

@[simp] theorem takeCtl_flashB (p : Nat) (b : List Byte) (s : State) : (takeCtl p b s).flashB = s.flashB := by
  unfold takeCtl; split <;> simp

@[simp] theorem rxPath_flashB (p : Nat) (x : RxSum) (s : State) : (rxPath p x s).flashB = s.flashB := by
  unfold rxPath
  dsimp only
  (repeat' split) <;> simp

@[simp] theorem opTick_flashB (s : State) : (opTick s).flashB = s.flashB := by
  unfold opTick; split <;> simp

@[simp] theorem rimTimeStep_flashB (off : Int) (s : State) : (rimTimeStep off s).flashB = s.flashB := by rfl

@[simp] theorem rimTimeRate_flashB (adj : Int) (s : State) : (rimTimeRate adj s).flashB = s.flashB := by rfl

@[simp] theorem rimPps_flashB (outEn inEn : Bool) (width : Nat) (s : State) :
    (rimPps outEn inEn width s).flashB = s.flashB := by rfl

@[simp] theorem applyStep_flashB (off : Int) (s : State) : (applyStep off s).flashB = s.flashB := by
  simp [applyStep]

@[simp] theorem applyRate_flashB (adj : Int) (s : State) : (applyRate adj s).flashB = s.flashB := by rfl

@[simp] theorem putSlot_flashB (s : State) (k : Nat) (x : DomSlot) : (putSlot s k x).flashB = s.flashB := by
  unfold putSlot; split <;> simp

@[simp] theorem syncInterval_flashB (k : Nat) (s : State) : (syncInterval k s).flashB = s.flashB := by rfl

@[simp] theorem decideRate_flashB (a : Int) (s : State) : (decideRate a s).flashB = s.flashB := by rfl

@[simp] theorem dropSlew_flashB (s : State) : (dropSlew s).flashB = s.flashB := by
  unfold dropSlew; split <;> simp

@[simp] theorem domainSwitch_flashB (k : Nat) (s : State) : (domainSwitch k s).flashB = s.flashB := by
  unfold domainSwitch
  dsimp only
  (repeat' split) <;> simp

@[simp] theorem reselect_flashB (s : State) : (reselect s).flashB = s.flashB := by
  unfold reselect
  dsimp only
  (repeat' split) <;> simp

@[simp] theorem acquired_flashB (s : State) : (acquired s).flashB = s.flashB := by
  unfold acquired; split <;> simp

@[simp] theorem settleSlot_flashB (k : Nat) (s : State) : (settleSlot k s).flashB = s.flashB := by
  simp [settleSlot]

@[simp] theorem settlePtp_flashB (s : State) : (settlePtp s).flashB = s.flashB := by
  simp [settlePtp]

@[simp] theorem servo_flashB (k : Nat) (off adj : Int) (s : State) : (servo k off adj s).flashB = s.flashB := by
  unfold servo
  dsimp only
  (repeat' split) <;> simp

@[simp] theorem takeSync_flashB (f : SyncFacts) (s : State) : (takeSync f s).flashB = s.flashB := by
  unfold takeSync
  dsimp only
  (repeat' split) <;> simp

@[simp] theorem keepPtp_flashB (x : PtpIn) (s : State) : (keepPtp x s).flashB = s.flashB := by
  unfold keepPtp; split <;> simp

@[simp] theorem sendPtp_flashB (ty k seq st : Nat) (s : State) : (sendPtp ty k seq st s).flashB = s.flashB := by
  unfold sendPtp; exact foldl_flashB _ (fun s a => by split <;> simp) _ _

@[simp] theorem takeResponse_flashB (m : PtpMsg) (ts : Ts) (s : State) : (takeResponse m ts s).flashB = s.flashB := by
  unfold takeResponse
  dsimp only
  (repeat' split) <;> simp

@[simp] theorem takePdelay_flashB (m : PtpMsg) (ts : Ts) (s : State) : (takePdelay m ts s).flashB = s.flashB := by
  unfold takePdelay
  (repeat' split) <;> simp

@[simp] theorem consumePtp_flashB (s : State) : (consumePtp s).flashB = s.flashB := by
  unfold consumePtp
  split
  · rw [foldl_flashB _ (fun s a => ?_)]
    obtain ⟨a, st⟩ := a
    cases a <;> exact consumeAt_flashB _ _ _ (fun s => by simp)
  · rfl

@[simp] theorem putRead_flashB (r : Reader) (v : W32) (s : State) : (putRead r v s).flashB = s.flashB := by rfl

@[simp] theorem latchPut_flashB (r : Reader) (addr : Nat) (v : Nat) (s : State) :
    (latchPut r addr v s).flashB = s.flashB := by rfl

@[simp] theorem txtsPop_flashB (r : Reader) (p : Nat) (s : State) : (txtsPop r p s).1.flashB = s.flashB := by
  unfold txtsPop; split <;> simp

theorem bodyDomainSet_flashB (w : Issuer) (p : Packet) (l : List Byte) (s : State) :
    (actState (bodyDomainSet.act w p l s)).flashB = s.flashB := by
  dsimp only [bodyDomainSet]
  (repeat' split) <;> simp [actState]

theorem bodyTimeStep_flashB (w : Issuer) (p : Packet) (l : List Byte) (s : State) :
    (actState (bodyTimeStep.act w p l s)).flashB = s.flashB := by
  dsimp only [bodyTimeStep]
  (repeat' split) <;> simp [actState]

theorem bodyRateSet_flashB (w : Issuer) (p : Packet) (l : List Byte) (s : State) :
    (actState (bodyRateSet.act w p l s)).flashB = s.flashB := by rfl

theorem bodyPpsSet_flashB (w : Issuer) (p : Packet) (l : List Byte) (s : State) :
    (actState (bodyPpsSet.act w p l s)).flashB = s.flashB := by rfl

theorem bodyTimeQuery_flashB (w : Issuer) (p : Packet) (l : List Byte) (s : State) :
    (actState (bodyTimeQuery.act w p l s)).flashB = s.flashB := by rfl

@[simp] theorem evict_flashB (l : List W32) (s : State) : (evict l s).flashB = s.flashB := by
  show (count .recOverwritten [] 0 l.length _).flashB = _
  rw [count_flashB]

@[simp] theorem keepRecord_flashB (r : RecIn) (kept : Bool) (s : State) : (keepRecord r kept s).flashB = s.flashB := by rfl

@[simp] theorem takeRecord_flashB (r : RecIn) (s : State) : (takeRecord r s).flashB = s.flashB := by
  unfold takeRecord
  dsimp only
  (repeat' split) <;> simp

@[simp] theorem writeFirst_flashB (s : State) : (writeFirst s).flashB = s.flashB := by
  unfold writeFirst
  (repeat' split) <;> simp

@[simp] theorem markBank_flashB (b cause : Nat) (s : State) : (markBank b cause s).flashB = s.flashB := by
  unfold markBank; split <;> simp

@[simp] theorem goVolatile_flashB (s : State) : (goVolatile s).flashB = s.flashB := by
  simp [goVolatile]

@[simp] theorem takeBank_flashB (b cause : Nat) (seq : W32) (s : State) : (takeBank b cause seq s).flashB = s.flashB := by
  unfold takeBank
  dsimp only
  (repeat' split) <;> simp

@[simp] theorem checkLost_flashB (s : State) : (checkLost s).flashB = s.flashB := by
  unfold checkLost
  dsimp only
  (repeat' split) <;> simp

@[simp] theorem rebuildBank_flashB (b : Nat) (s : State) : (rebuildBank b s).flashB = s.flashB := by
  simp [rebuildBank]

@[simp] theorem startAnew_flashB (s : State) : (startAnew s).flashB = s.flashB := by
  simp [startAnew]

@[simp] theorem takeAnew_flashB (s : State) (r : Rec) : (takeAnew s r).flashB = s.flashB := by
  simp [takeAnew]

@[simp] theorem rimStep_flashB (k : Nat) (s : State) : (rimStep k s).flashB = s.flashB := by
  unfold rimStep; split <;> simp

@[simp] theorem writeSummary_flashB (flushed : Bool) (s : State) : (writeSummary flushed s).flashB = s.flashB := by
  unfold writeSummary; split <;> simp

@[simp] theorem putReader_flashB (s : State) (r : Reader) (x : RecReader) : (putReader s r x).flashB = s.flashB := by rfl

@[simp] theorem markDamaged_flashB (l : List W32) (s : State) : (markDamaged l s).flashB = s.flashB := by rfl

@[simp] theorem startLoad_flashB (r : Reader) (ask : Nat) (v : W32) (s : State) :
    (startLoad r ask v s).flashB = s.flashB := by rfl

@[simp] theorem rimClearFloor_flashB (host : Nat) (s : State) : (rimClearFloor host s).flashB = s.flashB := by
  simp [rimClearFloor]

theorem bodyNote_flashB (w : Issuer) (p : Packet) (l : List Byte) (s : State) :
    (actState (bodyNote.act w p l s)).flashB = s.flashB := by rfl

theorem bodyChallenge_flashB (w : Issuer) (p : Packet) (l : List Byte) (s : State) :
    (actState (bodyChallenge.act w p l s)).flashB = s.flashB := by rfl

theorem bodyRecClear_flashB (w : Issuer) (p : Packet) (l : List Byte) (s : State) :
    (actState (bodyRecClear.act w p l s)).flashB = s.flashB := by rfl

theorem bodyRecQuery_flashB (w : Issuer) (p : Packet) (l : List Byte) (s : State) :
    (actState (bodyRecQuery.act w p l s)).flashB = s.flashB := by rfl

@[simp] theorem castleOutcome_flashB (status : Nat) (d : SideId) (s : State) :
    (castleOutcome status d s).flashB = s.flashB := by
  unfold castleOutcome
  (repeat' split) <;> simp

@[simp] theorem exitCommit_flashB (n : Nat) (s : State) : (exitCommit n s).flashB = s.flashB := by
  unfold exitCommit
  (repeat' split) <;> simp

@[simp] theorem commitCounters_flashB (n : Nat) (s : State) : (commitCounters n s).flashB = s.flashB := by
  simp [commitCounters]

@[simp] theorem slotEnd_flashB (s : State) : (slotEnd s).flashB = s.flashB := by
  unfold slotEnd; split <;> simp

@[simp] theorem commitMove_flashB (n : Nat) (s : State) : (commitMove n s).flashB = s.flashB := by
  unfold commitMove
  dsimp only
  (repeat' split) <;> simp

@[simp] theorem undoPending_flashB (s : State) : (undoPending s).flashB = s.flashB := by
  unfold undoPending; split <;> simp

@[simp] theorem settlePending_flashB (d : SideId) (s : State) : (settlePending d s).flashB = s.flashB := by
  unfold settlePending
  (repeat' split) <;> simp

@[simp] theorem abortResync_flashB (s : State) : (abortResync s).flashB = s.flashB := by
  simp [abortResync]

@[simp] theorem beginIntr_flashB (tick : Nat) (s : State) : (beginIntr tick s).flashB = s.flashB := by
  unfold beginIntr; split <;> simp

@[simp] theorem endIntr_flashB (s : State) : (endIntr s).flashB = s.flashB := by
  unfold endIntr; split <;> simp

@[simp] theorem soloCommit_flashB (h : SideId) (s : State) : (soloCommit h s).flashB = s.flashB := by
  unfold soloCommit
  (repeat' split) <;> simp

@[simp] theorem endHandover_flashB (h : SideId) (s : State) : (endHandover h s).flashB = s.flashB := by
  unfold endHandover
  (repeat' split) <;> simp

@[simp] theorem leaveState_flashB (d : SideId) (status : Nat) (s : State) : (leaveState d status s).flashB = s.flashB := by
  unfold leaveState
  dsimp only
  (repeat' split) <;> simp

@[simp] theorem enterResync_flashB (d : SideId) (s : State) : (enterResync d s).flashB = s.flashB := by
  simp only [enterResync, followSides_flashB, updSide_flashB, draw_flashB]

@[simp] theorem admitWaiting_flashB (s : State) : (admitWaiting s).flashB = s.flashB := by
  unfold admitWaiting
  dsimp only
  (repeat' split) <;> simp

@[simp] theorem endStart_flashB (s : State) : (endStart s).flashB = s.flashB := by rfl

@[simp] theorem safeFromStart_flashB (s : State) : (safeFromStart s).flashB = s.flashB := by
  simp [safeFromStart]

@[simp] theorem bypassFail_flashB (s : State) : (bypassFail s).flashB = s.flashB := by
  unfold bypassFail
  dsimp only
  (repeat' split) <;> simp [foldl_flashB]

@[simp] theorem loseClock_flashB (s : State) : (loseClock s).flashB = s.flashB := by rfl

@[simp] theorem declareFall_flashB (d : SideId) (s : State) : (declareFall d s).flashB = s.flashB := by
  simp [declareFall]

@[simp] theorem noTaker_flashB (d : SideId) (s : State) : (noTaker d s).flashB = s.flashB := by
  unfold noTaker
  dsimp only
  (repeat' split) <;> simp

@[simp] theorem endCheck_flashB (v : Nat) (s : State) : (endCheck v s).flashB = s.flashB := by
  simp [endCheck]

@[simp] theorem forcedIntr_flashB (d : SideId) (s : State) : (forcedIntr d s).flashB = s.flashB := by rfl

@[simp] theorem holderFell_flashB (d : SideId) (s : State) : (holderFell d s).flashB = s.flashB := by
  unfold holderFell
  dsimp only
  (repeat' split) <;> simp

@[simp] theorem otherFell_flashB (d : SideId) (s : State) : (otherFell d s).flashB = s.flashB := by
  unfold otherFell
  dsimp only
  (repeat' split) <;> simp

@[simp] theorem flagFall_flashB (d : SideId) (s : State) : (flagFall d s).flashB = s.flashB := by
  unfold flagFall; split <;> simp

@[simp] theorem loseLock_flashB (d : SideId) (c : HealthCause) (s : State) : (loseLock d c s).flashB = s.flashB := by
  unfold loseLock; split <;> simp

@[simp] theorem writeAgain_flashB (s : State) : (writeAgain s).flashB = s.flashB := by rfl

@[simp] theorem beginReplay_flashB (s : State) : (beginReplay s).flashB = s.flashB := by rfl

@[simp] theorem enterLockstep_flashB (h : SideId) (s : State) : (enterLockstep h s).flashB = s.flashB := by
  simp [enterLockstep]

@[simp] theorem linkFailed_flashB (h : SideId) (s : State) : (linkFailed h s).flashB = s.flashB := by
  unfold linkFailed
  dsimp only
  (repeat' split) <;> simp

@[simp] theorem mlFail_flashB (s : State) : (mlFail s).flashB = s.flashB := by
  unfold mlFail
  dsimp only
  (repeat' split) <;> simp

@[simp] theorem handedOver_flashB (d : SideId) (s : State) : (handedOver d s).flashB = s.flashB := by
  unfold handedOver
  dsimp only
  (repeat' split) <;> simp

@[simp] theorem startTests_flashB (d : SideId) (s : State) : (startTests d s).flashB = s.flashB := by
  simp [startTests]

@[simp] theorem beginPending_flashB (s : State) : (beginPending s).flashB = s.flashB := by
  unfold beginPending
  (repeat' split) <;> simp

@[simp] theorem leaveCastling_flashB (s : State) : (leaveCastling s).flashB = s.flashB := by
  unfold leaveCastling
  (repeat' split) <;> simp

@[simp] theorem warmLane_flashB (s : State) : (warmLane s).flashB = s.flashB := by
  unfold warmLane
  dsimp only
  (repeat' split) <;> simp [foldl_flashB]

@[simp] theorem warmDma_flashB (s : State) : (warmDma s).flashB = s.flashB := by rfl

@[simp] theorem warmRx_flashB (s : State) : (warmRx s).flashB = s.flashB := by
  simp [warmRx, foldl_flashB]

@[simp] theorem takeBack_flashB (x : Staged) (s : State) : (takeBack x s).flashB = s.flashB := by
  unfold takeBack
  dsimp only
  (repeat' split) <;> simp

@[simp] theorem warmTx_flashB (s : State) : (warmTx s).flashB = s.flashB := by
  have hf : ∀ (l : List (Nat × Nat × Nat × Staged)) (g : (Nat × Nat × Nat × Staged) → State → State) (s : State),
      (∀ a s, (g a s).flashB = s.flashB) → (l.foldr g s).flashB = s.flashB := by
    intro l g s h
    induction l with
    | nil => rfl
    | cons a l ih => rw [List.foldr_cons, h, ih]
  unfold warmTx
  dsimp only
  rw [hf _ _ _ (fun a s => by simp), foldl_flashB _ (fun s a => by simp)]

@[simp] theorem warmRestore_flashB (s : State) : (warmRestore s).flashB = s.flashB := by
  unfold warmRestore
  dsimp only
  split <;> split <;> simp only [fwStart_flashB, warmTx_flashB, warmRx_flashB, warmDma_flashB, warmLane_flashB]

@[simp] theorem releaseClock_flashB (h : SideId) (s : State) : (releaseClock h s).flashB = s.flashB := by
  simp [releaseClock]

@[simp] theorem divergeCase_flashB (s : State) (t : Nat) : (divergeCase s t).flashB = s.flashB := by rfl

@[simp] theorem warmDone_flashB (s : State) : (warmDone s).flashB = s.flashB := by
  unfold warmDone; split <;> simp

@[simp] theorem warmMode_flashB (s : State) : (warmMode s).flashB = s.flashB := by
  unfold warmMode
  dsimp only
  (repeat' split) <;> simp

@[simp] theorem endWarm_flashB (s : State) : (endWarm s).flashB = s.flashB := by
  simp [endWarm]

@[simp] theorem consumeInputs_flashB (s : State) : (consumeInputs s).flashB = s.flashB := by
  simp [consumeInputs]

@[simp] theorem mismatch_flashB (kind : Nat) (o : LsOutput) (s : State) : (mismatch kind o s).flashB = s.flashB := by
  unfold mismatch
  (repeat' split) <;> simp

@[simp] theorem lsContinue_flashB (d : SideId) (s : State) : (lsContinue d s).flashB = s.flashB := by
  unfold lsContinue
  dsimp only
  (repeat' split) <;> simp

@[simp] theorem failCheck_flashB (d : SideId) (s : State) : (failCheck d s).flashB = s.flashB := by
  unfold failCheck; split <;> simp

@[simp] theorem exitLockstep_flashB (s : State) : (exitLockstep s).flashB = s.flashB := by
  unfold exitLockstep
  (repeat' split) <;> simp

@[simp] theorem testDdr_flashB (d : SideId) (ran good : BitVec 7) (s : State) :
    (testDdr d ran good s).flashB = s.flashB := by
  unfold testDdr
  (repeat' split) <;> simp

theorem bodyCastle_flashB (w : Issuer) (p : Packet) (l : List Byte) (s : State) :
    (actState (bodyCastle.act w p l s)).flashB = s.flashB := by rfl

theorem bodySelftest_flashB (w : Issuer) (p : Packet) (l : List Byte) (s : State) :
    (actState (bodySelftest.act w p l s)).flashB = s.flashB := by
  dsimp only [bodySelftest]
  (repeat' split) <;> simp [actState]

theorem bodyResetStandby_flashB (w : Issuer) (p : Packet) (l : List Byte) (s : State) :
    (actState (bodyResetStandby.act w p l s)).flashB = s.flashB := by rfl

theorem bodySideQuery_flashB (w : Issuer) (p : Packet) (l : List Byte) (s : State) :
    (actState (bodySideQuery.act w p l s)).flashB = s.flashB := by rfl

@[simp] theorem fixAi_flashB (s : State) : (fixAi s).flashB = s.flashB := by rfl

@[simp] theorem slotStart_flashB (s : State) : (slotStart s).flashB = s.flashB := by
  unfold slotStart; split <;> simp

@[simp] theorem offerCommit_flashB (s : State) : (offerCommit s).flashB = s.flashB := by
  unfold offerCommit
  dsimp only
  (repeat' split) <;> simp

@[simp] theorem beginCastling_flashB (s : State) : (beginCastling s).flashB = s.flashB := by
  unfold beginCastling
  dsimp only
  (repeat' split) <;> simp

@[simp] theorem holdAtMarker_flashB (s : State) : (holdAtMarker s).flashB = s.flashB := by
  unfold holdAtMarker; split <;> simp

@[simp] theorem notLate_flashB (s : State) : (notLate s).flashB = s.flashB := by rfl

@[simp] theorem frerCheck_flashB (s : State) : (frerCheck s).flashB = s.flashB := by
  unfold frerCheck
  exact foldl_flashB _ (fun s a => by split <;> simp) _ _

@[simp] theorem throttle_flashB (s : State) : (throttle s).flashB = s.flashB := by rfl

@[simp] theorem writeDue_flashB (l : List DueStatus) (s : State) : (writeDue l s).flashB = s.flashB := by
  induction l generalizing s with
  | nil => rfl
  | cons d r ih => simp only [writeDue]; split <;> rw [ih]; split <;> simp

@[simp] theorem drainVecs_flashB (s : State) : (drainVecs s).flashB = s.flashB := by
  unfold drainVecs
  refine foldl_flashB _ (fun s a => ?_) _ _
  dsimp only
  (repeat' split) <;> simp

@[simp] theorem coldReset_flashB (cause : Nat) (s : State) : (coldReset cause s).flashB = s.flashB := by
  simp [coldReset]

@[simp] theorem abortRunning_flashB (s : State) : (abortRunning s).flashB = s.flashB := by
  simp only [abortRunning]
  (repeat' split) <;> simp [foldl_flashB]

@[simp] theorem abortWaiting_flashB (l : List (Nat × Packet × Stamp)) (s : State) :
    (abortWaiting l s).flashB = s.flashB := by
  induction l generalizing s <;> simp_all [abortWaiting]

@[simp] theorem abortStatuses_flashB (s : State) : (abortStatuses s).flashB = s.flashB := by
  simp [abortStatuses]

@[simp] theorem beginCold_flashB (s : State) : (beginCold s).flashB = s.flashB := by
  unfold beginCold
  dsimp only
  (repeat' split) <;> simp

@[simp] theorem endLoad_flashB (m : Nat) (s : State) : (endLoad m s).flashB = s.flashB := by
  unfold endLoad
  dsimp only
  (repeat' split) <;> simp

@[simp] theorem refuseItem_flashB (s : State) : (refuseItem s).flashB = s.flashB := by
  simp [refuseItem]

@[simp] theorem finishLong_flashB (g status result : Nat) (s : State) :
    (finishLong g status result s).flashB = s.flashB := by
  unfold finishLong
  dsimp only
  (repeat' split) <;> simp

@[simp] theorem abortWork_flashB (d : SideId) (s : State) : (abortWork d s).flashB = s.flashB := by
  unfold abortWork
  dsimp only
  (repeat' split) <;> simp

@[simp] theorem resetSide_flashB (d : SideId) (cause : Nat) (s : State) : (resetSide d cause s).flashB = s.flashB := by
  unfold resetSide
  dsimp only
  (repeat' split) <;> simp

@[simp] theorem pinCause_flashB (s : State) : (pinCause s).flashB = s.flashB := by
  unfold pinCause
  dsimp only
  (repeat' split) <;> simp

@[simp] theorem warmStart_flashB (cause : Nat) (s : State) : (warmStart cause s).flashB = s.flashB := by
  unfold warmStart
  dsimp only
  (repeat' split) <;> simp

@[simp] theorem selfRefresh_flashB (d : SideId) (on : Bool) (s : State) : (selfRefresh d on s).flashB = s.flashB := by
  unfold selfRefresh; split <;> simp

@[simp] theorem oneSideWarm_flashB (s : State) : (oneSideWarm s).flashB = s.flashB := by
  unfold oneSideWarm; split <;> simp

@[simp] theorem putPin_flashB (d : SideId) (on : Bool) (s : State) : (putPin d on s).flashB = s.flashB := by rfl

@[simp] theorem putDdr_flashB (s : State) (d : SideId) (x : Ddr) : (putDdr s d x).flashB = s.flashB := by
  unfold putDdr; split <;> simp

@[simp] theorem lockSide_flashB (d : SideId) (s : State) : (lockSide d s).flashB = s.flashB := by rfl

@[simp] theorem giveUpWarm_flashB (s : State) : (giveUpWarm s).flashB = s.flashB := by
  unfold giveUpWarm
  dsimp only
  (repeat' split) <;> simp

@[simp] theorem bootFailed_flashB (d : SideId) (cause : Nat) (s : State) : (bootFailed d cause s).flashB = s.flashB := by
  unfold bootFailed
  dsimp only
  (repeat' split) <;> simp

@[simp] theorem bootReady_flashB (d : SideId) (s : State) : (bootReady d s).flashB = s.flashB := by
  unfold bootReady
  dsimp only
  (repeat' split) <;> simp

@[simp] theorem loseQueued_flashB (s : State) : (loseQueued s).flashB = s.flashB := by rfl

@[simp] theorem releasePorst_flashB (s : State) : (releasePorst s).flashB = s.flashB := by rfl

@[simp] theorem pinReset_flashB (d : SideId) (cause : Nat) (s : State) : (pinReset d cause s).flashB = s.flashB := by
  unfold pinReset
  dsimp only
  (repeat' split) <;> simp

theorem bodyModeQuery_flashB (w : Issuer) (p : Packet) (l : List Byte) (s : State) :
    (actState (bodyModeQuery.act w p l s)).flashB = s.flashB := by rfl

@[simp] theorem markStart_flashB (kind : Nat) (s : State) : (markStart kind s).flashB = s.flashB := by rfl

@[simp] theorem dropWarm_flashB (s : State) : (dropWarm s).flashB = s.flashB := by
  unfold dropWarm
  dsimp only
  (repeat' split) <;> simp

theorem bodyStartCold_flashB (w : Issuer) (p : Packet) (l : List Byte) (s : State) :
    (actState (bodyStartCold.act w p l s)).flashB = s.flashB := by
  dsimp only [bodyStartCold]
  (repeat' split) <;> simp [actState]

theorem bodyStartWarm_flashB (w : Issuer) (p : Packet) (l : List Byte) (s : State) :
    (actState (bodyStartWarm.act w p l s)).flashB = s.flashB := by rfl

theorem bodyConfigEnter_flashB (w : Issuer) (p : Packet) (l : List Byte) (s : State) :
    (actState (bodyConfigEnter.act w p l s)).flashB = s.flashB := by rfl

theorem bodyConfigExit_flashB (w : Issuer) (p : Packet) (l : List Byte) (s : State) :
    (actState (bodyConfigExit.act w p l s)).flashB = s.flashB := by rfl

theorem bodySafeHold_flashB (w : Issuer) (p : Packet) (l : List Byte) (s : State) :
    (actState (bodySafeHold.act w p l s)).flashB = s.flashB := by rfl

theorem bodyResume_flashB (w : Issuer) (p : Packet) (l : List Byte) (s : State) :
    (actState (bodyResume.act w p l s)).flashB = s.flashB := by rfl

@[simp] theorem putFeed_flashB (f : Feed) (on : Bool) (s : State) : (putFeed f on s).flashB = s.flashB := by
  unfold putFeed; split <;> simp

@[simp] theorem loseLocks_flashB (d : SideId) (s : State) : (loseLocks d s).flashB = s.flashB := by
  simp [loseLocks]

@[simp] theorem feedLost_flashB (f : Feed) (s : State) : (feedLost f s).flashB = s.flashB := by
  simp [feedLost]

@[simp] theorem putRef_flashB (r : Nat) (here qual : Bool) (s : State) : (putRef r here qual s).flashB = s.flashB := by rfl

@[simp] theorem switchRef_flashB (s : State) : (switchRef s).flashB = s.flashB := by
  simp [switchRef]

@[simp] theorem regainLocks_flashB (s : State) : (regainLocks s).flashB = s.flashB := by
  unfold regainLocks; split <;> simp

@[simp] theorem rimUnlock_flashB (s : State) : (rimUnlock s).flashB = s.flashB := by
  simp [rimUnlock]

@[simp] theorem putLock_flashB (i : RimIsland) (on : Bool) (s : State) : (putLock i on s).flashB = s.flashB := by
  unfold putLock; split <;> simp

@[simp] theorem putTemp_flashB (n : Sensor) (t : BitVec 16) (s : State) : (putTemp n t s).flashB = s.flashB := by
  unfold putTemp; split <;> simp

@[simp] theorem putViof_flashB (k : Nat) (v : BitVec 2) (s : State) : (putViof k v s).flashB = s.flashB := by rfl

@[simp] theorem putLink_flashB (h : Nat) (l : Link) (s : State) : (putLink h l s).flashB = s.flashB := by rfl

@[simp] theorem changeLink_flashB (h : Nat) (up : Bool) (s : State) : (changeLink h up s).flashB = s.flashB := by
  unfold changeLink; split <;> simp

@[simp] theorem unmask_flashB (h v : Nat) (s : State) : (unmask h v s).flashB = s.flashB := by
  unfold unmask
  dsimp only
  (repeat' split) <;> simp

@[simp] theorem writeMsix_flashB (h a : Nat) (enables : BitVec 4) (v : W32) (s : State) :
    (writeMsix h a enables v s).flashB = s.flashB := by
  unfold writeMsix
  dsimp only
  (repeat' split) <;> simp

@[simp] theorem dropWork_flashB (ts : List Nat) (s : State) : (dropWork ts s).flashB = s.flashB := by
  simp [dropWork, foldl_flashB]

@[simp] theorem perstSide_flashB (h : Nat) (s : State) : (perstSide h s).flashB = s.flashB := by
  simp [perstSide, foldl_flashB]

@[simp] theorem perstRim_flashB (h : Nat) (s : State) : (perstRim h s).flashB = s.flashB := by
  simp [perstRim]

theorem bodyFwQuery_flashB (w : Issuer) (p : Packet) (l : List Byte) (s : State) :
    (actState (bodyFwQuery.act w p l s)).flashB = s.flashB := by rfl

@[simp] theorem leaveStep_flashB (d : SideId) (s : State) : (leaveStep d s).flashB = s.flashB := by
  unfold leaveStep; split <;> simp

theorem bodyFwVerify_flashB (w : Issuer) (p : Packet) (l : List Byte) (s : State) :
    (actState (bodyFwVerify.act w p l s)).flashB = s.flashB := by
  dsimp only [bodyFwVerify, actState]; simp

@[simp] theorem rimResetStandby_flashB (s : State) : (rimResetStandby s).flashB = s.flashB := by
  unfold rimResetStandby; split <;> simp

@[simp] theorem rimResume_flashB (causes : BitVec 5) (s : State) : (rimResume causes s).flashB = s.flashB := by
  unfold rimResume
  dsimp only
  (repeat' split) <;> simp

@[simp] theorem rimMode_flashB (m : Nat) (s : State) : (rimMode m s).flashB = s.flashB := by
  unfold rimMode
  (repeat' split) <;> simp

@[simp] theorem rimFwClear_flashB (w : Nat) (v : W32) (s : State) : (rimFwClear w v s).flashB = s.flashB := by rfl

@[simp] theorem rimRoutes_flashB (t : Tab (BitVec 64)) (s : State) : (rimRoutes t s).flashB = s.flashB := by
  have hb : ∀ u : State, ({ u with fab := { u.fab with routes := t } } : State).flashB = u.flashB := fun u => rfl
  exact (hb (noteKeeps s)).trans (noteKeeps_flashB s)

@[simp] theorem rimWrite_flashB (s : State) (w : RimWrite) : (rimWrite s w).flashB = s.flashB := by
  unfold rimWrite; split <;> simp

@[simp] theorem loadLatch_flashB (r : Reader) (g : Reg) (is : List Nat) (s : State) :
    (loadLatch r g is s).flashB = s.flashB := by
  unfold loadLatch
  (repeat' split) <;> simp

@[simp] theorem clearRc_flashB (r : Reader) (g : Reg) (is : List Nat) (s : State) (x : Nat × Nat) :
    (clearRc r g is s x).flashB = s.flashB := by
  unfold clearRc
  dsimp only
  (repeat' split) <;> simp

@[simp] theorem readEffects_flashB (r : Reader) (g : Reg) (is : List Nat) (s : State) :
    (readEffects r g is s).flashB = s.flashB := by
  unfold readEffects
  dsimp only
  (repeat' split) <;> simp [foldl_flashB]

@[simp] theorem doRead_flashB (r : Reader) (g : Reg) (is : List Nat) (s : State) : (doRead r g is s).flashB = s.flashB := by
  unfold doRead
  (repeat' split) <;> simp

@[simp] theorem accErr_flashB (h lo : Nat) (s : State) : (accErr h lo s).flashB = s.flashB := by rfl

@[simp] theorem accErrOf_flashB (r : Reader) (lo : Nat) (s : State) : (accErrOf r lo s).flashB = s.flashB := by
  unfold accErrOf; split <;> simp

@[simp] theorem storeReg_flashB (g : Reg) (is : List Nat) (v : W32) (s : State) :
    (storeReg g is v s).flashB = s.flashB := by rfl

@[simp] theorem enableAq_flashB (h : Nat) (v : W32) (s : State) : (enableAq h v s).flashB = s.flashB := by
  unfold enableAq
  dsimp only
  (repeat' split) <;> simp

@[simp] theorem writeAqCfg_flashB (h : Nat) (v : W32) (s : State) : (writeAqCfg h v s).flashB = s.flashB := by
  unfold writeAqCfg
  dsimp only
  (repeat' split) <;> simp

@[simp] theorem writePriv_flashB (r : Reader) (v : W32) (s : State) : (writePriv r v s).flashB = s.flashB := by
  unfold writePriv
  dsimp only
  (repeat' split) <;> simp

@[simp] theorem writePoolCtl_flashB (v : W32) (s : State) : (writePoolCtl v s).flashB = s.flashB := by
  unfold writePoolCtl
  (repeat' split) <;> simp

@[simp] theorem clearMonitor_flashB (m : Nat) (s : State) : (clearMonitor m s).flashB = s.flashB := by rfl

@[simp] theorem writeMonCfg_flashB (m : Nat) (v : W32) (s : State) : (writeMonCfg m v s).flashB = s.flashB := by
  unfold writeMonCfg
  dsimp only
  (repeat' split) <;> simp

@[simp] theorem writeRoute_flashB (n src : Nat) (v : W32) (s : State) : (writeRoute n src v s).flashB = s.flashB := by
  unfold writeRoute
  dsimp only
  (repeat' split) <;> simp

@[simp] theorem sendDue_flashB (h v : Nat) (s : State) : (sendDue h v s).flashB = s.flashB := by
  unfold sendDue
  dsimp only
  (repeat' split) <;> simp

@[simp] theorem writeCoal_flashB (n v : Nat) (x : W32) (s : State) : (writeCoal n v x s).flashB = s.flashB := by
  unfold writeCoal
  dsimp only
  (repeat' split) <;> simp

@[simp] theorem writeEvtStat_flashB (r : Reader) (w : Nat) (v : W32) (s : State) :
    (writeEvtStat r w v s).flashB = s.flashB := by
  unfold writeEvtStat; split <;> simp

@[simp] theorem writePinStat_flashB (w : Nat) (v : W32) (s : State) : (writePinStat w v s).flashB = s.flashB := by rfl

@[simp] theorem writeRdCfg_flashB (r : Reader) (v : W32) (s : State) : (writeRdCfg r v s).flashB = s.flashB := by
  unfold writeRdCfg
  dsimp only
  (repeat' split) <;> simp

@[simp] theorem writeClkCfg_flashB (v : W32) (s : State) : (writeClkCfg v s).flashB = s.flashB := by
  unfold writeClkCfg
  dsimp only
  (repeat' split) <;> simp

@[simp] theorem writeReg_flashB (r : Reader) (g : Reg) (is : List Nat) (v : W32) (s : State) :
    (writeReg r g is v s).flashB = s.flashB := by
  unfold writeReg
  dsimp only
  (repeat' split) <;> simp

@[simp] theorem applyWrite_flashB (r : Reader) (a : Nat) (v : W32) (s : State) :
    (applyWrite r a v s).flashB = s.flashB := by
  unfold applyWrite
  dsimp only
  (repeat' split) <;> simp

@[simp] theorem hostWrite_flashB (h a : Nat) (enables : BitVec 4) (v : W32) (s : State) :
    (hostWrite h a enables v s).flashB = s.flashB := by
  unfold hostWrite
  (repeat' split) <;> simp

@[simp] theorem writeAt_flashB (h : Nat) (g : Reg) (is : List Nat) (v : W32) (s : State) :
    (writeAt h g is v s).flashB = s.flashB := by
  simp [writeAt]

@[simp] theorem applyOldest_flashB (s : State) : (applyOldest s).flashB = s.flashB := by
  unfold applyOldest
  (repeat' split)
  · rfl
  · rw [consumeAt_flashB _ _ _ (fun s => by simp)]
  · rfl
  · rw [consumeAt_flashB _ _ _ (fun s => by simp)]

@[simp] theorem writeSide_flashB (h : Nat) (g : Reg) (is : List Nat) (v : W32) (s : State) :
    (writeSide h g is v s).flashB = s.flashB := by
  unfold writeSide
  dsimp only
  (repeat' split) <;> simp

@[simp] theorem readAt_flashB (r : Reader) (a : Nat) (s : State) : (readAt r a s).flashB = s.flashB := by
  unfold readAt; split <;> simp

@[simp] theorem sideRead_flashB (h : Host) (a : Nat) (s : State) : (sideRead h a s).flashB = s.flashB := by
  unfold sideRead
  (repeat' split) <;> simp

@[simp] theorem answerHeld_flashB (h : Host) (a : Nat) (s : State) : (answerHeld h a s).flashB = s.flashB := by
  have hp : ∀ s, (answerHeld.plainHeld h a s).flashB = s.flashB := by
    intro s; unfold answerHeld.plainHeld; split <;> simp
  unfold answerHeld; dsimp only; (repeat' split) <;> simp [hp]

@[simp] theorem hostRead_flashB (h : Host) (a : Nat) (s : State) : (hostRead h a s).flashB = s.flashB := by
  unfold hostRead
  (repeat' split) <;> simp

@[simp] theorem partRead_flashB (r : Reader) (a : Nat) (s : State) : (partRead r a s).flashB = s.flashB := by
  unfold partRead
  (repeat' split) <;> simp

@[simp] theorem readerRead_flashB (r : Reader) (a : Nat) (s : State) : (readerRead r a s).flashB = s.flashB := by
  unfold readerRead
  (repeat' split) <;> simp

@[simp] theorem readerWrite_flashB (r : Reader) (g : Reg) (v : W32) (s : State) :
    (readerWrite r g v s).flashB = s.flashB := by
  unfold readerWrite
  (repeat' split) <;> simp

@[simp] theorem loadTable_flashB (t : List (BitVec 512)) (s : State) : (loadTable t s).flashB = s.flashB := by rfl

@[simp] theorem nextItem_flashB (s : State) : (nextItem s).flashB = s.flashB := by rfl

@[simp] theorem uncount_flashB (key : Nat) (s : State) : (uncount key s).flashB = s.flashB := by rfl

@[simp] theorem restatus_flashB (x : IbCmd) (st : Nat × Nat) (s : State) : (restatus x st s).flashB = s.flashB := by
  unfold restatus
  dsimp only
  (repeat' split) <;> simp

end Sys2Proof.Machine
end

