-- ==== Sys2Proof/Laws/FrameMode.lean ====
section
/-!
SUPPORT. Laws/FrameMode.lean: the operations that leave GLB_MODE.MODE as it is: all but those that call toMode, and the resets.
One lemma for each operation.
-/

namespace Sys2Proof.Machine

variable {α : Type}

theorem foldl_mode (f : State → α → State) (h : ∀ s a, (f s a).glb.mode = s.glb.mode) (l : List α) (s : State) :
    (l.foldl f s).glb.mode = s.glb.mode := by
  induction l generalizing s with
  | nil => rfl
  | cons a l ih => rw [List.foldl_cons, ih, h]

@[simp] theorem regStore_mode (s : State) (g : Reg) (is : List Nat) (v : W32) :
    (regStore s g is v).glb.mode = s.glb.mode := by rfl

@[simp] theorem bumpW_mode (key w n : Nat) (s : State) : (bumpW key w n s).glb.mode = s.glb.mode := by rfl

@[simp] theorem count_mode (g : Reg) (is : List Nat) (lo n : Nat) (s : State) :
    (count g is lo n s).glb.mode = s.glb.mode := by rfl

@[simp] theorem countMax_mode (g : Reg) (is : List Nat) (lo n : Nat) (s : State) :
    (countMax g is lo n s).glb.mode = s.glb.mode := by rfl

@[simp] theorem portCount_mode (p c n : Nat) (s : State) : (portCount p c n s).glb.mode = s.glb.mode := by rfl

@[simp] theorem putSide_mode (s : State) (d : SideId) (r : SideRec) : (putSide s d r).glb.mode = s.glb.mode := by
  unfold putSide; split <;> simp

@[simp] theorem gatedWrite_mode (d : SideId) (s : State) : (gatedWrite d s).glb.mode = s.glb.mode := by
  unfold gatedWrite; split <;> simp

/-- What a side does through its gate, where the act leaves it. -/
theorem byGate_mode (d : SideId) (f : State → State) (s : State) (h : ∀ s, (f s).glb.mode = s.glb.mode) : (byGate d f s).glb.mode = s.glb.mode := by
  unfold byGate; split <;> simp [h]

@[simp] theorem record_mode (b : SsBody) (s : State) : (record b s).glb.mode = s.glb.mode := by rfl

@[simp] theorem caughtUp_mode (s : State) : (caughtUp s).glb.mode = s.glb.mode := by rfl

@[simp] theorem keepReg_mode (x : RegRec) (s : State) : (keepReg x s).glb.mode = s.glb.mode := by rfl

@[simp] theorem timeRecordAt_mode (sub : TimeSub) (ns : Nat) (s : State) :
    (timeRecordAt sub ns s).glb.mode = s.glb.mode := by rfl

@[simp] theorem timeRecord_mode (sub : TimeSub) (s : State) : (timeRecord sub s).glb.mode = s.glb.mode := by rfl

/-- What a side decides at a record's own time, where the decision leaves it. -/
theorem consumeAt_mode (st : Stamp) (f : State → State) (s : State) (h : ∀ s, (f s).glb.mode = s.glb.mode) :
    (consumeAt st f s).glb.mode = s.glb.mode := by
  have e : (f { s with jrn := { s.jrn with last := st } }).glb.mode = s.glb.mode := (h _).trans rfl
  exact e

@[simp] theorem pushSet_mode (w : List RimWrite) (s : State) : (pushSet w s).glb.mode = s.glb.mode := by rfl

@[simp] theorem raiseS_mode (src : Nat) (s : State) : (raiseS src s).glb.mode = s.glb.mode := by rfl

@[simp] theorem countS_mode (g : Reg) (is : List Nat) (lo n : Nat) (s : State) :
    (countS g is lo n s).glb.mode = s.glb.mode := by rfl

@[simp] theorem portCountS_mode (p c n : Nat) (s : State) : (portCountS p c n s).glb.mode = s.glb.mode := by rfl

@[simp] theorem putVec_mode (s : State) (h v : Nat) (x : Vec) : (putVec s h v x).glb.mode = s.glb.mode := by rfl

@[simp] theorem msgDue_mode (h v : Nat) (plain : Bool) (s : State) : (msgDue h v plain s).1.glb.mode = s.glb.mode := by
  unfold msgDue
  dsimp only
  (repeat' split) <;> simp

@[simp] theorem trigRaw_mode (h v : Nat) (plain : Bool) (s : State) : (trigRaw h v plain s).1.glb.mode = s.glb.mode := by
  unfold trigRaw
  dsimp only
  (repeat' split) <;> simp

@[simp] theorem setBits_mode (src : Nat) (s : State) : (setBits src s).1.glb.mode = s.glb.mode := by rfl

@[simp] theorem trigHosts_mode (src : Nat) (l : List Nat) (s : State) : (trigHosts src l s).1.glb.mode = s.glb.mode := by
  induction l generalizing s with
  | nil => rfl
  | cons n ns ih =>
    simp only [trigHosts]
    rw [ih]; split <;> simp

@[simp] theorem raiseBlocked_mode (s : State) : (raiseBlocked s).glb.mode = s.glb.mode := by
  simp [raiseBlocked]

@[simp] theorem raise_mode (src : Nat) (s : State) : (raise src s).glb.mode = s.glb.mode := by
  unfold raise
  dsimp only
  (repeat' split) <;> simp

@[simp] theorem trigger_mode (h v : Nat) (s : State) : (trigger h v s).glb.mode = s.glb.mode := by
  unfold trigger
  dsimp only
  (repeat' split) <;> simp

@[simp] theorem offer_mode (r : RecIn) (s : State) : (offer r s).glb.mode = s.glb.mode := by rfl

@[simp] theorem setAlarm_mode (i : Nat) (s : State) : (setAlarm i s).glb.mode = s.glb.mode := by rfl

@[simp] theorem clearAlarm_mode (i : Nat) (s : State) : (clearAlarm i s).glb.mode = s.glb.mode := by rfl

@[simp] theorem bypDrive_mode (s : State) : (bypDrive s).glb.mode = s.glb.mode := by rfl

@[simp] theorem putGate_mode (s : State) (p : Nat) (g : GateP) : (putGate s p g).glb.mode = s.glb.mode := by rfl

@[simp] theorem putPort_mode (s : State) (p : Nat) (x : PortSt) : (putPort s p x).glb.mode = s.glb.mode := by rfl

@[simp] theorem adjLost_mode (p : Nat) (s : State) : (adjLost p s).glb.mode = s.glb.mode := by
  unfold adjLost
  dsimp only
  (repeat' split) <;> simp

@[simp] theorem accrueLpi_mode (p : Nat) (s : State) : (accrueLpi p s).glb.mode = s.glb.mode := by
  unfold accrueLpi
  dsimp only
  (repeat' split) <;> simp

@[simp] theorem accrueRxLpi_mode (p : Nat) (s : State) : (accrueRxLpi p s).glb.mode = s.glb.mode := by
  unfold accrueRxLpi
  dsimp only
  (repeat' split) <;> simp

@[simp] theorem accrueAll_mode (s : State) : (accrueAll s).glb.mode = s.glb.mode := by
  simp only [accrueAll]
  (repeat' split) <;> simp [foldl_mode]

@[simp] theorem leaveLpi_mode (p : Nat) (s : State) : (leaveLpi p s).glb.mode = s.glb.mode := by
  unfold leaveLpi; split <;> simp

@[simp] theorem wake_mode (p : Nat) (s : State) : (wake p s).glb.mode = s.glb.mode := by
  unfold wake; split <;> simp

@[simp] theorem dropLanes_mode (p : Nat) (s : State) : (dropLanes p s).glb.mode = s.glb.mode := by
  dsimp only [dropLanes]; rw [foldl_mode _ (fun s a => by simp)]; simp

@[simp] theorem dropLink_mode (p : Nat) (lock : Bool) (s : State) : (dropLink p lock s).glb.mode = s.glb.mode := by
  simp [dropLink]

@[simp] theorem settleOff_mode (p : Nat) (s : State) : (settleOff p s).glb.mode = s.glb.mode := by
  unfold settleOff
  dsimp only
  (repeat' split) <;> simp

@[simp] theorem safePorts_mode (s : State) (on : Bool) : (safePorts s on).glb.mode = s.glb.mode := by
  unfold safePorts
  exact foldl_mode _ (fun s a => by split <;> simp) _ _

@[simp] theorem safeFields_mode (s : State) (on : Bool) : (safeFields s on).glb.mode = s.glb.mode := by rfl

@[simp] theorem updSide_mode (d : SideId) (f : SideRec → SideRec) (s : State) : (updSide d f s).glb.mode = s.glb.mode := by
  simp [updSide]

@[simp] theorem putWork_mode (g : Nat) (op : LongOp) (s : State) : (putWork g op s).glb.mode = s.glb.mode := by
  unfold putWork; split <;> simp

@[simp] theorem testOutcome_mode (status : Nat) (s : State) : (testOutcome status s).glb.mode = s.glb.mode := by
  unfold testOutcome; split <;> simp

@[simp] theorem activateOutcome_mode (d : SideId) (status : Nat) (s : State) :
    (activateOutcome d status s).glb.mode = s.glb.mode := by
  unfold activateOutcome
  (repeat' split) <;> simp

@[simp] theorem goOut_mode (d : SideId) (s : State) : (goOut d s).glb.mode = s.glb.mode := by
  simp [goOut]

@[simp] theorem stopTest_mode (s : State) : (stopTest s).glb.mode = s.glb.mode := by
  unfold stopTest
  dsimp only
  (repeat' split) <;> simp

@[simp] theorem draw_mode (s : State) : (draw s).2.glb.mode = s.glb.mode := by rfl

@[simp] theorem bumpGen_mode (p : Packet) (s : State) : (bumpGen p s).glb.mode = s.glb.mode := by rfl

@[simp] theorem putAq_mode (s : State) (h : Nat) (a : AdminHost) : (putAq s h a).glb.mode = s.glb.mode := by rfl

@[simp] theorem countStatus_mode (who : Issuer) (p : Packet) (f : Option Finding) (s : State) :
    (countStatus who p f s).glb.mode = s.glb.mode := by
  unfold countStatus
  (repeat' split) <;> simp

@[simp] theorem dueStatus_mode (who : Issuer) (p : Packet) (status off result : Nat) (gen : W32) (epoch head : BitVec 16) (s : State) :
    (dueStatus who p status off result gen epoch head s).glb.mode = s.glb.mode := by rfl

@[simp] theorem reply_mode (who : Issuer) (p : Packet) (f : Option Finding) (result : Nat) (s : State) :
    (reply who p f result s).glb.mode = s.glb.mode := by
  unfold reply
  (repeat' split) <;> simp

@[simp] theorem putChan_mode (s : State) (c : Nat) (x : ChanSt) : (putChan s c x).glb.mode = s.glb.mode := by rfl

@[simp] theorem pchError_mode (c code : Nat) (dir : Bool) (addr : BitVec 64) (space h : Nat) (s : State) :
    (pchError c code dir addr space h s).glb.mode = s.glb.mode := by rfl

@[simp] theorem pchOver_mode (c code n : Nat) (s : State) : (pchOver c code n s).glb.mode = s.glb.mode := by rfl

@[simp] theorem pchDone_mode (c n : Nat) (s : State) : (pchDone c n s).glb.mode = s.glb.mode := by rfl

@[simp] theorem ibChannel_mode (c : CmdSpec) (who : Issuer) (p : Packet) (ib : ReadEnd) (s : State) :
    (ibChannel c who p ib s).glb.mode = s.glb.mode := by
  unfold ibChannel
  (repeat' split) <;> simp

@[simp] theorem putFlash_mode (s : State) (d : SideId) (f : Flash) : (putFlash s d f).glb.mode = s.glb.mode := by
  cases d <;> rfl

@[simp] theorem noteIb_mode (c : CmdSpec) (who : Issuer) (p : Packet) (r : Running) (old s : State) :
    (noteIb c who p r old s).glb.mode = s.glb.mode := by
  unfold noteIb; split <;> simp

@[simp] theorem noteOther_mode (c : CmdSpec) (b : Body) (who : Issuer) (p : Packet) (ib : ReadEnd) (kind : IbKind) (s : State) :
    (noteOther c b who p ib kind s).glb.mode = s.glb.mode := by
  unfold noteOther
  (repeat' split) <;> simp

/-- Executing a command, where its row's effect leaves it. -/
theorem perform_mode {b : Body} (h : ∀ w p l s, (actState (b.act w p l s)).glb.mode = s.glb.mode)
    (c : CmdSpec) (w : Issuer) (p : Packet) (ib : ReadEnd) (s : State) : (perform c b w p ib s).1.glb.mode = s.glb.mode := by
  unfold perform
  dsimp only
  generalize hu : (if (dryRun p && !c.query) = true then s else ibChannel c w p ib s) = u
  have hq : u.glb.mode = s.glb.mode := by rw [← hu]; split <;> simp
  split
  · simp [hq]
  · split
    · simp [hq]
    · have h' := h w p ((c.ibuf.bind (fun o => ibBytes p o ib)).getD []) u
      split <;> rename_i e <;> rw [e] at h'
      · dsimp only [actState] at h' ⊢; split <;> simp [h', hq]
      · simpa [actState, hq] using h'

@[simp] theorem touch_mode (o : Obj) (s : State) : (touch o s).glb.mode = s.glb.mode := by rfl

@[simp] theorem raiseAct_mode (src : Nat) (s : State) : (raiseAct src s).glb.mode = s.glb.mode := by
  unfold raiseAct; split <;> simp

@[simp] theorem putSq_mode (s : State) (h q : Nat) (x : Sq) : (putSq s h q x).glb.mode = s.glb.mode := by rfl

@[simp] theorem putCq_mode (s : State) (h c : Nat) (x : Cq) : (putCq s h c x).glb.mode = s.glb.mode := by rfl

@[simp] theorem putPage_mode (s : State) (h q : Nat) (x : Sq) : (putPage s h q x).glb.mode = s.glb.mode := by
  unfold putPage; split <;> simp

@[simp] theorem putCqPage_mode (s : State) (h c : Nat) (x : Cq) : (putCqPage s h c x).glb.mode = s.glb.mode := by
  unfold putCqPage; split <;> simp

@[simp] theorem keepPage_mode (h q : Nat) (s : State) : (keepPage h q s).glb.mode = s.glb.mode := by
  unfold keepPage; split <;> simp

@[simp] theorem keepCqPage_mode (h c : Nat) (s : State) : (keepCqPage h c s).glb.mode = s.glb.mode := by
  unfold keepCqPage; split <;> simp

@[simp] theorem adminPlace_mode (h : Nat) (s : State) : (adminPlace h s).glb.mode = s.glb.mode := by
  unfold adminPlace
  (repeat' split) <;> simp

@[simp] theorem consumeAdmin_mode (h : Host) (s : State) : (consumeAdmin h s).glb.mode = s.glb.mode := by
  simp [consumeAdmin]

@[simp] theorem resume_mode (s t : State) : (resume s t).glb.mode = t.glb.mode := by rfl

/-- A row of the opcode tables, where its effect leaves it. -/
theorem runAdmin_mode {b : Body} (h : ∀ w p l s, (actState (b.act w p l s)).glb.mode = s.glb.mode)
    (c : CmdSpec) (n : Host) (p : Packet) (ib : ReadEnd) (s : State) : (runAdmin c b n p ib s).glb.mode = s.glb.mode := by
  unfold runAdmin
  dsimp only
  split
  · rw [resume_mode, perform_mode h]; simp
  · rfl

@[simp] theorem endLong_mode (g : Nat) (status result : Nat) (s : State) :
    (endLong g status result s).glb.mode = s.glb.mode := by
  unfold endLong
  (repeat' split) <;> simp

theorem bodyCreateCq_mode (w : Issuer) (p : Packet) (l : List Byte) (s : State) :
    (actState (bodyCreateCq.act w p l s)).glb.mode = s.glb.mode := by
  dsimp only [bodyCreateCq, actState]; simp

theorem bodyCreateSq_mode (w : Issuer) (p : Packet) (l : List Byte) (s : State) :
    (actState (bodyCreateSq.act w p l s)).glb.mode = s.glb.mode := by
  dsimp only [bodyCreateSq, actState]; simp

@[simp] theorem dropSq_mode (h q : Nat) (s : State) : (dropSq h q s).glb.mode = s.glb.mode := by
  unfold dropSq; split <;> simp

@[simp] theorem dropCq_mode (h c : Nat) (s : State) : (dropCq h c s).glb.mode = s.glb.mode := by
  unfold dropCq; split <;> simp

theorem bodyDeleteSq_mode (w : Issuer) (p : Packet) (l : List Byte) (s : State) :
    (actState (bodyDeleteSq.act w p l s)).glb.mode = s.glb.mode := by
  dsimp only [bodyDeleteSq, actState]; simp

theorem bodyDeleteCq_mode (w : Issuer) (p : Packet) (l : List Byte) (s : State) :
    (actState (bodyDeleteCq.act w p l s)).glb.mode = s.glb.mode := by
  dsimp only [bodyDeleteCq, actState]; simp

theorem bodySetWrr_mode (w : Issuer) (p : Packet) (l : List Byte) (s : State) :
    (actState (bodySetWrr.act w p l s)).glb.mode = s.glb.mode := by
  dsimp only [bodySetWrr]
  (repeat' split) <;> simp [actState]

theorem bodySetQuota_mode (w : Issuer) (p : Packet) (l : List Byte) (s : State) :
    (actState (bodySetQuota.act w p l s)).glb.mode = s.glb.mode := by rfl

@[simp] theorem rimSqPage_mode (h q : Nat) (on : Bool) (s : State) : (rimSqPage h q on s).glb.mode = s.glb.mode := by
  unfold rimSqPage
  (repeat' split) <;> simp

@[simp] theorem rimCqPage_mode (h c : Nat) (on : Bool) (s : State) : (rimCqPage h c on s).glb.mode = s.glb.mode := by
  unfold rimCqPage
  (repeat' split) <;> simp

@[simp] theorem withOwn_mode (who : Issuer) (p : Packet) (s : State) : (withOwn who p s).glb.mode = s.glb.mode := by
  unfold withOwn; split <;> simp

theorem bodyQueQuery_mode (w : Issuer) (p : Packet) (l : List Byte) (s : State) :
    (actState (bodyQueQuery.act w p l s)).glb.mode = s.glb.mode := by rfl

@[simp] theorem settleGens_mode (s : State) : (settleGens s).glb.mode = s.glb.mode := by rfl

theorem bodyIdLoad_mode (w : Issuer) (p : Packet) (l : List Byte) (s : State) :
    (actState (bodyIdLoad.act w p l s)).glb.mode = s.glb.mode := by rfl

theorem bodyMeterSet_mode (w : Issuer) (p : Packet) (l : List Byte) (s : State) :
    (actState (bodyMeterSet.act w p l s)).glb.mode = s.glb.mode := by rfl

theorem bodySeqgenSet_mode (w : Issuer) (p : Packet) (l : List Byte) (s : State) :
    (actState (bodySeqgenSet.act w p l s)).glb.mode = s.glb.mode := by rfl

@[simp] theorem takeSeq_mode (flow : Nat) (s : State) : (takeSeq flow s).1.glb.mode = s.glb.mode := by
  unfold takeSeq
  dsimp only
  (repeat' split) <;> simp

@[simp] theorem putRec_mode (s : State) (r : Nat) (x : SeqRec) : (putRec s r x).glb.mode = s.glb.mode := by rfl

@[simp] theorem frerReset_mode (r : Nat) (s : State) : (frerReset r s).glb.mode = s.glb.mode := by rfl

@[simp] theorem recover_mode (r : Nat) (f : List Byte) (el : Nat) (s : State) :
    (recover r f el s).1.glb.mode = s.glb.mode := by
  unfold recover
  dsimp only
  (repeat' split) <;> simp

theorem bodySeqrecSet_mode (w : Issuer) (p : Packet) (l : List Byte) (s : State) :
    (actState (bodySeqrecSet.act w p l s)).glb.mode = s.glb.mode := by rfl

@[simp] theorem block_mode (h : Nat) (b : BitVec 2) (s : State) : (block h b s).glb.mode = s.glb.mode := by rfl

@[simp] theorem police_mode (e : BitVec 512) (r : RxSum) (s : State) : (police e r s).1.glb.mode = s.glb.mode := by
  unfold police
  dsimp only
  (repeat' split) <;> simp

@[simp] theorem streamPath_mode (e : BitVec 512) (r : RxSum) (s : State) : (streamPath e r s).1.glb.mode = s.glb.mode := by
  unfold streamPath
  dsimp only
  (repeat' split) <;> simp

theorem bodyStrmQuery_mode (w : Issuer) (p : Packet) (l : List Byte) (s : State) :
    (actState (bodyStrmQuery.act w p l s)).glb.mode = s.glb.mode := by rfl

@[simp] theorem cutWire_mode (p : Nat) (w : OnWire) (d : Nat) (s : State) : (cutWire p w d s).glb.mode = s.glb.mode := by rfl

@[simp] theorem assertHold_mode (p : Nat) (s : State) : (assertHold p s).glb.mode = s.glb.mode := by
  unfold assertHold
  dsimp only
  (repeat' split) <;> simp

@[simp] theorem closeFrames_mode (p : Nat) (new : BitVec 8) (el : Nat) (s : State) :
    (closeFrames p new el s).glb.mode = s.glb.mode := by
  unfold closeFrames
  (repeat' split) <;> simp

@[simp] theorem startEntry_mode (p i : Nat) (el : Nat) (first : Bool) (s : State) :
    (startEntry p i el first s).glb.mode = s.glb.mode := by
  unfold startEntry
  dsimp only
  (repeat' split) <;> simp

@[simp] theorem midnight_mode (p net el : Nat) (first : Bool) (s : State) :
    (midnight p net el first s).glb.mode = s.glb.mode := by
  simp [midnight]

@[simp] theorem toMidnight_mode (p el e m : Nat) (first : Bool) (held : BitVec 8) (s : State) :
    (toMidnight p el e m first held s).glb.mode = s.glb.mode := by
  unfold toMidnight; split <;> simp

@[simp] theorem refill_mode (p t : Nat) (s : State) : (refill p t s).glb.mode = s.glb.mode := by
  unfold refill
  dsimp only
  (repeat' split) <;> simp

@[simp] theorem dropHead_mode (p t : Nat) (relay : Bool) (s : State) : (dropHead p t relay s).glb.mode = s.glb.mode := by
  unfold dropHead; split <;> simp

@[simp] theorem segmentStarts_mode (p t : Nat) (x : Staged) (s : State) :
    (segmentStarts p t x s).glb.mode = s.glb.mode := by
  unfold segmentStarts; split <;> simp

@[simp] theorem startFrame_mode (p t : Nat) (x : Staged) (relay : Bool) (at_ : Nat) (s : State) :
    (startFrame p t x relay at_ s).glb.mode = s.glb.mode := by
  simp [startFrame]

@[simp] theorem rimTape_mode (p : Nat) (t : List TapeEntry) (start : Nat) (s : State) :
    (rimTape p t start s).glb.mode = s.glb.mode := by rfl

@[simp] theorem rimTapeCancel_mode (p : Nat) (s : State) : (rimTapeCancel p s).glb.mode = s.glb.mode := by rfl

@[simp] theorem applyKinds_mode (p : Nat) (s : State) : (applyKinds p s).glb.mode = s.glb.mode := by
  unfold applyKinds
  dsimp only
  (repeat' split) <;> simp

@[simp] theorem takeTx_mode (p : Nat) (s : State) : (takeTx p s).glb.mode = s.glb.mode := by
  unfold takeTx
  dsimp only
  (repeat' split) <;> simp

@[simp] theorem rimGateClass_mode (p t : Nat) (pre : Bool) (us : Nat) (s : State) :
    (rimGateClass p t pre us s).glb.mode = s.glb.mode := by
  simp [rimGateClass]

@[simp] theorem rimGateClose_mode (p : Nat) (fit : Bool) (s : State) : (rimGateClose p fit s).glb.mode = s.glb.mode := by rfl

theorem bodyTapeLoad_mode (w : Issuer) (p : Packet) (l : List Byte) (s : State) :
    (actState (bodyTapeLoad.act w p l s)).glb.mode = s.glb.mode := by rfl

theorem bodyClassSet_mode (w : Issuer) (p : Packet) (l : List Byte) (s : State) :
    (actState (bodyClassSet.act w p l s)).glb.mode = s.glb.mode := by rfl

theorem bodyCloseMode_mode (w : Issuer) (p : Packet) (l : List Byte) (s : State) :
    (actState (bodyCloseMode.act w p l s)).glb.mode = s.glb.mode := by rfl

theorem bodyTapeCancel_mode (w : Issuer) (p : Packet) (l : List Byte) (s : State) :
    (actState (bodyTapeCancel.act w p l s)).glb.mode = s.glb.mode := by rfl

theorem bodyGateQuery_mode (w : Issuer) (p : Packet) (l : List Byte) (s : State) :
    (actState (bodyGateQuery.act w p l s)).glb.mode = s.glb.mode := by rfl

@[simp] theorem putOp_mode (s : State) (t : Nat) (o : Op) : (putOp s t o).glb.mode = s.glb.mode := by rfl

@[simp] theorem freeLater_mode (use n : Nat) (s : State) : (freeLater use n s).glb.mode = s.glb.mode := by
  unfold freeLater; split <;> simp

@[simp] theorem freeNow_mode (use n : Nat) (s : State) : (freeNow use n s).glb.mode = s.glb.mode := by
  unfold freeNow
  (repeat' split) <;> simp

@[simp] theorem freeCommitted_mode (s : State) : (freeCommitted s).glb.mode = s.glb.mode := by
  simp [freeCommitted, foldl_mode]

@[simp] theorem completeOp_mode (t status : Nat) (flags : Byte) (result : Nat) (ts : Ts) (s : State) :
    (completeOp t status flags result ts s).glb.mode = s.glb.mode := by
  unfold completeOp
  dsimp only
  (repeat' split) <;> simp

@[simp] theorem settleTx_mode (l : List Nat) (s : State) : (settleTx l s).glb.mode = s.glb.mode := by
  fun_induction settleTx l s <;> simp_all

@[simp] theorem finishTx_mode (t : Nat) (s : State) : (finishTx t s).glb.mode = s.glb.mode := by
  unfold finishTx
  (repeat' split) <;> simp

@[simp] theorem completeRx_mode (t code : Nat) (o : Op) (s : State) : (completeRx t code o s).glb.mode = s.glb.mode := by
  unfold completeRx; split <;> simp

@[simp] theorem settleRx_mode (l : List Nat) (s : State) : (settleRx l s).glb.mode = s.glb.mode := by
  fun_induction settleRx l s <;> simp_all

@[simp] theorem finishRx_mode (t code : Nat) (s : State) : (finishRx t code s).glb.mode = s.glb.mode := by
  unfold finishRx; split <;> simp

@[simp] theorem failOp_mode (t status : Nat) (s : State) : (failOp t status s).glb.mode = s.glb.mode := by
  unfold failOp
  (repeat' split) <;> simp

@[simp] theorem countExpired_mode (p : Nat) (s : State) : (countExpired p s).glb.mode = s.glb.mode := by rfl

@[simp] theorem putTxts_mode (s : State) (p : Nat) (q : TxTsQ) : (putTxts s p q).glb.mode = s.glb.mode := by rfl

@[simp] theorem pushTxts_mode (p : Nat) (ts : Ts) (ref : W32) (s : State) :
    (pushTxts p ts ref s).glb.mode = s.glb.mode := by
  unfold pushTxts
  dsimp only
  (repeat' split) <;> simp

@[simp] theorem popTxts_mode (p : Nat) (s : State) : (popTxts p s).1.glb.mode = s.glb.mode := by
  unfold popTxts
  dsimp only
  (repeat' split) <;> simp

@[simp] theorem putFlow_mode (s : State) (f : Nat) (x : FlowQ) : (putFlow s f x).glb.mode = s.glb.mode := by rfl

@[simp] theorem putVt_mode (s : State) (p t v : Nat) : (putVt s p t v).glb.mode = s.glb.mode := by rfl

@[simp] theorem becomeHead_mode (f : Nat) (wasEmpty : Bool) (s : State) :
    (becomeHead f wasEmpty s).glb.mode = s.glb.mode := by
  unfold becomeHead
  dsimp only
  (repeat' split) <;> simp

@[simp] theorem enqueue_mode (f : Nat) (e : Elem) (s : State) : (enqueue f e s).glb.mode = s.glb.mode := by
  unfold enqueue
  dsimp only
  (repeat' split) <;> simp

@[simp] theorem dequeue_mode (f : Nat) (s : State) : (dequeue f s).glb.mode = s.glb.mode := by
  simp [dequeue]

@[simp] theorem enterFlow_mode (f : Nat) (kind : ElemKind) (tag : Option Nat) (bytes : List Byte) (s : State) :
    (enterFlow f kind tag bytes s).glb.mode = s.glb.mode := by
  unfold enterFlow
  dsimp only
  (repeat' split) <;> simp [foldl_mode]

@[simp] theorem measure_mode (f p t d : Nat) (s : State) : (measure f p t d s).glb.mode = s.glb.mode := by
  unfold measure
  refine foldl_mode _ (fun s a => ?_) _ _
  dsimp only; (repeat' split) <;> simp

@[simp] theorem stage_mode (p t : Nat) (x : Staged) (s : State) : (stage p t x s).glb.mode = s.glb.mode := by rfl

@[simp] theorem charge_mode (f p t lc tag : Nat) (s : State) : (charge f p t lc tag s).glb.mode = s.glb.mode := by rfl

@[simp] theorem countWaiting_mode (p t : Nat) (s : State) : (countWaiting p t s).glb.mode = s.glb.mode := by
  unfold countWaiting
  refine foldl_mode _ (fun s a => ?_) _ _
  (repeat' split) <;> simp [countWaiting.portCountWaited]

@[simp] theorem releaseChan_mode (c : Nat) (s : State) : (releaseChan c s).glb.mode = s.glb.mode := by rfl

@[simp] theorem endPrefetch_mode (tag : Nat) (s : State) : (endPrefetch tag s).glb.mode = s.glb.mode := by
  unfold endPrefetch
  (repeat' split) <;> simp

@[simp] theorem dropStream_mode (f tag : Nat) (s : State) : (dropStream f tag s).glb.mode = s.glb.mode := by
  unfold dropStream
  dsimp only
  (repeat' split) <;> simp

@[simp] theorem dropFlow_mode (ts : List Nat) (s : State) (f : Nat) : (dropFlow ts s f).glb.mode = s.glb.mode := by
  unfold dropFlow
  dsimp only
  (repeat' split) <;> simp

@[simp] theorem putPtp_mode (p : Nat) (x : Staged) (s : State) : (putPtp p x s).glb.mode = s.glb.mode := by rfl

@[simp] theorem flushPtp_mode (l : List (Nat × Staged)) (s : State) : (flushPtp l s).glb.mode = s.glb.mode := by
  fun_induction flushPtp l s <;> simp_all

@[simp] theorem settleDuePtp_mode (s : State) : (settleDuePtp s).glb.mode = s.glb.mode := by
  unfold settleDuePtp; split <;> simp

@[simp] theorem stagePtp_mode (p ty slot seq : Nat) (cap : Option Ts) (s : State) :
    (stagePtp p ty slot seq cap s).glb.mode = s.glb.mode := by
  simp only [stagePtp]; split <;> simp

@[simp] theorem putDelay_mode (s : State) (p k : Nat) (x : PtpDelay) : (putDelay s p k x).glb.mode = s.glb.mode := by rfl

@[simp] theorem noteReq_mode (p k seq : Nat) (ts : Ts) (s : State) : (noteReq p k seq ts s).glb.mode = s.glb.mode := by rfl

@[simp] theorem ptpFollow_mode (p : Nat) (x : Staged) (ts : Ts) (s : State) :
    (ptpFollow p x ts s).glb.mode = s.glb.mode := by
  unfold ptpFollow
  dsimp only
  (repeat' split) <;> simp

@[simp] theorem consumeDepart_mode (p : Nat) (x : Staged) (left : Bool) (ts : Ts) (s : State) :
    (consumeDepart p x left ts s).glb.mode = s.glb.mode := by
  unfold consumeDepart
  dsimp only
  (repeat' split) <;> simp

@[simp] theorem consumeDeparts_mode (s : State) : (consumeDeparts s).glb.mode = s.glb.mode := by
  unfold consumeDeparts
  split
  · dsimp only
    rw [settleDuePtp_mode, foldl_mode _ (fun s a => consumeAt_mode _ _ _ (fun s => by simp))]
  · rfl

@[simp] theorem reportDepart_mode (p t : Nat) (x : Staged) (left : Bool) (ts : Ts) (s : State) :
    (reportDepart p t x left ts s).glb.mode = s.glb.mode := by
  unfold reportDepart; split <;> simp

@[simp] theorem countTx_mode (p : Nat) (w : OnWire) (s : State) : (countTx p w s).glb.mode = s.glb.mode := by
  unfold countTx
  (repeat' split) <;> simp

@[simp] theorem endWire_mode (p : Nat) (w : OnWire) (s : State) : (endWire p w s).glb.mode = s.glb.mode := by
  unfold endWire
  (repeat' split) <;> simp

@[simp] theorem endExpired_mode (p : Nat) (e : Elem) (s : State) : (endExpired p e s).glb.mode = s.glb.mode := by
  unfold endExpired
  dsimp only
  (repeat' split) <;> simp

@[simp] theorem expireHead_mode (f : Nat) (s : State) : (expireHead f s).glb.mode = s.glb.mode := by
  unfold expireHead
  dsimp only
  (repeat' split) <;> simp

@[simp] theorem expireAt_mode (f : Nat) (before : List Elem) (e : Elem) (behind : List Elem) (s : State) :
    (expireAt f before e behind s).glb.mode = s.glb.mode := by
  unfold expireAt; split <;> simp

theorem bodyFlowSet_mode (w : Issuer) (p : Packet) (l : List Byte) (s : State) :
    (actState (bodyFlowSet.act w p l s)).glb.mode = s.glb.mode := by rfl

theorem bodyFlowDisable_mode (w : Issuer) (p : Packet) (l : List Byte) (s : State) :
    (actState (bodyFlowDisable.act w p l s)).glb.mode = s.glb.mode := by rfl

theorem bodySchQuery_mode (w : Issuer) (p : Packet) (l : List Byte) (s : State) :
    (actState (bodySchQuery.act w p l s)).glb.mode = s.glb.mode := by rfl

@[simp] theorem sendLldp_mode (p : Nat) (s : State) : (sendLldp p s).glb.mode = s.glb.mode := by
  unfold sendLldp; split <;> simp

@[simp] theorem abortTx_mode (p : Nat) (s : State) : (abortTx p s).glb.mode = s.glb.mode := by
  unfold abortTx
  dsimp only
  (repeat' split) <;> simp

@[simp] theorem rxPop_mode (p : Nat) (s : State) : (rxPop p s).glb.mode = s.glb.mode := by
  unfold rxPop
  dsimp only
  (repeat' split) <;> simp

@[simp] theorem dropRx_mode (p : Nat) (s : State) : (dropRx p s).glb.mode = s.glb.mode := by
  unfold dropRx; split <;> simp

@[simp] theorem abortRx_mode (p : Nat) (s : State) : (abortRx p s).glb.mode = s.glb.mode := by
  simp [abortRx]

@[simp] theorem laneDown_mode (p : Nat) (lock : Bool) (s : State) : (laneDown p lock s).glb.mode = s.glb.mode := by
  unfold laneDown; split <;> simp

@[simp] theorem linkLost_mode (p : Nat) (lock : Bool) (s : State) : (linkLost p lock s).glb.mode = s.glb.mode := by
  unfold linkLost
  dsimp only
  (repeat' split) <;> simp

/-- A reservation that is made leaves it. -/
theorem reserve_mode {p n : Nat} {s t : State} (e : reserve p n s = some t) : t.glb.mode = s.glb.mode := by
  unfold reserve at e
  simp only at e
  split at e
  · cases e; simp
  · cases e

@[simp] theorem rimPortSet_mode (p speed iface maxlen : Nat) (bad eee : Bool) (s : State) :
    (rimPortSet p speed iface maxlen bad eee s).glb.mode = s.glb.mode := by
  unfold rimPortSet
  dsimp only
  (repeat' split) <;> simp

@[simp] theorem noteKeep_mode (p : Nat) (s : State) : (noteKeep p s).glb.mode = s.glb.mode := by
  unfold noteKeep
  dsimp only
  (repeat' split) <;> simp

@[simp] theorem noteKeeps_mode (s : State) : (noteKeeps s).glb.mode = s.glb.mode := by
  unfold noteKeeps
  exact foldl_mode _ (fun s a => by simp) _ _

@[simp] theorem asSeen_mode (p : Nat) (s : State) : (asSeen p s).glb.mode = s.glb.mode := by
  unfold asSeen; split <;> simp

@[simp] theorem rimPortEnable_mode (p : Nat) (en : Bool) (s : State) : (rimPortEnable p en s).glb.mode = s.glb.mode := by
  simp [rimPortEnable]

@[simp] theorem rimPortFilter_mode (p i : Nat) (valid : Bool) (mac : BitVec 48) (s : State) :
    (rimPortFilter p i valid mac s).glb.mode = s.glb.mode := by
  simp [rimPortFilter]

@[simp] theorem rimPortPeer_mode (p : Nat) (tw : Option Nat) (addFrag : BitVec 2) (s : State) :
    (rimPortPeer p tw addFrag s).glb.mode = s.glb.mode := by
  unfold rimPortPeer; split <;> simp

@[simp] theorem rimPortRecal_mode (p : Nat) (s : State) : (rimPortRecal p s).glb.mode = s.glb.mode := by
  simp [rimPortRecal]

theorem bodyPortSet_mode (w : Issuer) (p : Packet) (l : List Byte) (s : State) :
    (actState (bodyPortSet.act w p l s)).glb.mode = s.glb.mode := by rfl

theorem bodyPortEnable_mode (w : Issuer) (p : Packet) (l : List Byte) (s : State) :
    (actState (bodyPortEnable.act w p l s)).glb.mode = s.glb.mode := by
  dsimp only [bodyPortEnable]
  (repeat' split) <;> simp [actState]

theorem bodyPortFilterSet_mode (w : Issuer) (p : Packet) (l : List Byte) (s : State) :
    (actState (bodyPortFilterSet.act w p l s)).glb.mode = s.glb.mode := by rfl

theorem bodyPortEeeSet_mode (w : Issuer) (p : Packet) (l : List Byte) (s : State) :
    (actState (bodyPortEeeSet.act w p l s)).glb.mode = s.glb.mode := by rfl

theorem bodyPortRecal_mode (w : Issuer) (p : Packet) (l : List Byte) (s : State) :
    (actState (bodyPortRecal.act w p l s)).glb.mode = s.glb.mode := by rfl

theorem bodyPortQuery_mode (w : Issuer) (p : Packet) (l : List Byte) (s : State) :
    (actState (bodyPortQuery.act w p l s)).glb.mode = s.glb.mode := by rfl

@[simp] theorem writeDb_mode (h q : Nat) (aligned : Bool) (v : W32) (s : State) :
    (writeDb h q aligned v s).glb.mode = s.glb.mode := by
  unfold writeDb
  dsimp only
  (repeat' split) <;> simp

@[simp] theorem pushError_mode (h q : Nat) (x : Sq) (s : State) : (pushError h q x s).glb.mode = s.glb.mode := by
  simp [pushError]

@[simp] theorem pushSlots_mode (h q : Nat) (l : List (List Byte)) (s : State) :
    (pushSlots h q l s).glb.mode = s.glb.mode := by
  fun_induction pushSlots h q l s <;> simp_all

@[simp] theorem writePush_mode (h q off : Nat) (bytes : List Byte) (s : State) :
    (writePush h q off bytes s).glb.mode = s.glb.mode := by
  unfold writePush
  dsimp only
  (repeat' split) <;> simp

@[simp] theorem startTurn_mode (h q slots : Nat) (x : Sq) (s : State) :
    (startTurn h q slots x s).glb.mode = s.glb.mode := by rfl

@[simp] theorem noteTurn_mode (h : Nat) (admin : Bool) (s : State) : (noteTurn h admin s).glb.mode = s.glb.mode := by rfl

@[simp] theorem takeEntries_mode (h q : Nat) (x : Sq) (first : Idx) (l : List Taken) (stalled : Bool) (turn : Option FetchTurn) (s : State) :
    (takeEntries h q x first l stalled turn s).glb.mode = s.glb.mode := by
  unfold takeEntries
  simp only [putSq_mode]
  exact foldl_mode _ (fun s a => by simp) _ _

@[simp] theorem noteFault_mode (h q : Nat) (first : Idx) (n : Nat) (s : State) :
    (noteFault h q first n s).glb.mode = s.glb.mode := by rfl

@[simp] theorem dropTurns_mode (s : State) : (dropTurns s).glb.mode = s.glb.mode := by rfl

@[simp] theorem markStaged_mode (t : Nat) (s : State) : (markStaged t s).glb.mode = s.glb.mode := by rfl

@[simp] theorem adminFault_mode (h : Nat) (e : FetchErr) (s : State) : (adminFault h e s).glb.mode = s.glb.mode := by rfl

@[simp] theorem takePlace_mode (h c : Nat) (s : State) : (takePlace h c s).glb.mode = s.glb.mode := by
  unfold takePlace
  dsimp only
  (repeat' split) <;> simp

@[simp] theorem takeTag_mode (h q t : Nat) (x : Sq) (es : List Taken) (o : Op) (s : State) :
    (takeTag h q t x es o s).glb.mode = s.glb.mode := by
  simp [takeTag]

/-- The rows of a submission entry, where what the row runs leaves it. -/
theorem startNow_mode (h : Host) (q : QId) (t : OpTag) (mine : List Byte → Bool) (kind : OpKind)
    (extra : State → List Byte → List Finding) (ready : State → Sq → Bool) (run : Nat → Taken → State → State) (s : State)
    (hr : ∀ t e s, (run t e s).glb.mode = s.glb.mode) :
    (startNow h q t mine kind extra ready run s).glb.mode = s.glb.mode := by
  unfold startNow
  dsimp only
  (repeat' split) <;> simp [hr]

@[simp] theorem asOf_mode (e : Taken) (s : State) : (asOf e s).glb.mode = s.glb.mode := by
  unfold asOf; split <;> simp

@[simp] theorem goOn_mode (e : Taken) (s t : State) : (goOn e s t).glb.mode = t.glb.mode := by
  unfold goOn; split <;> simp

/-- The same at the record's own times. -/
theorem startRow_mode (h : Host) (q : QId) (t : OpTag) (mine : List Byte → Bool) (kind : OpKind)
    (extra : State → List Byte → List Finding) (ready : State → Sq → Bool) (run : Nat → Taken → State → State) (s : State)
    (hr : ∀ t e s, (run t e s).glb.mode = s.glb.mode) :
    (startRow h q t mine kind extra ready run s).glb.mode = s.glb.mode := by
  unfold startRow
  split
  · rfl
  · rw [goOn_mode, startNow_mode _ _ _ _ _ _ _ _ _ hr, asOf_mode]

@[simp] theorem updOp_mode (t : Nat) (f : Op → Op) (s : State) : (updOp t f s).glb.mode = s.glb.mode := by
  unfold updOp; split <;> simp

@[simp] theorem endFence_mode (h q t n : Nat) (s : State) : (endFence h q t n s).glb.mode = s.glb.mode := by
  unfold endFence; split <;> simp

@[simp] theorem laneStage_mode (f p tc t : Nat) (b : List Byte) (s : State) :
    (laneStage f p tc t b s).glb.mode = s.glb.mode := by
  unfold laneStage
  dsimp only
  (repeat' split) <;> simp [foldl_mode]

@[simp] theorem noteWritten_mode (i : CqItem) (s : State) : (noteWritten i s).glb.mode = s.glb.mode := by
  unfold noteWritten
  (repeat' split) <;> simp

@[simp] theorem writeSlot_mode (h c : Nat) (x : Cq) (i : CqItem) (s : State) :
    (writeSlot h c x i s).glb.mode = s.glb.mode := by
  unfold writeSlot; split <;> simp

@[simp] theorem writeItem_mode (h c : Nat) (i : CqItem) (s : State) : (writeItem h c i s).glb.mode = s.glb.mode := by
  unfold writeItem
  (repeat' split) <;> simp

@[simp] theorem settleAq_mode (h : Nat) (s : State) : (settleAq h s).glb.mode = s.glb.mode := by
  unfold settleAq
  dsimp only
  (repeat' split) <;> simp

@[simp] theorem putStatus_mode (h : Nat) (x : DueStatus) (rest : List DueStatus) (s : State) :
    (putStatus h x rest s).glb.mode = s.glb.mode := by
  simp [putStatus]

@[simp] theorem freeItems_mode (h c : Nat) (l : List CqItem) (s : State) : (freeItems h c l s).glb.mode = s.glb.mode := by
  unfold freeItems
  dsimp only
  (repeat' split) <;> simp

@[simp] theorem writeCi_mode (h q : Nat) (aligned : Bool) (v : W32) (s : State) :
    (writeCi h q aligned v s).glb.mode = s.glb.mode := by
  unfold writeCi
  dsimp only
  (repeat' split) <;> simp

@[simp] theorem writePage_mode (h a : Nat) (enables : BitVec 4) (v : W32) (s : State) :
    (writePage h a enables v s).glb.mode = s.glb.mode := by
  unfold writePage
  dsimp only
  (repeat' split) <;> simp

@[simp] theorem rewriteAll_mode (s : State) : (rewriteAll s).glb.mode = s.glb.mode := by
  unfold rewriteAll
  refine foldl_mode _ (fun s a => ?_) _ _
  dsimp only
  split <;> simp

@[simp] theorem freeBytes_mode (l : Nat) (s : State) : (freeBytes l s).2.glb.mode = s.glb.mode := by
  induction l generalizing s <;> simp_all [freeBytes]

@[simp] theorem writeBuf_mode (c h dst : Nat) (last : Bool) (s : State) :
    (writeBuf c h dst last s).glb.mode = s.glb.mode := by rfl

@[simp] theorem issueRead_mode (c : Nat) (s : State) : (issueRead c s).glb.mode = s.glb.mode := by
  unfold issueRead
  dsimp only
  (repeat' split) <;> simp

@[simp] theorem dmaTurns_mode (l : Nat) (s : State) : (dmaTurns l s).glb.mode = s.glb.mode := by
  fun_induction dmaTurns l s <;> simp_all

@[simp] theorem dmaGo_mode (s : State) : (dmaGo s).glb.mode = s.glb.mode := by
  unfold dmaGo; split <;> simp

@[simp] theorem streamData_mode (d : Desc) (offs : List Nat) (l : List Byte) (s : State) :
    (streamData d offs l s).2.glb.mode = s.glb.mode := by
  unfold streamData; split <;> simp

@[simp] theorem takeXfer_mode (c : Nat) (x : ChanSt) (l : List Byte) (s : State) :
    (takeXfer c x l s).glb.mode = s.glb.mode := by
  simp [takeXfer]

@[simp] theorem takeCopy_mode (c : Nat) (x : ChanSt) (o : Op) (l : List Byte) (s : State) :
    (takeCopy c x o l s).glb.mode = s.glb.mode := by
  unfold takeCopy
  dsimp only
  (repeat' split) <;> simp

@[simp] theorem takeRxWrite_mode (c : Nat) (x : ChanSt) (o : Op) (l : List Byte) (s : State) :
    (takeRxWrite c x o l s).glb.mode = s.glb.mode := by rfl

@[simp] theorem noteRead_mode (r : ReadReq) (s : State) : (noteRead r s).glb.mode = s.glb.mode := by
  unfold noteRead; split <;> simp

@[simp] theorem takeRead_mode (c : Nat) (s : State) : (takeRead c s).glb.mode = s.glb.mode := by
  simp only [takeRead]
  (repeat' split) <;> simp

@[simp] theorem arrive_mode (c : Nat) (bytes : List Byte) (s : State) : (arrive c bytes s).glb.mode = s.glb.mode := by
  unfold arrive
  dsimp only
  (repeat' split) <;> simp

@[simp] theorem poolError_mode (c code : Nat) (addr : BitVec 64) (s : State) :
    (poolError c code addr s).glb.mode = s.glb.mode := by
  unfold poolError
  dsimp only
  (repeat' split) <;> simp

@[simp] theorem poolErrors_mode (c code : Nat) (addr : BitVec 64) (also : Option PoolFault) (s : State) :
    (poolErrors c code addr also s).glb.mode = s.glb.mode := by
  unfold poolErrors
  (repeat' split) <;> simp

@[simp] theorem freeChan_mode (c : Nat) (s : State) : (freeChan c s).glb.mode = s.glb.mode := by rfl

@[simp] theorem fwStart_mode (c : Nat) (s : State) : (fwStart c s).glb.mode = s.glb.mode := by rfl

@[simp] theorem fwNext_mode (c : Nat) (more : Bool) (s : State) : (fwNext c more s).glb.mode = s.glb.mode := by
  unfold fwNext; split <;> simp

@[simp] theorem fwEnd_mode (c n : Nat) (more : Bool) (s : State) : (fwEnd c n more s).glb.mode = s.glb.mode := by
  simp [fwEnd]

@[simp] theorem withdrawn_mode (c residue : Nat) (s : State) : (withdrawn c residue s).glb.mode = s.glb.mode := by rfl

@[simp] theorem resumeChan_mode (c : Nat) (s : State) : (resumeChan c s).glb.mode = s.glb.mode := by
  unfold resumeChan
  dsimp only
  (repeat' split) <;> simp

@[simp] theorem poolRun_mode (s : State) : (poolRun s).glb.mode = s.glb.mode := by
  simp only [poolRun, dmaGo_mode]
  rw [foldl_mode _ (fun s a => by split <;> simp)]

@[simp] theorem poolResume_mode (s : State) : (poolResume s).glb.mode = s.glb.mode := by
  unfold poolResume; split <;> simp

@[simp] theorem poolAbort_mode (s : State) : (poolAbort s).glb.mode = s.glb.mode := by
  simp only [poolAbort]; split
  · rw [poolRun_mode, foldl_mode _ (fun s a => by split <;> simp)]
  · rfl

@[simp] theorem dropReads_mode (s : State) : (dropReads s).glb.mode = s.glb.mode := by rfl

@[simp] theorem endTxCopy_mode (t : Nat) (bytes : List Byte) (o : Op) (s : State) :
    (endTxCopy t bytes o s).glb.mode = s.glb.mode := by
  unfold endTxCopy
  (repeat' split) <;> simp

@[simp] theorem endOp_mode (t : Nat) (x : ChanSt) (s : State) : (endOp t x s).glb.mode = s.glb.mode := by
  unfold endOp
  dsimp only
  (repeat' split) <;> simp

@[simp] theorem putFld_mode (s : State) (n : Nat) (x : FldP) : (putFld s n x).glb.mode = s.glb.mode := by rfl

@[simp] theorem fldCount_mode (n c k : Nat) (s : State) : (fldCount n c k s).glb.mode = s.glb.mode := by rfl

theorem bodyFldPortSet_mode (w : Issuer) (p : Packet) (l : List Byte) (s : State) :
    (actState (bodyFldPortSet.act w p l s)).glb.mode = s.glb.mode := by rfl

theorem bodyFldQuery_mode (w : Issuer) (p : Packet) (l : List Byte) (s : State) :
    (actState (bodyFldQuery.act w p l s)).glb.mode = s.glb.mode := by rfl

@[simp] theorem startField_mode (n : Nat) (s : State) : (startField n s).glb.mode = s.glb.mode := by
  unfold startField
  dsimp only
  (repeat' split) <;> simp

@[simp] theorem leaveBus_mode (n : Nat) (s : State) : (leaveBus n s).glb.mode = s.glb.mode := by
  unfold leaveBus
  dsimp only
  (repeat' split) <;> simp

@[simp] theorem failDirect_mode (n : Nat) (s : State) : (failDirect n s).glb.mode = s.glb.mode := by
  unfold failDirect
  exact foldl_mode _ (fun s a => by split <;> simp) _ _

@[simp] theorem applyField_mode (n : Nat) (s : State) : (applyField n s).glb.mode = s.glb.mode := by
  unfold applyField
  dsimp only
  (repeat' split) <;> simp

@[simp] theorem fieldsOff_mode (s : State) : (fieldsOff s).glb.mode = s.glb.mode := by
  unfold fieldsOff
  dsimp only
  (repeat' split) <;> simp [foldl_mode]

@[simp] theorem goBusOff_mode (n : Nat) (s : State) : (goBusOff n s).glb.mode = s.glb.mode := by
  simp [goBusOff]

@[simp] theorem fieldGood_mode (n r : Nat) (f : FldFrame) (s : State) : (fieldGood n r f s).glb.mode = s.glb.mode := by
  unfold fieldGood
  dsimp only
  (repeat' split) <;> simp

@[simp] theorem fieldDrop_mode (n c r : Nat) (s : State) : (fieldDrop n c r s).glb.mode = s.glb.mode := by rfl

@[simp] theorem fieldAbort_mode (n r : Nat) (s : State) : (fieldAbort n r s).glb.mode = s.glb.mode := by
  simp [fieldAbort]

@[simp] theorem cutField_mode (n : Nat) (s : State) : (cutField n s).glb.mode = s.glb.mode := by
  unfold cutField
  dsimp only
  (repeat' split) <;> simp

@[simp] theorem fieldEnd_mode (n r : Nat) (f : FldFrame) (s : State) : (fieldEnd n r f s).glb.mode = s.glb.mode := by
  unfold fieldEnd
  dsimp only
  (repeat' split) <;> simp

@[simp] theorem fieldMoved_mode (n k : Nat) (s : State) : (fieldMoved n k s).glb.mode = s.glb.mode := by
  simp [fieldMoved]

@[simp] theorem takeEnqueue_mode (n : Nat) (f : FldTx) (s : State) : (takeEnqueue n f s).glb.mode = s.glb.mode := by
  unfold takeEnqueue
  dsimp only
  (repeat' split) <;> simp

@[simp] theorem decideEnqueue_mode (n : Nat) (f : FldFrame) (s : State) : (decideEnqueue n f s).glb.mode = s.glb.mode := by rfl

@[simp] theorem putAgg_mode (s : State) (a : Nat) (x : Agg) : (putAgg s a x).glb.mode = s.glb.mode := by rfl

theorem bodyAggLoad_mode (w : Issuer) (p : Packet) (l : List Byte) (s : State) :
    (actState (bodyAggLoad.act w p l s)).glb.mode = s.glb.mode := by rfl

@[simp] theorem loadAgg_mode (a : Nat) (l : List Byte) (s : State) : (loadAgg a l s).glb.mode = s.glb.mode := by
  unfold loadAgg; split <;> simp

@[simp] theorem triggerRun_mode (ref i : Nat) (s : State) : (triggerRun ref i s).glb.mode = s.glb.mode := by
  unfold triggerRun
  dsimp only
  (repeat' split) <;> simp

@[simp] theorem scatterWrite_mode (l : List (Nat × Nat × Nat)) (m : List Byte) (s : State) :
    (scatterWrite l m s).glb.mode = s.glb.mode := by
  fun_induction scatterWrite l m s <;> simp_all

@[simp] theorem imageBytes_mode (l : Nat) (s : State) : (imageBytes l s).2.glb.mode = s.glb.mode := by
  induction l generalizing s <;> simp_all [imageBytes]

@[simp] theorem badImage_mode (n : Nat) (s : State) : (badImage n s).glb.mode = s.glb.mode := by rfl

@[simp] theorem enqueueImage_mode (a n : Nat) (s : State) : (enqueueImage a n s).1.glb.mode = s.glb.mode := by
  unfold enqueueImage
  dsimp only
  (repeat' split) <;> simp

@[simp] theorem enqueueImages_mode (a : Nat) (l : List Nat) (s : State) :
    (enqueueImages a l s).1.glb.mode = s.glb.mode := by
  induction l generalizing s <;> simp_all [enqueueImages]

@[simp] theorem scatterEnd_mode (a : Nat) (s : State) : (scatterEnd a s).glb.mode = s.glb.mode := by
  unfold scatterEnd
  dsimp only
  (repeat' split) <;> simp

@[simp] theorem scatterRun_mode (a : Nat) (src : List Byte) (t : Option Nat) (s : State) :
    (scatterRun a src t s).glb.mode = s.glb.mode := by
  simp [scatterRun]

@[simp] theorem directSend_mode (a t : Nat) (s : State) : (directSend a t s).glb.mode = s.glb.mode := by
  unfold directSend
  (repeat' split) <;> simp

@[simp] theorem settleDirect_mode (s : State) : (settleDirect s).glb.mode = s.glb.mode := by
  simp only [settleDirect]
  (repeat' split) <;> simp [foldl_mode]

@[simp] theorem sourceFault_mode (h : Host) (q : QId) (t : OpTag) (src : ReadEnd) (s v : State) :
    (sourceFault h q t src s v).glb.mode = v.glb.mode := by
  unfold sourceFault
  (repeat' split) <;> simp

@[simp] theorem claimFrame_mode (i : Nat) (a : Agg) (f : List Byte) (s : State) :
    (claimFrame i a f s).glb.mode = s.glb.mode := by
  unfold claimFrame
  (repeat' split) <;> simp

@[simp] theorem fieldSent_mode (n c : Nat) (f : FldTx) (x : FldP) (s : State) :
    (fieldSent n c f x s).glb.mode = s.glb.mode := by
  simp [fieldSent]

@[simp] theorem failRun_mode (c status : Nat) (s : State) : (failRun c status s).glb.mode = s.glb.mode := by
  unfold failRun
  dsimp only
  (repeat' split) <;> simp

@[simp] theorem abandonRx_mode (s : State) : (abandonRx s).glb.mode = s.glb.mode := by
  unfold abandonRx; split <;> simp

@[simp] theorem abandonTx_mode (s : State) : (abandonTx s).glb.mode = s.glb.mode := by
  unfold abandonTx; split <;> simp

@[simp] theorem endServed_mode (c status : Nat) (s : State) : (endServed c status s).glb.mode = s.glb.mode := by
  unfold endServed
  (repeat' split) <;> simp

@[simp] theorem setId_mode (st id : Nat) (s : State) : (setId st id s).glb.mode = s.glb.mode := by rfl

@[simp] theorem sendCtl_mode (p : Nat) (bytes : List Byte) (s : State) : (sendCtl p bytes s).glb.mode = s.glb.mode := by
  unfold sendCtl
  dsimp only
  (repeat' split) <;> simp

@[simp] theorem enterConflict_mode (uid : BitVec 64) (s : State) : (enterConflict uid s).glb.mode = s.glb.mode := by
  unfold enterConflict
  (repeat' split) <;> simp

@[simp] theorem yieldId_mode (s : State) : (yieldId s).glb.mode = s.glb.mode := by rfl

@[simp] theorem judgeId_mode (uid : BitVec 64) (id : BitVec 12) (st : BitVec 2) (otherGiven : Bool) (s : State) :
    (judgeId uid id st otherGiven s).glb.mode = s.glb.mode := by
  unfold judgeId
  (repeat' split) <;> simp

@[simp] theorem endConflict_mode (s : State) : (endConflict s).glb.mode = s.glb.mode := by
  unfold endConflict
  (repeat' split) <;> simp

@[simp] theorem markConflicts_mode (s : State) : (markConflicts s).glb.mode = s.glb.mode := by
  unfold markConflicts
  dsimp only
  (repeat' split) <;> simp

@[simp] theorem takeHello_mode (p : Nat) (x : Hello) (s : State) : (takeHello p x s).glb.mode = s.glb.mode := by
  unfold takeHello
  dsimp only
  (repeat' split) <;> simp

@[simp] theorem keepFab_mode (x : FabIn) (s : State) : (keepFab x s).glb.mode = s.glb.mode := by
  unfold keepFab; split <;> simp

@[simp] theorem trimDb_mode (s : State) : (trimDb s).glb.mode = s.glb.mode := by
  unfold trimDb
  dsimp only
  (repeat' split) <;> simp

@[simp] theorem putTopo_mode (m : TopoMsg) (s : State) : (putTopo m s).glb.mode = s.glb.mode := by rfl

@[simp] theorem floodTopo_mode (p : Nat) (m : TopoMsg) (s : State) : (floodTopo p m s).glb.mode = s.glb.mode := by
  unfold floodTopo
  exact foldl_mode _ (fun s a => by split <;> simp) _ _

@[simp] theorem takeTopo_mode (p : Nat) (m : TopoMsg) (s : State) : (takeTopo p m s).glb.mode = s.glb.mode := by
  unfold takeTopo
  (repeat' split) <;> simp

@[simp] theorem consumeFab_mode (s : State) : (consumeFab s).glb.mode = s.glb.mode := by
  unfold consumeFab
  split
  · rw [foldl_mode _ (fun s a => ?_)]
    obtain ⟨a, st⟩ := a
    cases a <;> exact consumeAt_mode _ _ _ (fun s => by simp)
  · rfl

theorem bodyRouteLoad_mode (w : Issuer) (p : Packet) (l : List Byte) (s : State) :
    (actState (bodyRouteLoad.act w p l s)).glb.mode = s.glb.mode := by rfl

theorem bodyFabSet_mode (w : Issuer) (p : Packet) (l : List Byte) (s : State) :
    (actState (bodyFabSet.act w p l s)).glb.mode = s.glb.mode := by rfl

theorem bodyBypassSet_mode (w : Issuer) (p : Packet) (l : List Byte) (s : State) :
    (actState (bodyBypassSet.act w p l s)).glb.mode = s.glb.mode := by rfl

theorem bodyFabQuery_mode (w : Issuer) (p : Packet) (l : List Byte) (s : State) :
    (actState (bodyFabQuery.act w p l s)).glb.mode = s.glb.mode := by rfl

@[simp] theorem rimFabEnable_mode (en given : Bool) (st id : Nat) (s : State) :
    (rimFabEnable en given st id s).glb.mode = s.glb.mode := by
  have hb : ∀ t : State, (bypDrive { t with fab := { t.fab with en := en, given := given, idState := st, nodeId := id } }).glb.mode = t.glb.mode :=
    fun t => bypDrive_mode _
  exact (hb (noteKeeps s)).trans (noteKeeps_mode s)

@[simp] theorem rimBypassForce_mode (k : Nat) (on : Bool) (s : State) : (rimBypassForce k on s).glb.mode = s.glb.mode := by rfl

@[simp] theorem bypFailed_mode (k : Nat) (s : State) : (bypFailed k s).glb.mode = s.glb.mode := by
  unfold bypFailed; split <;> simp

@[simp] theorem countRelayed_mode (p : Nat) (s : State) : (countRelayed p s).glb.mode = s.glb.mode := by
  simp [countRelayed]

@[simp] theorem cutTo_mode (p e tc at_ : Nat) (bad : Bool) (f : List Byte) (s : State) :
    (cutTo p e tc at_ bad f s).glb.mode = s.glb.mode := by
  simp [cutTo]

@[simp] theorem relayTo_mode (p e : Nat) (cut : Option Nat) (f : List Byte) (s : State) :
    (relayTo p e cut f s).glb.mode = s.glb.mode := by
  unfold relayTo
  dsimp only
  (repeat' split) <;> simp

@[simp] theorem relayGood_mode (p : Nat) (cut : Option Nat) (f : List Byte) (s : State) :
    (relayGood p cut f s).glb.mode = s.glb.mode := by
  unfold relayGood
  (repeat' split) <;> simp

@[simp] theorem relayStomp_mode (p at_ : Nat) (f : List Byte) (s : State) :
    (relayStomp p at_ f s).glb.mode = s.glb.mode := by
  unfold relayStomp
  (repeat' split) <;> simp

/-- A delivery, where what it does to a frame it takes, and with one that finds no queue, leaves it. -/
theorem deliverRx_mode (h q source : Nat) (bytes : List Byte) (ts : Ts) (errs : BitVec 4) (bad : Bool) (took noQueue : State → State)
    (use n : Nat) (s : State) (ht : ∀ s, (took s).glb.mode = s.glb.mode) (hn : ∀ s, (noQueue s).glb.mode = s.glb.mode) :
    (deliverRx h q source bytes ts errs bad took noQueue use n s).glb.mode = s.glb.mode := by
  unfold deliverRx; (repeat' split) <;> simp [ht, hn]

@[simp] theorem deliverPort_mode (p h q : Nat) (bytes : List Byte) (x : RxSum) (s : State) :
    (deliverPort p h q bytes x s).glb.mode = s.glb.mode :=
  deliverRx_mode _ _ _ _ _ _ _ _ _ _ _ _ (fun s => by split <;> simp) (fun s => by simp)

@[simp] theorem countGood_mode (p : Nat) (b : List Byte) (s : State) : (countGood p b s).glb.mode = s.glb.mode := by rfl

@[simp] theorem endRx_mode (p r keep : Nat) (s : State) : (endRx p r keep s).glb.mode = s.glb.mode := by
  simp [endRx]

@[simp] theorem summarize_mode (p r : Nat) (errs : BitVec 4) (bad : Bool) (f : RxFacts) (s : State) :
    (summarize p r errs bad f s).glb.mode = s.glb.mode := by
  unfold summarize; split <;> simp

@[simp] theorem badEnd_mode (p r : Nat) (errs : BitVec 4) (f : RxFacts) (s : State) : (badEnd p r errs f s).glb.mode = s.glb.mode := by
  simp only [badEnd]; (repeat' split)
  · simp
  · rename_i e
    simp [reserve_mode e]
  · simp

@[simp] theorem goodEnd_mode (p r : Nat) (f : RxFacts) (s : State) : (goodEnd p r f s).glb.mode = s.glb.mode := by
  unfold goodEnd
  dsimp only
  (repeat' split) <;> simp

@[simp] theorem frameEnd_mode (p r : Nat) (f : RxFacts) (s : State) : (frameEnd p r f s).glb.mode = s.glb.mode := by
  unfold frameEnd
  dsimp only
  (repeat' split) <;> simp

/-- What a frame meets that was being received when a setting changed, where the rest of its path leaves it. -/
theorem seen_mode (p : Nat) (f : State → State) (s : State) (h : ∀ s, (f s).glb.mode = s.glb.mode) : (seen p f s).glb.mode = s.glb.mode := by
  unfold seen; dsimp only; split <;> simp [h]

@[simp] theorem rxEnd_mode (p : Nat) (f : RxFacts) (s : State) : (rxEnd p f s).glb.mode = s.glb.mode := by
  unfold rxEnd
  dsimp only
  have hs : ∀ r s, (seen p (frameEnd p r f) s).glb.mode = s.glb.mode := fun r s => seen_mode p _ s (fun s => by simp)
  (repeat' split) <;> simp [hs]

@[simp] theorem claimRest_mode (p : Nat) (out : List Byte) (x : RxSum) (s : State) :
    (claimRest p out x s).glb.mode = s.glb.mode := by
  unfold claimRest
  dsimp only
  (repeat' split) <;> simp

@[simp] theorem classify_mode (p : Nat) (x : RxSum) (s : State) : (classify p x s).glb.mode = s.glb.mode := by
  unfold classify
  dsimp only
  (repeat' split) <;> simp

@[simp] theorem takeCtl_mode (p : Nat) (b : List Byte) (s : State) : (takeCtl p b s).glb.mode = s.glb.mode := by
  unfold takeCtl; split <;> simp

@[simp] theorem rxPath_mode (p : Nat) (x : RxSum) (s : State) : (rxPath p x s).glb.mode = s.glb.mode := by
  unfold rxPath
  dsimp only
  (repeat' split) <;> simp

@[simp] theorem opTick_mode (s : State) : (opTick s).glb.mode = s.glb.mode := by
  unfold opTick; split <;> simp

@[simp] theorem rimTimeStep_mode (off : Int) (s : State) : (rimTimeStep off s).glb.mode = s.glb.mode := by rfl

@[simp] theorem rimTimeRate_mode (adj : Int) (s : State) : (rimTimeRate adj s).glb.mode = s.glb.mode := by rfl

@[simp] theorem rimPps_mode (outEn inEn : Bool) (width : Nat) (s : State) :
    (rimPps outEn inEn width s).glb.mode = s.glb.mode := by rfl

@[simp] theorem applyStep_mode (off : Int) (s : State) : (applyStep off s).glb.mode = s.glb.mode := by
  simp [applyStep]

@[simp] theorem applyRate_mode (adj : Int) (s : State) : (applyRate adj s).glb.mode = s.glb.mode := by rfl

@[simp] theorem putSlot_mode (s : State) (k : Nat) (x : DomSlot) : (putSlot s k x).glb.mode = s.glb.mode := by
  unfold putSlot; split <;> simp

@[simp] theorem syncInterval_mode (k : Nat) (s : State) : (syncInterval k s).glb.mode = s.glb.mode := by rfl

@[simp] theorem decideRate_mode (a : Int) (s : State) : (decideRate a s).glb.mode = s.glb.mode := by rfl

@[simp] theorem dropSlew_mode (s : State) : (dropSlew s).glb.mode = s.glb.mode := by
  unfold dropSlew; split <;> simp

@[simp] theorem domainSwitch_mode (k : Nat) (s : State) : (domainSwitch k s).glb.mode = s.glb.mode := by
  unfold domainSwitch
  dsimp only
  (repeat' split) <;> simp

@[simp] theorem reselect_mode (s : State) : (reselect s).glb.mode = s.glb.mode := by
  unfold reselect
  dsimp only
  (repeat' split) <;> simp

@[simp] theorem acquired_mode (s : State) : (acquired s).glb.mode = s.glb.mode := by
  unfold acquired; split <;> simp

@[simp] theorem settleSlot_mode (k : Nat) (s : State) : (settleSlot k s).glb.mode = s.glb.mode := by
  simp [settleSlot]

@[simp] theorem settlePtp_mode (s : State) : (settlePtp s).glb.mode = s.glb.mode := by
  simp [settlePtp]

@[simp] theorem servo_mode (k : Nat) (off adj : Int) (s : State) : (servo k off adj s).glb.mode = s.glb.mode := by
  unfold servo
  dsimp only
  (repeat' split) <;> simp

@[simp] theorem takeSync_mode (f : SyncFacts) (s : State) : (takeSync f s).glb.mode = s.glb.mode := by
  unfold takeSync
  dsimp only
  (repeat' split) <;> simp

@[simp] theorem keepPtp_mode (x : PtpIn) (s : State) : (keepPtp x s).glb.mode = s.glb.mode := by
  unfold keepPtp; split <;> simp

@[simp] theorem sendPtp_mode (ty k seq st : Nat) (s : State) : (sendPtp ty k seq st s).glb.mode = s.glb.mode := by
  unfold sendPtp; exact foldl_mode _ (fun s a => by split <;> simp) _ _

@[simp] theorem takeResponse_mode (m : PtpMsg) (ts : Ts) (s : State) : (takeResponse m ts s).glb.mode = s.glb.mode := by
  unfold takeResponse
  dsimp only
  (repeat' split) <;> simp

@[simp] theorem takePdelay_mode (m : PtpMsg) (ts : Ts) (s : State) : (takePdelay m ts s).glb.mode = s.glb.mode := by
  unfold takePdelay
  (repeat' split) <;> simp

@[simp] theorem consumePtp_mode (s : State) : (consumePtp s).glb.mode = s.glb.mode := by
  unfold consumePtp
  split
  · rw [foldl_mode _ (fun s a => ?_)]
    obtain ⟨a, st⟩ := a
    cases a <;> exact consumeAt_mode _ _ _ (fun s => by simp)
  · rfl

@[simp] theorem putRead_mode (r : Reader) (v : W32) (s : State) : (putRead r v s).glb.mode = s.glb.mode := by rfl

@[simp] theorem latchPut_mode (r : Reader) (addr : Nat) (v : Nat) (s : State) :
    (latchPut r addr v s).glb.mode = s.glb.mode := by rfl

@[simp] theorem txtsPop_mode (r : Reader) (p : Nat) (s : State) : (txtsPop r p s).1.glb.mode = s.glb.mode := by
  unfold txtsPop; split <;> simp

theorem bodyDomainSet_mode (w : Issuer) (p : Packet) (l : List Byte) (s : State) :
    (actState (bodyDomainSet.act w p l s)).glb.mode = s.glb.mode := by
  dsimp only [bodyDomainSet]
  (repeat' split) <;> simp [actState]

theorem bodyTimeStep_mode (w : Issuer) (p : Packet) (l : List Byte) (s : State) :
    (actState (bodyTimeStep.act w p l s)).glb.mode = s.glb.mode := by
  dsimp only [bodyTimeStep]
  (repeat' split) <;> simp [actState]

theorem bodyRateSet_mode (w : Issuer) (p : Packet) (l : List Byte) (s : State) :
    (actState (bodyRateSet.act w p l s)).glb.mode = s.glb.mode := by rfl

theorem bodyPpsSet_mode (w : Issuer) (p : Packet) (l : List Byte) (s : State) :
    (actState (bodyPpsSet.act w p l s)).glb.mode = s.glb.mode := by rfl

theorem bodyTimeQuery_mode (w : Issuer) (p : Packet) (l : List Byte) (s : State) :
    (actState (bodyTimeQuery.act w p l s)).glb.mode = s.glb.mode := by rfl

@[simp] theorem evict_mode (l : List W32) (s : State) : (evict l s).glb.mode = s.glb.mode := by
  show (count .recOverwritten [] 0 l.length _).glb.mode = _
  rw [count_mode]

@[simp] theorem keepRecord_mode (r : RecIn) (kept : Bool) (s : State) : (keepRecord r kept s).glb.mode = s.glb.mode := by rfl

@[simp] theorem takeRecord_mode (r : RecIn) (s : State) : (takeRecord r s).glb.mode = s.glb.mode := by
  unfold takeRecord
  dsimp only
  (repeat' split) <;> simp

@[simp] theorem writeFirst_mode (s : State) : (writeFirst s).glb.mode = s.glb.mode := by
  unfold writeFirst
  (repeat' split) <;> simp

@[simp] theorem markBank_mode (b cause : Nat) (s : State) : (markBank b cause s).glb.mode = s.glb.mode := by
  unfold markBank; split <;> simp

@[simp] theorem goVolatile_mode (s : State) : (goVolatile s).glb.mode = s.glb.mode := by
  simp [goVolatile]

@[simp] theorem takeBank_mode (b cause : Nat) (seq : W32) (s : State) : (takeBank b cause seq s).glb.mode = s.glb.mode := by
  unfold takeBank
  dsimp only
  (repeat' split) <;> simp

@[simp] theorem checkLost_mode (s : State) : (checkLost s).glb.mode = s.glb.mode := by
  unfold checkLost
  dsimp only
  (repeat' split) <;> simp

@[simp] theorem rebuildBank_mode (b : Nat) (s : State) : (rebuildBank b s).glb.mode = s.glb.mode := by
  simp [rebuildBank]

@[simp] theorem startAnew_mode (s : State) : (startAnew s).glb.mode = s.glb.mode := by
  simp [startAnew]

@[simp] theorem takeAnew_mode (s : State) (r : Rec) : (takeAnew s r).glb.mode = s.glb.mode := by
  simp [takeAnew]

@[simp] theorem rimStep_mode (k : Nat) (s : State) : (rimStep k s).glb.mode = s.glb.mode := by
  unfold rimStep; split <;> simp

@[simp] theorem writeSummary_mode (flushed : Bool) (s : State) : (writeSummary flushed s).glb.mode = s.glb.mode := by
  unfold writeSummary; split <;> simp

@[simp] theorem putReader_mode (s : State) (r : Reader) (x : RecReader) : (putReader s r x).glb.mode = s.glb.mode := by rfl

@[simp] theorem markDamaged_mode (l : List W32) (s : State) : (markDamaged l s).glb.mode = s.glb.mode := by rfl

@[simp] theorem startLoad_mode (r : Reader) (ask : Nat) (v : W32) (s : State) :
    (startLoad r ask v s).glb.mode = s.glb.mode := by rfl

@[simp] theorem rimClearFloor_mode (host : Nat) (s : State) : (rimClearFloor host s).glb.mode = s.glb.mode := by
  simp [rimClearFloor]

theorem bodyNote_mode (w : Issuer) (p : Packet) (l : List Byte) (s : State) :
    (actState (bodyNote.act w p l s)).glb.mode = s.glb.mode := by rfl

theorem bodyChallenge_mode (w : Issuer) (p : Packet) (l : List Byte) (s : State) :
    (actState (bodyChallenge.act w p l s)).glb.mode = s.glb.mode := by rfl

theorem bodyRecClear_mode (w : Issuer) (p : Packet) (l : List Byte) (s : State) :
    (actState (bodyRecClear.act w p l s)).glb.mode = s.glb.mode := by rfl

theorem bodyRecQuery_mode (w : Issuer) (p : Packet) (l : List Byte) (s : State) :
    (actState (bodyRecQuery.act w p l s)).glb.mode = s.glb.mode := by rfl

@[simp] theorem castleOutcome_mode (status : Nat) (d : SideId) (s : State) :
    (castleOutcome status d s).glb.mode = s.glb.mode := by
  unfold castleOutcome
  (repeat' split) <;> simp

@[simp] theorem exitCommit_mode (n : Nat) (s : State) : (exitCommit n s).glb.mode = s.glb.mode := by
  unfold exitCommit
  (repeat' split) <;> simp

@[simp] theorem commitCounters_mode (n : Nat) (s : State) : (commitCounters n s).glb.mode = s.glb.mode := by
  simp [commitCounters]

@[simp] theorem slotEnd_mode (s : State) : (slotEnd s).glb.mode = s.glb.mode := by
  unfold slotEnd; split <;> simp

@[simp] theorem commitMove_mode (n : Nat) (s : State) : (commitMove n s).glb.mode = s.glb.mode := by
  unfold commitMove
  dsimp only
  (repeat' split) <;> simp

@[simp] theorem undoPending_mode (s : State) : (undoPending s).glb.mode = s.glb.mode := by
  unfold undoPending; split <;> simp

@[simp] theorem settlePending_mode (d : SideId) (s : State) : (settlePending d s).glb.mode = s.glb.mode := by
  unfold settlePending
  (repeat' split) <;> simp

@[simp] theorem abortResync_mode (s : State) : (abortResync s).glb.mode = s.glb.mode := by
  simp [abortResync]

@[simp] theorem beginIntr_mode (tick : Nat) (s : State) : (beginIntr tick s).glb.mode = s.glb.mode := by
  unfold beginIntr; split <;> simp

@[simp] theorem endIntr_mode (s : State) : (endIntr s).glb.mode = s.glb.mode := by
  unfold endIntr; split <;> simp

@[simp] theorem soloCommit_mode (h : SideId) (s : State) : (soloCommit h s).glb.mode = s.glb.mode := by
  unfold soloCommit
  (repeat' split) <;> simp

@[simp] theorem endHandover_mode (h : SideId) (s : State) : (endHandover h s).glb.mode = s.glb.mode := by
  unfold endHandover
  (repeat' split) <;> simp

@[simp] theorem leaveState_mode (d : SideId) (status : Nat) (s : State) :
    (leaveState d status s).glb.mode = s.glb.mode := by
  unfold leaveState
  dsimp only
  (repeat' split) <;> simp

@[simp] theorem confirmBoot_mode (d : SideId) (s : State) : (confirmBoot d s).glb.mode = s.glb.mode := by
  simp [confirmBoot]

@[simp] theorem endStart_mode (s : State) : (endStart s).glb.mode = s.glb.mode := by rfl

@[simp] theorem loseClock_mode (s : State) : (loseClock s).glb.mode = s.glb.mode := by rfl

@[simp] theorem declareFall_mode (d : SideId) (s : State) : (declareFall d s).glb.mode = s.glb.mode := by
  simp [declareFall]

@[simp] theorem endCheck_mode (v : Nat) (s : State) : (endCheck v s).glb.mode = s.glb.mode := by
  simp [endCheck]

@[simp] theorem forcedIntr_mode (d : SideId) (s : State) : (forcedIntr d s).glb.mode = s.glb.mode := by rfl

@[simp] theorem loseLock_mode (d : SideId) (c : HealthCause) (s : State) : (loseLock d c s).glb.mode = s.glb.mode := by
  unfold loseLock; split <;> simp

@[simp] theorem writeAgain_mode (s : State) : (writeAgain s).glb.mode = s.glb.mode := by rfl

@[simp] theorem beginReplay_mode (s : State) : (beginReplay s).glb.mode = s.glb.mode := by rfl

@[simp] theorem handedOver_mode (d : SideId) (s : State) : (handedOver d s).glb.mode = s.glb.mode := by
  unfold handedOver
  dsimp only
  (repeat' split) <;> simp

@[simp] theorem warmLane_mode (s : State) : (warmLane s).glb.mode = s.glb.mode := by
  unfold warmLane
  dsimp only
  (repeat' split) <;> simp [foldl_mode]

@[simp] theorem warmDma_mode (s : State) : (warmDma s).glb.mode = s.glb.mode := by rfl

@[simp] theorem warmRx_mode (s : State) : (warmRx s).glb.mode = s.glb.mode := by
  unfold warmRx
  dsimp only
  rw [foldl_mode _ (fun s a => by simp), foldl_mode _ (fun s a => by simp)]

@[simp] theorem takeBack_mode (x : Staged) (s : State) : (takeBack x s).glb.mode = s.glb.mode := by
  unfold takeBack
  dsimp only
  (repeat' split) <;> simp

@[simp] theorem warmTx_mode (s : State) : (warmTx s).glb.mode = s.glb.mode := by
  have hf : ∀ (l : List (Nat × Nat × Nat × Staged)) (g : (Nat × Nat × Nat × Staged) → State → State) (s : State),
      (∀ a s, (g a s).glb.mode = s.glb.mode) → (l.foldr g s).glb.mode = s.glb.mode := by
    intro l g s h
    induction l with
    | nil => rfl
    | cons a l ih => rw [List.foldr_cons, h, ih]
  unfold warmTx
  dsimp only
  rw [hf _ _ _ (fun a s => by simp), foldl_mode _ (fun s a => by simp)]

@[simp] theorem warmRestore_mode (s : State) : (warmRestore s).glb.mode = s.glb.mode := by
  unfold warmRestore
  dsimp only
  split <;> split <;> simp only [fwStart_mode, warmTx_mode, warmRx_mode, warmDma_mode, warmLane_mode]

@[simp] theorem divergeCase_mode (s : State) (t : Nat) : (divergeCase s t).glb.mode = s.glb.mode := by rfl

@[simp] theorem warmDone_mode (s : State) : (warmDone s).glb.mode = s.glb.mode := by
  unfold warmDone; split <;> simp

@[simp] theorem consumeInputs_mode (s : State) : (consumeInputs s).glb.mode = s.glb.mode := by
  simp [consumeInputs]

@[simp] theorem mismatch_mode (kind : Nat) (o : LsOutput) (s : State) : (mismatch kind o s).glb.mode = s.glb.mode := by
  unfold mismatch
  (repeat' split) <;> simp

@[simp] theorem failCheck_mode (d : SideId) (s : State) : (failCheck d s).glb.mode = s.glb.mode := by
  unfold failCheck; split <;> simp

@[simp] theorem testDdr_mode (d : SideId) (ran good : BitVec 7) (s : State) :
    (testDdr d ran good s).glb.mode = s.glb.mode := by
  unfold testDdr
  (repeat' split) <;> simp

theorem bodyCastle_mode (w : Issuer) (p : Packet) (l : List Byte) (s : State) :
    (actState (bodyCastle.act w p l s)).glb.mode = s.glb.mode := by rfl

theorem bodyResetStandby_mode (w : Issuer) (p : Packet) (l : List Byte) (s : State) :
    (actState (bodyResetStandby.act w p l s)).glb.mode = s.glb.mode := by rfl

theorem bodySideQuery_mode (w : Issuer) (p : Packet) (l : List Byte) (s : State) :
    (actState (bodySideQuery.act w p l s)).glb.mode = s.glb.mode := by rfl

@[simp] theorem fixAi_mode (s : State) : (fixAi s).glb.mode = s.glb.mode := by rfl

@[simp] theorem slotStart_mode (s : State) : (slotStart s).glb.mode = s.glb.mode := by
  unfold slotStart; split <;> simp

@[simp] theorem offerCommit_mode (s : State) : (offerCommit s).glb.mode = s.glb.mode := by
  unfold offerCommit
  dsimp only
  (repeat' split) <;> simp

@[simp] theorem notLate_mode (s : State) : (notLate s).glb.mode = s.glb.mode := by rfl

@[simp] theorem frerCheck_mode (s : State) : (frerCheck s).glb.mode = s.glb.mode := by
  unfold frerCheck
  exact foldl_mode _ (fun s a => by split <;> simp) _ _

@[simp] theorem throttle_mode (s : State) : (throttle s).glb.mode = s.glb.mode := by rfl

@[simp] theorem writeDue_mode (l : List DueStatus) (s : State) : (writeDue l s).glb.mode = s.glb.mode := by
  induction l generalizing s with
  | nil => rfl
  | cons d r ih => simp only [writeDue]; split <;> rw [ih]; split <;> simp

@[simp] theorem drainVecs_mode (s : State) : (drainVecs s).glb.mode = s.glb.mode := by
  unfold drainVecs
  refine foldl_mode _ (fun s a => ?_) _ _
  dsimp only
  (repeat' split) <;> simp

@[simp] theorem abortRunning_mode (s : State) : (abortRunning s).glb.mode = s.glb.mode := by
  simp only [abortRunning]
  (repeat' split) <;> simp [foldl_mode]

@[simp] theorem abortWaiting_mode (l : List (Nat × Packet × Stamp)) (s : State) :
    (abortWaiting l s).glb.mode = s.glb.mode := by
  induction l generalizing s <;> simp_all [abortWaiting]

@[simp] theorem abortStatuses_mode (s : State) : (abortStatuses s).glb.mode = s.glb.mode := by
  simp [abortStatuses]

@[simp] theorem pinCause_mode (s : State) : (pinCause s).glb.mode = s.glb.mode := by
  unfold pinCause
  dsimp only
  (repeat' split) <;> simp

@[simp] theorem selfRefresh_mode (d : SideId) (on : Bool) (s : State) : (selfRefresh d on s).glb.mode = s.glb.mode := by
  unfold selfRefresh; split <;> simp

@[simp] theorem putPin_mode (d : SideId) (on : Bool) (s : State) : (putPin d on s).glb.mode = s.glb.mode := by
  unfold putPin; split <;> simp

@[simp] theorem putDdr_mode (s : State) (d : SideId) (x : Ddr) : (putDdr s d x).glb.mode = s.glb.mode := by
  unfold putDdr; split <;> simp

@[simp] theorem lockSide_mode (d : SideId) (s : State) : (lockSide d s).glb.mode = s.glb.mode := by
  unfold lockSide; split <;> simp

@[simp] theorem loseQueued_mode (s : State) : (loseQueued s).glb.mode = s.glb.mode := by rfl

theorem bodyModeQuery_mode (w : Issuer) (p : Packet) (l : List Byte) (s : State) :
    (actState (bodyModeQuery.act w p l s)).glb.mode = s.glb.mode := by rfl

@[simp] theorem markStart_mode (kind : Nat) (s : State) : (markStart kind s).glb.mode = s.glb.mode := by rfl

@[simp] theorem dropWarm_mode (s : State) : (dropWarm s).glb.mode = s.glb.mode := by
  unfold dropWarm
  dsimp only
  (repeat' split) <;> simp

theorem bodyStartCold_mode (w : Issuer) (p : Packet) (l : List Byte) (s : State) :
    (actState (bodyStartCold.act w p l s)).glb.mode = s.glb.mode := by
  dsimp only [bodyStartCold]
  (repeat' split) <;> simp [actState]

theorem bodyStartWarm_mode (w : Issuer) (p : Packet) (l : List Byte) (s : State) :
    (actState (bodyStartWarm.act w p l s)).glb.mode = s.glb.mode := by rfl

theorem bodyConfigEnter_mode (w : Issuer) (p : Packet) (l : List Byte) (s : State) :
    (actState (bodyConfigEnter.act w p l s)).glb.mode = s.glb.mode := by rfl

theorem bodyConfigExit_mode (w : Issuer) (p : Packet) (l : List Byte) (s : State) :
    (actState (bodyConfigExit.act w p l s)).glb.mode = s.glb.mode := by rfl

theorem bodySafeHold_mode (w : Issuer) (p : Packet) (l : List Byte) (s : State) :
    (actState (bodySafeHold.act w p l s)).glb.mode = s.glb.mode := by rfl

theorem bodyResume_mode (w : Issuer) (p : Packet) (l : List Byte) (s : State) :
    (actState (bodyResume.act w p l s)).glb.mode = s.glb.mode := by rfl

@[simp] theorem putFeed_mode (f : Feed) (on : Bool) (s : State) : (putFeed f on s).glb.mode = s.glb.mode := by
  unfold putFeed; split <;> simp

@[simp] theorem loseLocks_mode (d : SideId) (s : State) : (loseLocks d s).glb.mode = s.glb.mode := by
  simp [loseLocks]

@[simp] theorem putRef_mode (r : Nat) (here qual : Bool) (s : State) : (putRef r here qual s).glb.mode = s.glb.mode := by
  unfold putRef; split <;> simp

@[simp] theorem switchRef_mode (s : State) : (switchRef s).glb.mode = s.glb.mode := by
  simp [switchRef]

@[simp] theorem regainLocks_mode (s : State) : (regainLocks s).glb.mode = s.glb.mode := by
  unfold regainLocks; split <;> simp

@[simp] theorem putLock_mode (i : RimIsland) (on : Bool) (s : State) : (putLock i on s).glb.mode = s.glb.mode := by
  unfold putLock; split <;> simp

@[simp] theorem putTemp_mode (n : Sensor) (t : BitVec 16) (s : State) : (putTemp n t s).glb.mode = s.glb.mode := by
  unfold putTemp; split <;> simp

@[simp] theorem putViof_mode (k : Nat) (v : BitVec 2) (s : State) : (putViof k v s).glb.mode = s.glb.mode := by rfl

@[simp] theorem putLink_mode (h : Nat) (l : Link) (s : State) : (putLink h l s).glb.mode = s.glb.mode := by rfl

@[simp] theorem changeLink_mode (h : Nat) (up : Bool) (s : State) : (changeLink h up s).glb.mode = s.glb.mode := by
  unfold changeLink; split <;> simp

@[simp] theorem unmask_mode (h v : Nat) (s : State) : (unmask h v s).glb.mode = s.glb.mode := by
  unfold unmask
  dsimp only
  (repeat' split) <;> simp

@[simp] theorem writeMsix_mode (h a : Nat) (enables : BitVec 4) (v : W32) (s : State) :
    (writeMsix h a enables v s).glb.mode = s.glb.mode := by
  unfold writeMsix
  dsimp only
  (repeat' split) <;> simp

@[simp] theorem dropWork_mode (ts : List Nat) (s : State) : (dropWork ts s).glb.mode = s.glb.mode := by
  simp [dropWork, foldl_mode]

@[simp] theorem perstSide_mode (h : Nat) (s : State) : (perstSide h s).glb.mode = s.glb.mode := by
  simp [perstSide, foldl_mode]

@[simp] theorem perstRim_mode (h : Nat) (s : State) : (perstRim h s).glb.mode = s.glb.mode := by
  simp [perstRim]

theorem bodyFwQuery_mode (w : Issuer) (p : Packet) (l : List Byte) (s : State) :
    (actState (bodyFwQuery.act w p l s)).glb.mode = s.glb.mode := by rfl

@[simp] theorem writeSlotBytes_mode (d : SideId) (slot off : Nat) (l : List Byte) (s : State) :
    (writeSlotBytes d slot off l s).glb.mode = s.glb.mode := by
  simp [writeSlotBytes]

@[simp] theorem rimFwClear_mode (w : Nat) (v : W32) (s : State) : (rimFwClear w v s).glb.mode = s.glb.mode := by rfl

@[simp] theorem rimRoutes_mode (t : Tab (BitVec 64)) (s : State) : (rimRoutes t s).glb.mode = s.glb.mode := by
  have hb : ∀ u : State, ({ u with fab := { u.fab with routes := t } } : State).glb.mode = u.glb.mode := fun u => rfl
  exact (hb (noteKeeps s)).trans (noteKeeps_mode s)

@[simp] theorem loadLatch_mode (r : Reader) (g : Reg) (is : List Nat) (s : State) :
    (loadLatch r g is s).glb.mode = s.glb.mode := by
  unfold loadLatch
  (repeat' split) <;> simp

@[simp] theorem clearRc_mode (r : Reader) (g : Reg) (is : List Nat) (s : State) (x : Nat × Nat) :
    (clearRc r g is s x).glb.mode = s.glb.mode := by
  unfold clearRc
  dsimp only
  (repeat' split) <;> simp

@[simp] theorem readEffects_mode (r : Reader) (g : Reg) (is : List Nat) (s : State) :
    (readEffects r g is s).glb.mode = s.glb.mode := by
  unfold readEffects
  dsimp only
  (repeat' split) <;> simp [foldl_mode]

@[simp] theorem doRead_mode (r : Reader) (g : Reg) (is : List Nat) (s : State) :
    (doRead r g is s).glb.mode = s.glb.mode := by
  unfold doRead
  (repeat' split) <;> simp

@[simp] theorem accErr_mode (h lo : Nat) (s : State) : (accErr h lo s).glb.mode = s.glb.mode := by rfl

@[simp] theorem accErrOf_mode (r : Reader) (lo : Nat) (s : State) : (accErrOf r lo s).glb.mode = s.glb.mode := by
  unfold accErrOf; split <;> simp

@[simp] theorem storeReg_mode (g : Reg) (is : List Nat) (v : W32) (s : State) :
    (storeReg g is v s).glb.mode = s.glb.mode := by rfl

@[simp] theorem enableAq_mode (h : Nat) (v : W32) (s : State) : (enableAq h v s).glb.mode = s.glb.mode := by
  unfold enableAq
  dsimp only
  (repeat' split) <;> simp

@[simp] theorem writeAqCfg_mode (h : Nat) (v : W32) (s : State) : (writeAqCfg h v s).glb.mode = s.glb.mode := by
  unfold writeAqCfg
  dsimp only
  (repeat' split) <;> simp

@[simp] theorem writePriv_mode (r : Reader) (v : W32) (s : State) : (writePriv r v s).glb.mode = s.glb.mode := by
  unfold writePriv
  dsimp only
  (repeat' split) <;> simp

@[simp] theorem writePoolCtl_mode (v : W32) (s : State) : (writePoolCtl v s).glb.mode = s.glb.mode := by
  unfold writePoolCtl
  (repeat' split) <;> simp

@[simp] theorem clearMonitor_mode (m : Nat) (s : State) : (clearMonitor m s).glb.mode = s.glb.mode := by rfl

@[simp] theorem writeMonCfg_mode (m : Nat) (v : W32) (s : State) : (writeMonCfg m v s).glb.mode = s.glb.mode := by
  unfold writeMonCfg
  dsimp only
  (repeat' split) <;> simp

@[simp] theorem writeRoute_mode (n src : Nat) (v : W32) (s : State) : (writeRoute n src v s).glb.mode = s.glb.mode := by
  unfold writeRoute
  dsimp only
  (repeat' split) <;> simp

@[simp] theorem sendDue_mode (h v : Nat) (s : State) : (sendDue h v s).glb.mode = s.glb.mode := by
  unfold sendDue
  dsimp only
  (repeat' split) <;> simp

@[simp] theorem writeCoal_mode (n v : Nat) (x : W32) (s : State) : (writeCoal n v x s).glb.mode = s.glb.mode := by
  unfold writeCoal
  dsimp only
  (repeat' split) <;> simp

@[simp] theorem writeEvtStat_mode (r : Reader) (w : Nat) (v : W32) (s : State) :
    (writeEvtStat r w v s).glb.mode = s.glb.mode := by
  unfold writeEvtStat; split <;> simp

@[simp] theorem writePinStat_mode (w : Nat) (v : W32) (s : State) : (writePinStat w v s).glb.mode = s.glb.mode := by rfl

@[simp] theorem writeRdCfg_mode (r : Reader) (v : W32) (s : State) : (writeRdCfg r v s).glb.mode = s.glb.mode := by
  unfold writeRdCfg
  dsimp only
  (repeat' split) <;> simp

@[simp] theorem writeClkCfg_mode (v : W32) (s : State) : (writeClkCfg v s).glb.mode = s.glb.mode := by
  unfold writeClkCfg
  dsimp only
  (repeat' split) <;> simp

@[simp] theorem writeReg_mode (r : Reader) (g : Reg) (is : List Nat) (v : W32) (s : State) :
    (writeReg r g is v s).glb.mode = s.glb.mode := by
  unfold writeReg
  dsimp only
  (repeat' split) <;> simp

@[simp] theorem applyWrite_mode (r : Reader) (a : Nat) (v : W32) (s : State) :
    (applyWrite r a v s).glb.mode = s.glb.mode := by
  unfold applyWrite
  dsimp only
  (repeat' split) <;> simp

@[simp] theorem hostWrite_mode (h a : Nat) (enables : BitVec 4) (v : W32) (s : State) :
    (hostWrite h a enables v s).glb.mode = s.glb.mode := by
  unfold hostWrite
  (repeat' split) <;> simp

@[simp] theorem writeAt_mode (h : Nat) (g : Reg) (is : List Nat) (v : W32) (s : State) :
    (writeAt h g is v s).glb.mode = s.glb.mode := by
  simp [writeAt]

@[simp] theorem applyOldest_mode (s : State) : (applyOldest s).glb.mode = s.glb.mode := by
  unfold applyOldest
  (repeat' split)
  · rfl
  · rw [consumeAt_mode _ _ _ (fun s => by simp)]
  · rfl
  · rw [consumeAt_mode _ _ _ (fun s => by simp)]

@[simp] theorem writeSide_mode (h : Nat) (g : Reg) (is : List Nat) (v : W32) (s : State) :
    (writeSide h g is v s).glb.mode = s.glb.mode := by
  unfold writeSide
  dsimp only
  (repeat' split) <;> simp

@[simp] theorem readAt_mode (r : Reader) (a : Nat) (s : State) : (readAt r a s).glb.mode = s.glb.mode := by
  unfold readAt; split <;> simp

@[simp] theorem sideRead_mode (h : Host) (a : Nat) (s : State) : (sideRead h a s).glb.mode = s.glb.mode := by
  unfold sideRead
  (repeat' split) <;> simp

@[simp] theorem answerHeld_mode (h : Host) (a : Nat) (s : State) : (answerHeld h a s).glb.mode = s.glb.mode := by
  have hp : ∀ s, (answerHeld.plainHeld h a s).glb.mode = s.glb.mode := by
    intro s; unfold answerHeld.plainHeld; split <;> simp
  unfold answerHeld; dsimp only; (repeat' split) <;> simp [hp]

@[simp] theorem hostRead_mode (h : Host) (a : Nat) (s : State) : (hostRead h a s).glb.mode = s.glb.mode := by
  unfold hostRead
  (repeat' split) <;> simp

@[simp] theorem partRead_mode (r : Reader) (a : Nat) (s : State) : (partRead r a s).glb.mode = s.glb.mode := by
  unfold partRead
  (repeat' split) <;> simp

@[simp] theorem readerRead_mode (r : Reader) (a : Nat) (s : State) : (readerRead r a s).glb.mode = s.glb.mode := by
  unfold readerRead
  (repeat' split) <;> simp

@[simp] theorem readerWrite_mode (r : Reader) (g : Reg) (v : W32) (s : State) :
    (readerWrite r g v s).glb.mode = s.glb.mode := by
  unfold readerWrite
  (repeat' split) <;> simp

@[simp] theorem loadTable_mode (t : List (BitVec 512)) (s : State) : (loadTable t s).glb.mode = s.glb.mode := by rfl

@[simp] theorem nextItem_mode (s : State) : (nextItem s).glb.mode = s.glb.mode := by rfl

@[simp] theorem uncount_mode (key : Nat) (s : State) : (uncount key s).glb.mode = s.glb.mode := by rfl

@[simp] theorem unwrite_mode (d : SideId) (slot off n : Nat) (old : Flash) (s : State) :
    (unwrite d slot off n old s).glb.mode = s.glb.mode := by
  unfold unwrite; split <;> simp

@[simp] theorem undoIb_mode (x : IbCmd) (later : List IbCmd) (s : State) : (undoIb x later s).glb.mode = s.glb.mode := by
  unfold undoIb
  dsimp only
  (repeat' split) <;> simp

@[simp] theorem restatus_mode (x : IbCmd) (st : Nat × Nat) (s : State) : (restatus x st s).glb.mode = s.glb.mode := by
  unfold restatus
  dsimp only
  (repeat' split) <;> simp

end Sys2Proof.Machine
end

