-- ==== Sys2Proof/Tests/Slice0.lean ====
section
/-!
SUPPORT. Tests/Slice0.lean: the model's own tests. Witnesses show, for each statement with hypotheses, a concrete state and
operands that meet them, clause by clause; the other tests compare one value of one step with the spec's words, or refuse an
ill-formed command. The state of most of them is `up`: mode 5, White at the Clock, Black its standby.
-/

namespace Sys2Proof.Tests

open Sys2Proof Sys2Proof.Machine

set_option Elab.async false

/-- A command packet of a row: its opcode and PLEN, and PARAM fields by packet offset. -/
def pk (c : CmdSpec) (f : List (Nat × Nat)) : Packet :=
  { opcode := BitVec.ofNat 16 c.opcode, plen := BitVec.ofNat 16 c.plen
    param := BitVec.ofNat 384 (f.map (fun (x : Nat × Nat) => x.2 <<< (8 * (x.1 - 16)))).sum }

/-- A packet whose indirect buffer at `o` holds `l`, after the fields `f`. -/
def pkBuf (c : CmdSpec) (o : Nat) (l : List Byte) (f : List (Nat × Nat)) : Packet :=
  pk c (f ++ [(o + 8, l.length), (o + 12, crc32c l)])

/-- A side in service. -/
def running (st : Nat) : SideRec := { state := st, alive := true, inReset := false, ready := true, jrnValid := true, move := 9 }

/-- Mode 5: White holds the Clock, Black is its standby, the hosts' links are up. -/
def up : State :=
  { State.reset with
    glb := { mode := 5, startBusy := false, lockTime := true, lockField := true, lockBuf := true, lockHost := true }
    sides := { white := running 5, black := running 4, holder := some .white, disp := .running, mlOk := true }
    jrn := { move := 10, committed := some 9 }
    recd := { ready := true, powerUp := none }
    pcie := [(0, { up := true, cfg := { bme := true, msix := true } }), (1, { up := true, cfg := { bme := true, msix := true } })] }

/-- Host 0's command at the head of Scoresheet order. -/
def asks (p : Packet) (s : State) : State := { s with cmd := { s.cmd with waiting := [(0, p, s.jrn.last)] } }

/-- Host 0's command is executed in this state. -/
def runs (c : CmdSpec) (b : Body) (p : Packet) (l : List Byte) (s : State) : Prop :=
  Executes c b 0 p (.data l) (asks p s)

/-- Host 0's query is answered in this state. -/
def replies (c : CmdSpec) (b : Body) (p : Packet) (s : State) : Prop := Accepted c b 0 p (.data []) (asks p s)

/-- The state at this elapsed network time in ns. -/
def later (ns : Nat) (s : State) : State := { s with time := { s.time with elapsed := BitVec.ofNat 96 (ns * 2 ^ 32) } }

/-- `n` bytes. -/
def bytes (n : Nat) : List Byte := List.replicate n 0

/-! ### Admin commands -/

/-- An SQ and a CQ of host 0. -/
def queues : State := putCq (putSq up 0 1 { cqid := 1 }) 0 1 {}

theorem witness_queue_commands :
    runs csCreateCq bodyCreateCq (pk csCreateCq [(0x10, 1023), (0x12, 15), (0x13, 63), (0x14, 1), (0x18, 4096)]) [] up
    ∧ runs csCreateSq bodyCreateSq (pk csCreateSq [(0x10, 1023), (0x12, 4), (0x13, 1), (0x14, 1), (0x16, 1), (0x18, 4096)]) []
        queues
    ∧ runs csDeleteSq bodyDeleteSq (pk csDeleteSq [(0x10, 1)]) [] queues
    ∧ runs csDeleteCq bodyDeleteCq (pk csDeleteCq [(0x10, 1)]) [] (putCq up 0 1 {})
    ∧ runs csSetWrr bodySetWrr (pk csSetWrr [(0x10, 1), (0x12, 255), (0x13, 64)]) [] queues
    ∧ (sqOf (consumeAdmin 0 (asks (pk csSetWrr [(0x10, 1), (0x12, 255), (0x13, 64)]) queues)) 0 1).isSome
    ∧ runs csSetQuota bodySetQuota (pk csSetQuota [(0x10, 1024), (0x14, 65536), (0x18, 1024), (0x1C, 1024)]) [] queues
    ∧ replies csQueQuery bodyQueQuery (pk csQueQuery [(0x10, 1)]) queues := by
  unfold runs replies Executes Accepted
  decide +kernel

/-- Port 31 enabled, with its link up. -/
def portUp : State := { up with port := [(31, { en := true, link := true })] }

theorem witness_port_commands :
    runs csPortSet bodyPortSet (pk csPortSet [(0x10, 31), (0x11, 4), (0x12, 0), (0x14, 9216)]) [] up
    ∧ runs csPortEnable bodyPortEnable (pk csPortEnable [(0x10, 31), (0x11, 1)]) [] up
    ∧ (sidePort (consumeAdmin 0 (asks (pk csPortEnable [(0x10, 31), (0x11, 1)]) up)) 31).en = false
    ∧ runs csPortEnable bodyPortEnable (pk csPortEnable [(0x10, 31), (0x11, 1)]) [] portUp
    ∧ (sidePort (consumeAdmin 0 (asks (pk csPortEnable [(0x10, 31), (0x11, 1)]) portUp)) 31).en = true
    ∧ runs csPortFilterSet bodyPortFilterSet (pk csPortFilterSet [(0x10, 31), (0x11, 15), (0x12, 1), (0x14, 0x665544332211)])
        [] up
    ∧ runs csPortEeeSet bodyPortEeeSet (pk csPortEeeSet [(0x10, 31), (0x12, 65535)]) [] up
    ∧ runs csPortRecal bodyPortRecal (pk csPortRecal [(0x10, 31), (0x11, 1)]) [] portUp
    ∧ replies csPortQuery bodyPortQuery (pk csPortQuery [(0x10, 31)]) up := by
  unfold runs replies Executes Accepted
  decide +kernel

theorem witness_field_commands :
    runs csFldPortSet bodyFldPortSet (pk csFldPortSet [(0x10, 479), (0x12, 1), (0x20, 1), (0x22, 8), (0x24, 1), (0x25, 1)]) [] up
    ∧ runs csFldAggLoad bodyAggLoad (pkBuf csFldAggLoad 0x18 (3 :: bytes 63) [(0x10, 255)]) (3 :: bytes 63) up
    ∧ replies csFldQuery bodyFldQuery (pk csFldQuery [(0x10, 479)]) up := by
  unfold runs replies Executes Accepted
  decide +kernel

/-- One entry of 1 ms with every gate open. -/
def tape1 : List Byte := leBytes 1000000 4 ++ [0xFF, 0, 0, 0]

theorem witness_gate_commands :
    runs csTapeLoad bodyTapeLoad (pkBuf csTapeLoad 0x20 tape1 [(0x10, 31), (0x14, 1), (0x18, 10000000000)]) tape1 up
    ∧ runs csClassSet bodyClassSet (pk csClassSet [(0x10, 31), (0x11, 7), (0x12, 1), (0x14, 100)]) [] up
    ∧ runs csCloseMode bodyCloseMode (pk csCloseMode [(0x10, 31), (0x11, 1)]) [] up
    ∧ runs csTapeCancel bodyTapeCancel (pk csTapeCancel [(0x10, 31)]) [] { up with gate := [(31, { pend := some {} })] }
    ∧ replies csGateQuery bodyGateQuery (pk csGateQuery [(0x10, 31)]) up := by
  unfold runs replies Executes Accepted
  decide +kernel

/-- Flow 8191 enabled. -/
def flowUp : State := { up with sch := { flows := [(8191, { en := true, weight := 1, rate := 1, burst := 1 })] } }

theorem witness_flow_commands :
    runs csFlowSet bodyFlowSet (pk csFlowSet [(0x10, 8191), (0x14, 1), (0x18, 3125000), (0x1C, 1)]) [] flowUp
    ∧ (flowOf flowUp 8191).en = true
    ∧ runs csFlowSet bodyFlowSet (pk csFlowSet [(0x10, 8191), (0x12, 31), (0x13, 7), (0x14, 65535), (0x18, 1), (0x1C, 16777216)]) []
        up
    ∧ (flowOf up 8191).en = false
    ∧ runs csFlowDisable bodyFlowDisable (pk csFlowDisable [(0x10, 8191)]) [] flowUp
    ∧ replies csSchQuery bodySchQuery (pk csSchQuery [(0x10, 8191)]) flowUp := by
  unfold runs replies Executes Accepted
  decide +kernel

theorem witness_stream_commands :
    runs csIdLoad bodyIdLoad (pkBuf csIdLoad 0x18 (bytes 64) [(0x10, 1)]) (bytes 64) up
    ∧ runs csMeterSet bodyMeterSet (pk csMeterSet [(0x10, 8191), (0x12, 3), (0x14, 3125000), (0x1C, 16777216)]) [] up
    ∧ runs csSeqgenSet bodySeqgenSet (pk csSeqgenSet [(0x10, 2047), (0x12, 8191), (0x14, 3)]) [] up
    ∧ runs csSeqrecSet bodySeqrecSet (pk csSeqrecSet [(0x10, 4095), (0x13, 128), (0x14, 1), (0x16, 1)]) [] up
    ∧ replies csStrmQuery bodyStrmQuery (pk csStrmQuery [(0x10, 3), (0x12, 4095)]) up := by
  unfold runs replies Executes Accepted
  decide +kernel

theorem witness_time_commands :
    runs csDomainSet bodyDomainSet (pk csDomainSet [(0x10, 1), (0x11, 127), (0x12, 2)]) [] up
    ∧ ¬((slotOf up 1).domain = 127 ∧ (slotOf up 1).role = 2)
    ∧ runs csDomainSet bodyDomainSet (pk csDomainSet [(0x10, 1)]) [] up
    ∧ (slotOf up 1).domain = 0 ∧ (slotOf up 1).role = 0
    ∧ runs csTimeStep bodyTimeStep (pk csTimeStep [(0x10, 1)]) [] up
    ∧ runs csTimeStep bodyTimeStep (pk csTimeStep []) [] up
    ∧ runs csRateSet bodyRateSet (pk csRateSet [(0x10, 65536)]) [] up
    ∧ runs csPpsSet bodyPpsSet (pk csPpsSet [(0x10, 3), (0x12, 65535)]) [] up
    ∧ replies csTimeQuery bodyTimeQuery (pk csTimeQuery []) up := by
  unfold runs replies Executes Accepted
  decide +kernel

theorem witness_side_commands :
    runs csCastle bodyCastle (pk csCastle []) [] up
    ∧ runs csSelftest bodySelftest (pk csSelftest [(0x10, 0), (0x14, 127)]) [] up ∧ (sideOf up (sideFrom 0)).state = 5
    ∧ runs csSelftest bodySelftest (pk csSelftest [(0x10, 1), (0x14, 1)]) [] up ∧ (sideOf up (sideFrom 1)).state ≠ 5
    ∧ runs csResetStandby bodyResetStandby (pk csResetStandby []) [] up
    ∧ replies csSideQuery bodySideQuery (pk csSideQuery []) up := by
  unfold runs replies Executes Accepted
  decide +kernel

/-- Port 0 is a fabric port whose control frames go to flow 0. -/
def fabUp : State :=
  regStore (regStore { up with sch := { flows := [(0, { en := true })] }, fab := { en := true } } .fabPorts [] 1) .fabCfg [] 2

theorem witness_fabric_commands :
    runs csFabSet bodyFabSet (pk csFabSet [(0x10, 1), (0x11, 0), (0x12, 4095)]) [] fabUp
    ∧ runs csFabSet bodyFabSet (pk csFabSet [(0x10, 1), (0x11, 1)]) [] fabUp
    ∧ runs csFabSet bodyFabSet (pk csFabSet []) [] fabUp
    ∧ runs csRouteLoad bodyRouteLoad (pkBuf csRouteLoad 0x18 (bytes 8) [(0x10, 1)]) (bytes 8) fabUp
    ∧ runs csBypassSet bodyBypassSet (pk csBypassSet [(0x10, 7), (0x11, 1)]) [] up
    ∧ replies csFabQuery bodyFabQuery (pk csFabQuery []) up := by
  unfold runs replies Executes Accepted
  decide +kernel


/-- A P-384 key and its signature over SHA-384 of eight zero bytes, both made with OpenSSL. -/
def clearKeyBytes : List Byte := beBytes
  0x04c926c911fa7949e9f892558971b2f6ab561639631a34f896316094cf0e0f648e1ee8d956bbce04cd75f467c9968fbc2a2c828f8946ad6687b3b559a26009122500bbcca5d7866cd9484ab780420b035c6055138f226fdc938e2f778763a986f5 97

def clearSig : List Byte :=
  beBytes 0x005e6bf6f2f1e67d2391f43f3d45355f52f8277405b58ebd9cc55349b9eb54d1816fddcd4a6327506956215da0bf2dd7 48
  ++ beBytes 0x5ee56494eea3c4bf6b64127299d70c861379e26095da999670b9d74bb620d1b09649164c9ee443d5d806930174004e3b 48

/-- White's running image holds the recorder-clear key; the nonce in force is 0. -/
def clearUp : State :=
  { up with flashW := { cells := writeCells 0xFF [] 0x10000B1 clearKeyBytes }, cmd := { nonce := some (0, 0) } }

theorem witness_recorder_commands :
    runs csNote bodyNote (pk csNote [(0x10, 1), (0x11, 40)]) [] up
    ∧ runs csChallenge bodyChallenge (pk csChallenge []) [] up
    ∧ runs csRecClear bodyRecClear (pkBuf csRecClear 0x20 clearSig []) clearSig clearUp
    ∧ replies csRecQuery bodyRecQuery (pk csRecQuery []) up := by
  unfold runs replies Executes Accepted
  decide +kernel

/-- A signature with one bit changed clears nothing (R79). -/
theorem test_bad_signature_is_refused :
    findings csRecClear bodyRecClear { host := 0 } (pkBuf csRecClear 0x20 (1 :: clearSig.drop 1) [])
      (.data (1 :: clearSig.drop 1)) clearUp = [fAuth] := by decide +kernel

/-- The example of FIPS 180-4: SHA-384 of "abc". -/
theorem test_sha384 : beVal (sha384 [0x61, 0x62, 0x63])
    = 0xcb00753f45a35e8bb5a03d699ac65007272c32ab0eded1631a8b605a43ff5bed8086072ba1e7cc2358baeca134c825a7 := by decide +kernel

/-- Black is standby, its slot 1 is valid and holds an image of the holder's state format. -/
def fwUp : State := { up with flashB := { st1 := 2, cells := writeCells 0xFF [] 0x200000E [0, 0] } }

theorem witness_firmware_commands :
    replies csFwQuery bodyFwQuery (pk csFwQuery []) up
    ∧ runs csFwWrite bodyFwWrite (pkBuf csFwWrite 0x18 (bytes 8) [(0x10, 1), (0x11, 1), (0x14, 4096)]) (bytes 8) fwUp
    ∧ runs csFwVerify bodyFwVerify (pk csFwVerify [(0x10, 1), (0x11, 1)]) [] fwUp
    ∧ runs csFwActivate bodyFwActivate (pk csFwActivate [(0x10, 1), (0x11, 1)]) [] fwUp := by
  unfold runs replies Executes Accepted
  decide +kernel

/-- Bypass mode, no start running; and Safe-Hold without a fault. -/
def idle0 : State := { State.reset with glb := { mode := 0, startBusy := false } }
def held11 : State := { up with glb := { up.glb with mode := 11, safeCause := 1 } }

theorem witness_mode_commands :
    replies csModeQuery bodyModeQuery (pk csModeQuery []) idle0
    ∧ runs csModeStart bodyStartCold (pk csModeStart []) [] up ∧ wantsWarm (pk csModeStart []) = false ∧ monitor up = false
    ∧ runs csModeStart bodyStartCold (pk csModeStart []) [] idle0 ∧ monitor idle0 = true
    ∧ runs csModeStart bodyStartWarm (pk csModeStart [(0x10, 1)]) [] up ∧ wantsWarm (pk csModeStart [(0x10, 1)]) = true
    ∧ runs csConfigEnter bodyConfigEnter (pk csConfigEnter []) [] up
    ∧ runs csConfigExit bodyConfigExit (pk csConfigExit []) [] { up with glb := { up.glb with mode := 3 } }
    ∧ runs csSafeHold bodySafeHold (pk csSafeHold []) [] up
    ∧ runs csResume bodyResume (pk csResume []) [] held11 := by
  unfold runs replies Executes Accepted
  decide +kernel

/-! ### The command processor's own events -/

/-- `up` with a class L command of group `g` that runs. -/
def busy (g : Nat) (c : CmdSpec) (op : LongOp) (s : State) : State :=
  { s with cmd := { s.cmd with running := [(g, { pkt := pk c [], op := op })] } }

/-- A status packet of host 0 that falls due, from a committed Move. -/
def statusDue : State :=
  putCq { up with cmd := { up.cmd with dueStatus := [{ move := 9, pkt := { tag := 7 } }] } } 0 0 {}

theorem witness_command_events :
    dispatching (busy 4 csTapeLoad (.recClear 0 true) up) = true
    ∧ (workEnd (busy 4 csTapeLoad (.recClear 0 true) up) (.recClear 0 true)).isSome
    ∧ (workExpired (busy 1 csPortRecal (.portRecal 31 false) portUp) { op := .portRecal 31 false }).isSome
    ∧ (portOf { up with port := [(31, { recal := true })] } 31).recal = true
    ∧ tfind up.cmd.running 1 = none
    ∧ tfind (busy 1 csPortRecal (.portRecal 31 false) { up with port := [(31, { recal := true })] }).cmd.running 1
      = some { pkt := pk csPortRecal [], op := .portRecal 31 false }
    ∧ hostOk statusDue 0 = true
    ∧ (takeFirst (fun d : DueStatus => d.host == 0) statusDue.cmd.dueStatus).isSome
    ∧ (mayWrite .white statusDue && mayReport statusDue 0 && committed statusDue 9) = true
    ∧ mayWrite .black statusDue = false ∧ (statusDue.cmd.dueStatus.map (fun (d : DueStatus) => d.mon)) = [false] := by
  decide +kernel

/-! ### Submission entries -/

/-- The 64 bytes of an entry, from its fields by offset. -/
def sqe (f : List (Nat × Nat)) : List Byte := leBytes (f.map (fun (x : Nat × Nat) => x.2 <<< (8 * x.1))).sum 64

/-- An entry that the side has accepted, and an SQ that holds it alone. -/
def taken (b : List Byte) : Taken := { bytes := b, accepted := true, nslots := sqeSlots b }
def sq1 (b : List Byte) : Sq := { cqid := 1, entries := [taken b], pi := 1, taken := 1 }

/-- Host 0 may use port 0; flow 0 of port 0 is enabled. -/
def flowZero : State :=
  regStore { up with sch := { flows := [(0, { en := true, weight := 1, rate := 3125000, burst := 16777216 })] } } .queHostPorts [0] 1

/-- Host 0's SQ 1 and CQ 1, and the entry at the SQ's front. -/
def ring (b : List Byte) (s : State) : State := putCq (putSq s 0 1 (sq1 b)) 0 1 {}

/-- The entry of `ring` starts. -/
def starts (b : List Byte) (s : State) (extra : List Finding) : Prop :=
  EntryStarts 0 1 5 (ring b s) (sq1 b) (taken b) extra

/-- The entry of `ring` starts and has a fault. -/
def fails (b : List Byte) (s : State) (extra : List Finding) (f : Finding) : Prop :=
  EntryFails 0 1 5 (ring b s) (sq1 b) (taken b) extra f

/-- The entry of `ring` waited while no side consumed, and a later record has followed. -/
def lateOne : Taken := { taken (sqe [(0, 1), (0x18, 1514)]) with late := true, stamp := { el := 5 } }
def ringLate (s : State) : State :=
  { putCq (putSq s 0 1 { sq1 lateOne.bytes with entries := [lateOne] }) 0 1 {} with jrn := { s.jrn with last := { el := 90 } } }

def eFrame : List Byte := sqe [(0, 1), (0x18, 1514)]
def eRx : List Byte := sqe [(0, 1), (1, 4), (0x18, 16384)]
def eInline : List Byte := sqe [(0, 2), (12, 60)] ++ bytes 64
def eStream : List Byte := sqe [(0, 3), (12, 14), (0x18, 4096)]
def eXfer : List Byte := sqe [(0, 4), (12, 256), (0x10, 32)]
def eGather : List Byte := sqe [(0, 5), (12, 3)]
def eScatter : List Byte := sqe [(0, 5), (12, 0x10003), (0x18, 1)]
def eDirect : List Byte := sqe [(0, 5), (12, 0x10003), (0x18, 30)]
def eFence : List Byte := sqe [(0, 6)]
def eFlush : List Byte := sqe [(0, 6), (1, 8)]

/-- An aggregation function of one segment with one element of one byte at image offset `o`. -/
def aggBody (kind : Nat) (hdr : List (Nat × Nat)) (o : Nat) : List Byte :=
  leBytes ((0, kind) :: hdr ++ [(2, 1), (3, 1), (0x40, 1), (0x42, 1), (0x48, 80), (80, o)]
    |>.map (fun (x : Nat × Nat) => x.2 <<< (8 * x.1))).sum 88

def gatherUp : State := { flowZero with fld := { aggs := [(3, { kind := 1, body := aggBody 1 [(5, 14), (0xC, 0xFF)] 0 })] } }
def scatterUp : State := { flowZero with fld := { aggs := [(3, { kind := 2, body := aggBody 2 [(0xD, 0xFF)] 128 })] } }
/-- A direct function on field port 479, a 10BASE-T1S port. -/
def directUp : State :=
  { flowZero with fld := { ports := [(479, { cfg := { role := 1 } })]
                           aggs := [(3, { kind := 3, body := leBytes (3 + 1 <<< 24 + 479 <<< 80) 64 })] } }

/-- The header of a 10BASE-T1S frame and its 14 bytes. -/
def direct30 : List Byte := bytes 12 ++ leBytes 14 2 ++ [3, 0] ++ bytes 14

theorem witness_entry_starts :
    starts eFrame flowZero (frameExtra (ring eFrame flowZero) eFrame) ∧ sqeType eFrame = tyFrame ∧ sqeRx eFrame = false
    ∧ starts eRx flowZero [] ∧ sqeType eRx = tyFrame ∧ sqeRx eRx = true
    ∧ (sqOf (entryTaken 0 1 5 (ring eRx flowZero) (sq1 eRx) (taken eRx) .rxBuf []) 0 1).isSome
    ∧ starts eInline flowZero (inlineFindings (ring eInline flowZero) eInline) ∧ sqeType eInline = tyInline
    ∧ sqeFlen eInline ≤ sharedFree (ring eInline flowZero) ∧ hostOk (ring eStream flowZero) 0 = true
    ∧ starts eStream flowZero (streamFindings (.data (bytes 16)) (ring eStream flowZero) eStream) ∧ sqeType eStream = tyStream
    ∧ starts eXfer flowZero [] ∧ sqeType eXfer = tyXfer
    ∧ starts eGather gatherUp (gatherFindings 0 (ring eGather gatherUp) eGather) ∧ sqeType eGather = tyAgg ∧ sqeMode eGather = 0
    ∧ aggReady (ring eGather gatherUp) (sq1 eGather) = true := by
  unfold starts EntryStarts
  decide +kernel

/-- A late entry is judged as of its own record, not as of the last one (R366, R383). -/
theorem witness_late_entry :
    EntryStarts 0 1 5 (asOf lateOne (ringLate flowZero)) { sq1 lateOne.bytes with entries := [lateOne] } lateOne
      (frameExtra (asOf lateOne (ringLate flowZero)) lateOne.bytes)
    ∧ (asOf lateOne (ringLate flowZero)).jrn.last = { el := 5 } ∧ (ringLate flowZero).jrn.last = { el := 90 }
    ∧ asOf (taken eFrame) (ring eFrame flowZero) = ring eFrame flowZero := by
  unfold EntryStarts
  decide +kernel

theorem witness_entry_starts_rest :
    starts eScatter scatterUp (scatterFindings 0 (.data [7]) (ring eScatter scatterUp) eScatter)
    ∧ hostOk (ring eScatter scatterUp) 0 = true ∧ (chanOf (ring eScatter scatterUp) 3).halted = false
    ∧ hostOk (ring eDirect directUp) 0 = true ∧ (chanOf (ring eDirect directUp) 3).halted = false
    ∧ sqeType eScatter = tyAgg ∧ sqeMode eScatter = 1 ∧ (ring eScatter scatterUp).glb.mode ≠ 11
    ∧ (aggOf (entryTaken 0 1 5 (ring eScatter scatterUp) (sq1 eScatter) (taken eScatter) .scatter
        (scatterFindings 0 (.data [7]) (ring eScatter scatterUp) eScatter)) 3).kind = 2
    ∧ starts eDirect directUp (scatterFindings 0 (.data direct30) (ring eDirect directUp) eDirect)
    ∧ (aggOf (entryTaken 0 1 5 (ring eDirect directUp) (sq1 eDirect) (taken eDirect) .scatter
        (scatterFindings 0 (.data direct30) (ring eDirect directUp) eDirect)) 3).kind ≠ 2
    ∧ starts eFence flowZero [] ∧ sqeType eFence = tyFence ∧ sqeFlush eFence = false ∧ (sq1 eFence).live = []
    ∧ starts eFlush flowZero [] ∧ sqeFlush eFlush = true ∧ (∀ k ∈ (sq1 eFlush).live, k ∈ (sq1 eFlush).posted)
    ∧ (sqOf (entryTaken 0 1 5 (ring eFlush flowZero) (sq1 eFlush) (taken eFlush) .fence []) 0 1).isSome := by
  unfold starts EntryStarts
  decide +kernel

/-- Port 32 does not exist (R136: ST_RANGE with the offset of PORT); a reserved FLAGS bit is ST_BAD_PARAM. -/
theorem witness_entry_fails :
    fails (sqe [(0, 1), (2, 32), (0x18, 1514)]) flowZero (frameExtra (ring (sqe [(0, 1), (2, 32), (0x18, 1514)]) flowZero)
        (sqe [(0, 1), (2, 32), (0x18, 1514)])) (fRange 2)
    ∧ fails (sqe [(0, 1), (1, 20), (0x18, 64)]) flowZero [] (fParam 0)
    ∧ fails (sqe [(0, 2), (1, 16), (12, 60)]) flowZero (inlineFindings (ring (sqe [(0, 2), (1, 16), (12, 60)]) flowZero)
        (sqe [(0, 2), (1, 16), (12, 60)])) (fParam 0)
    ∧ fails (sqe [(0, 3), (1, 16), (12, 14), (0x18, 4096)]) flowZero (streamFindings (.data (bytes 16))
        (ring (sqe [(0, 3), (1, 16), (12, 14), (0x18, 4096)]) flowZero) (sqe [(0, 3), (1, 16), (12, 14), (0x18, 4096)])) (fParam 0)
    ∧ fails (sqe [(0, 4), (12, 257)]) flowZero [] (fRange 12)
    ∧ startable (putSq (ring eFence flowZero) 0 1 { cqid := 1, entries := [{ taken [] with fault := some .poisoned }] }) 0 1 5
      = some ({ cqid := 1, entries := [{ taken [] with fault := some .poisoned }] }, { taken [] with fault := some .poisoned }) := by
  unfold fails EntryFails
  decide +kernel


/-! ### Rings -/

/-- An SQ of 16 slots with PI 5 and nothing accepted: AI + 1 is 0, and 5 slots are used. -/
def sqFive : Sq := { cqid := 1, pi := 5, weight := 1, page := true }
def ringFive : State := putSq up 0 1 sqFive

/-- 16 − 5 = 11 slots are free: PI moves to 16 and not to 17 (R125). -/
theorem witness_doorbell :
    ringFive.jrn.full = false ∧ { ringFive with jrn := { ringFive.jrn with full := true } }.jrn.full = true
    ∧ pageOf ringFive 0 1 = some sqFive
    ∧ dist ((16 : W32).setWidth 16) sqFive.pi + dist sqFive.pi (sqFive.ai + 1) ≤ 2 ^ sqFive.sizeLog2
    ∧ (16 : W32).setWidth 16 ≠ sqFive.pi ∧ (5 : W32).setWidth 16 = sqFive.pi
    ∧ 2 ^ sqFive.sizeLog2 < dist ((17 : W32).setWidth 16) sqFive.pi + dist sqFive.pi (sqFive.ai + 1)
    ∧ (17 : W32).setWidth 16 ≠ sqFive.pi ∧ pageOf up 0 1 = none := by decide +kernel

def pushed : PushSt := { base := 5, next := 1 }
def cqOne : Cq := { page := true, wi := 2, slots := [{ body := .cqe {}, tag := some 3 }, { body := .cqe {}, tag := some 4 }] }
def ringCq : State := putCq (putSq (putSq up 0 1 sqFive) 0 0 { sqFive with cqid := 0 }) 0 1 cqOne
def turned : Sq := { sqFive with turn := some { first := 0, slots := 2 } }
def wrapped : Sq := { sqFive with turn := some { first := 15, slots := 1, second := 1 } }
/-- The first read has ended with a half of an entry of two slots, and `n` entries may follow. -/
def wrappedHalf (n : Nat) : Sq :=
  { sqFive with turn := some { first := 15, slots := 1, second := 1, got := true, buf := bytes 64, left := n } }

theorem witness_ring_events :
    ringFive.jrn.full = false ∧ ringCq.jrn.full = false ∧ (∀ p, sqFive.push = some p → p.buf = []) ∧ (bytes 256).length % 64 = 0 ∧ pageOf ringFive 0 1 = some sqFive
    ∧ pageOf (putSq up 0 1 { sqFive with push := some pushed }) 0 1 = some { sqFive with push := some pushed }
    ∧ pushed.next + (bytes 192).length / 64 ≤ 4 ∧ 0 < pushed.next ∧ 63 % 64 ≠ 0
    ∧ pageOf ringCq 0 1 = some sqFive ∧ cqPageOf ringCq 0 sqFive.cqid = some cqOne
    ∧ dist ((2 : W32).setWidth 16) cqOne.ci ≤ dist cqOne.wi cqOne.ci
    ∧ dist cqOne.wi cqOne.ci < dist ((3 : W32).setWidth 16) cqOne.ci
    ∧ sqOf ringCq 0 0 = some { sqFive with cqid := 0 }
    ∧ hostOk ringCq 0 = true ∧ consuming ringCq = true ∧ adminPending ringCq 0 = true
    ∧ tget false ringCq.que.adminTurn 0 = false ∧ sqFive.turn = none
    ∧ 1 ≤ dist sqFive.pi sqFive.taken
    ∧ sqOf ringFive 0 1 = some sqFive ∧ 5 ≤ dist sqFive.pi sqFive.taken ∧ 5 ≤ 5 * sqFive.burst
    ∧ adminPending ringFive 0 = false ∧ nextTurn ringFive 0 = some (1, 1)
    ∧ sqOf (putSq up 0 1 turned) 0 1 = some turned ∧ (bytes 128).length = 64 * 2
    ∧ sqOf (putSq up 0 1 wrapped) 0 1 = some wrapped ∧ (∀ n ∈ [0, 3], sqOf (putSq up 0 1 (wrappedHalf n)) 0 1 = some (wrappedHalf n))
    ∧ bytes 64 ≠ [] ∧ (bytes 64).length = 64 * 1 := by decide +kernel

/-- A submitted entry that is not accepted, alone in an SQ. -/
def sqWait : Sq := { cqid := 1, entries := [{ bytes := bytes 64 }] }
def cqeDue : State := { putCq up 0 1 {} with jrn := { up.jrn with dueCqe := [{ move := 9, cq := 1 }] } }
def cqOver : Cq := { ovf := [{ body := .cqe {} }] }

theorem witness_ring_events_rest :
    acksHold (putSq up 0 1 sqWait) 1 = true ∧ sqOf (putSq up 0 1 sqWait) 0 1 = some sqWait
    ∧ (acceptFirst 0 sqWait.entries).map (fun (r : Taken × List Taken) => r.1.lane) = some none
    ∧ acksHold (putSq up 0 0 sqWait) 0 = true ∧ sqOf (putSq up 0 0 sqWait) 0 0 = some sqWait
    ∧ (acceptFirst 0 sqWait.entries).map (fun (r : Taken × List Taken) => r.1.fault) = some none
    ∧ mayWrite .white cqeDue = true ∧ mayReport cqeDue 0 = true ∧ mayWrite .black cqeDue = false
    ∧ (takeFirst (fun d : DueCqe => d.host == 0 && d.cq == 1) cqeDue.jrn.dueCqe).isSome ∧ committed cqeDue 9 = true
    ∧ cqOf cqeDue 0 1 = some {} ∧ ringFull {} = false
    ∧ cqOf (putCq up 0 1 cqOver) 0 1 = some cqOver ∧ mayWrite .white (putCq up 0 1 cqOver) = true
    ∧ cqOf (putCq up 0 0 cqOver) 0 0 = some cqOver ∧ (chanOf (putCq up 0 1 cqOver) 1).halted = false
    ∧ mayReport (putCq up 0 1 cqOver) 0 = true ∧ ringFull cqOver = false := by decide +kernel

/-! ### DMA -/

/-- An operation of this kind waits for a channel. -/
def waits (k : OpKind) (n : Nat) : State := putOp up 5 { kind := k, len := n }
/-- A receive buffer that holds a frame, and a frame whose bytes would pass the end of host memory. -/
def fullBuf : Op := { kind := .rxBuf, len := 1514, rxBytes := bytes 60 }
def pastEnd : Op := { kind := .frame, len := 1514, addr := 0xFFFFFFFFFFFFFFF0 }

theorem witness_channel_assign :
    (∀ k ∈ [OpKind.xfer, .rxBuf, .stream, .frame], opOf (waits k 1514) 5 = some { kind := k, len := 1514 }
      ∧ dispatching (waits k 1514) = true ∧ copyBad { kind := k, len := 1514 } = false ∧ chanBusy (chanOf (waits k 1514) 8) = false
      ∧ chanWaits (waits k 1514) { kind := k, len := 1514 } = true ∧ chanTurn (waits k 1514) { kind := k, len := 1514 } = true)
    ∧ rxTotal { kind := .rxBuf, len := 1514 } = 0 ∧ rxTotal fullBuf ≠ 0 ∧ copyBad fullBuf = false
    ∧ chanWaits (putOp up 5 fullBuf) fullBuf = true ∧ chanTurn (putOp up 5 fullBuf) fullBuf = true
    ∧ copyBad pastEnd = true ∧ chanWaits (putOp up 5 pastEnd) pastEnd = true ∧ chanTurn (putOp up 5 pastEnd) pastEnd = true := by
  decide +kernel

/-- A channel in this state; the pool stopped or not. -/
def chan (c : Nat) (x : ChanSt) (stop : Bool) : State := { up with dma := { chans := [(c, x)], stopped := stop } }

/-- Tick 5,000,000, 10 ms. -/
def lateTick : State := { up with time := { tick := 5000000 } }

/-- A channel that waits for a read from this memory space, asked for at tick 0. -/
def reading (p : ChPhase) (space : Nat) : ChanSt :=
  { kind := .xfer, phase := p, read := some { space := space, want := 64 }, descs := [0], flushes := [0] }

def twoFlushes : ChanSt := { reading .flush 0 with flushes := [0, 1] }

/-- Channel 8 reads its side's DDR5, and channel 9 a host. -/
def bothRead : State := { up with dma := { chans := [(8, reading .data 2), (9, reading .data 0)] } }

/-- Of two faults in one cycle the pool latches the host's, and MULTI is set (R182). -/
theorem test_pool_two_faults :
    (match exec (.dmaBusErrorPool 8 .readErr 16 (some { chan := 9, err := .dataErr, addr := 32 })) bothRead with
     | .next t => t.dma.err.addr.toNat == 32 && t.dma.err.space == 0 && t.dma.multi && t.dma.cand == 0x300
     | _ => false) = true := by decide +kernel

theorem witness_dma_reads :
    dispatching (chan 8 { kind := .xfer, phase := .walk } false) = true
    ∧ (∀ p ∈ [ChPhase.walk, .index, .data], (chanOf (chan 127 (reading p 0) false) 127).read.isSome = true
      ∧ (chanOf (chan 127 (reading p 0) false) 127).phase ≠ .flush
      ∧ streamChan (chan 127 (reading p 0) false) (chanOf (chan 127 (reading p 0) false) 127) = false
      ∧ readDone (chanOf (chan 127 (reading p 0) false) 127) = false
      ∧ canFail (chanOf (chan 127 (reading p 0) false) 127) .readErr = true)
    ∧ dispatching (chan 127 (reading .data 2) false) = true ∧ (chan 127 (reading .data 2) false).dma.stopped = false
    ∧ (chanOf (chan 127 (reading .data 2) false) 127).read.map (fun (q : ReadReq) => q.space) = some 2
    ∧ streamChan (chan 127 (reading .data 2) false) (chanOf (chan 127 (reading .data 2) false) 127) = false := by decide +kernel

theorem witness_dma_events :
    canFail (chanOf (chan 8 { kind := .txCopy, phase := .data } false) 8) .writeErr = true
    ∧ canFail (chanOf bothRead 8) .readErr = true ∧ canFail (chanOf bothRead 9) .dataErr = true ∧ dispatching bothRead = true
    ∧ faultPlace bothRead 9 (busCode .dataErr) ≤ faultPlace bothRead 8 (busCode .readErr)
    ∧ ¬faultPlace bothRead 8 (busCode .readErr) ≤ faultPlace bothRead 9 (busCode .dataErr)
    ∧ chanBusy (chanOf (chan 8 { kind := .rxWrite, phase := .ended } false) 8) = true
    ∧ (chanOf (chan 8 { kind := .rxWrite, phase := .ended } false) 8).phase = .ended
    ∧ (chanOf (chan 8 (reading .flush 0) false) 8).phase = .flush ∧ (chanOf (chan 8 (reading .flush 0) false) 8).read.isSome
    ∧ (reading .flush 0).flushes.tail = [] ∧ twoFlushes.flushes.tail ≠ []
    ∧ (chanOf (chan 7 { kind := .firmware } false) 7).halted = false
    ∧ (chanOf (chan 7 { halted := true, haltMove := 8 } false) 7).halted = true
    ∧ sideCommit (chan 7 { halted := true, haltMove := 8 } false) (chanOf (chan 7 { halted := true, haltMove := 8 } false) 7).haltMove
      = true
    ∧ 0 + timeoutTicks up 0 ≤ lateTick.time.tick ∧ readDone (reading .flush 0) = false
    ∧ dispatching (chan 4 { kind := .firmware, phase := .data } false) = true
    ∧ requestOn (chan 4 { kind := .firmware, phase := .data } false) 4 = true := by decide +kernel

/-- The pool has stopped; AUTO_MS is 255 and as many ms of operating time have passed. -/
def autoStop : State := { regStore (chan 8 {} true) .dmaPoolCfg [] 0xFF000000 with time := { optime := 255 } }

theorem witness_pool_stop :
    (chan 8 { kind := .xfer, phase := .data } true).dma.stopped = true ∧ dispatching autoStop = true ∧ autoStop.dma.stopped = true
    ∧ regFld autoStop .dmaPoolCfg [] 24 8 ≠ 0 ∧ autoStop.dma.stopAt + regFld autoStop .dmaPoolCfg [] 24 8 ≤ autoStop.time.optime
    := by decide +kernel

/-! ### Egress scheduling -/

/-- Flow 0 holds these elements. -/
def flowOf0 (es : List Elem) : State :=
  { up with sch := { flows := [(0, { en := true, weight := 1, rate := 3125000, burst := 16777216, elems := es })] } }

def frameElem : Elem := { bytes := bytes 60, tags := some (0, 100) }
/-- Port 0 works and carries class 0 as express, so that an inline frame of it is one of the express lane (R145). -/
def laneSt : State := ring eInline flowZero
def laneEntry : Taken := { taken eInline with accepted := false, pushed := true, express := true }
def laneSq : Sq := { sq1 eInline with entries := [laneEntry] }
def laneUp : State := putSq laneSt 0 1 laneSq
/-- The same with another frame in the flow, which an inline frame must not pass. -/
def laneBehind : State := putFlow laneUp 0 { flowOf laneUp 0 with elems := [frameElem] }

/-- The same with no CQ for the SQ. -/
def noPlace : State := { laneUp with que := { laneUp.que with cqs := [] } }

theorem witness_scheduling :
    mayWrite .white (flowOf0 [frameElem]) = true ∧ serving (flowOf0 [frameElem]) = true ∧ ticksDone (flowOf0 [frameElem]) = true
    ∧ mayWrite .black (flowOf0 [frameElem]) = false
    ∧ (pickOf (countWaiting 0 0 (flowOf0 [frameElem])) 0 0).map (fun (r : Nat × FlowQ) => (r.1, r.2.elems)) = some (0, [frameElem])
    ∧ frameElem.kind ≠ .stream
    ∧ sqOf laneUp 0 1 = some laneSq ∧ firstNoLane laneSq.entries = some ([], laneEntry, [])
    ∧ mayWrite .white laneUp = true ∧ mayWrite .black laneUp = false ∧ laneReady laneUp 5 laneSq laneEntry = true
    ∧ laneRoom laneUp 0 laneSq laneEntry = true ∧ laneReady noPlace 5 laneSq laneEntry = true ∧ laneRoom noPlace 0 laneSq laneEntry = false
    ∧ sqOf noPlace 0 1 = some laneSq ∧ mayWrite .white noPlace = true ∧ entryFindings 0 laneUp laneSq laneEntry (inlineFindings laneUp eInline) = []
    ∧ laneFits laneUp (sqeFlow eInline) (sqePort eInline) (sqeTc eInline) (flowLen none (inlineBytes eInline)) = true
    ∧ laneFits laneBehind (sqeFlow eInline) (sqePort eInline) (sqeTc eInline) (flowLen none (inlineBytes eInline)) = false := by
  decide +kernel

/-- A stream whose channel waits for the read of its next bytes. -/
def streamOp : Op := { kind := .stream, stage := .onChan 8, tpl := bytes 14, payload := bytes 3000, payLen := 4096 }
/-- The same with its last bytes left. -/
def streamEnd : Op := { streamOp with payload := bytes 4096, sentBytes := 4000 }
def streamElem : Elem := { kind := .stream, tag := some 5, tags := some (0, 100) }
def streamUp : State := putOp (flowOf0 [streamElem]) 5 streamOp
def streamRead (stop : Bool) : State :=
  { streamUp with dma := { chans := [(8, { kind := .txCopy, tag := 5, phase := .data, read := some { want := 128, addr := 64 } })]
                           stopped := stop } }

theorem witness_segment_pick :
    serving streamUp = true ∧ mayWrite .white streamUp = true ∧ mayWrite .black streamUp = false ∧ ticksDone streamUp = true
    ∧ (pickOf streamUp 0 0).map (fun (r : Nat × FlowQ) => (r.1, r.2.elems)) = some (0, [streamElem])
    ∧ opOf streamUp 5 = some streamOp
    ∧ (segmentLen streamUp 0 0 0 streamOp).map (fun (n : Nat) => decide (streamOp.sentBytes + n < streamOp.payLen)) = some true
    ∧ (segmentLen (putOp (flowOf0 [streamElem]) 5 streamEnd) 0 0 0 streamEnd).map (fun (n : Nat) => streamEnd.sentBytes + n)
      = some streamEnd.payLen ∧ streamElem.tags = some (0, 100) := by decide +kernel

/-- A flow whose tag lies 2^40 + 1 behind the class's virtual time. -/
def behind : State :=
  { up with sch := { flows := [(3, { en := true, tag := 2 ^ 48 - 2 ^ 40 - 1 })] } }

/-- A frame of flow 3 that has been staged, or queued, since time 0. -/
def stagedOld : State :=
  later 1000000000 { up with gate := [(0, { staged := [(0, [{ flow := 3, tag := some 5 }])] })] }
def queuedOld : State := later 1000000000 { up with sch := { flows := [(3, { en := true, elems := [frameElem] })] } }
def sampling : State := later 1000 (regStore up .schMonCfg [63] 0x80000000)

theorem witness_scheduling_rest :
    opOf (streamRead false) 5 = some streamOp ∧ dispatching (streamRead false) = true ∧ dispatching (streamRead true) = true
    ∧ (chanOf (dmaGo (streamRead false)) 8).read.map (fun (q : ReadReq) => q.space) = some 0
    ∧ (dmaGo (streamRead false)).dma.stopped = false
    ∧ opOf (streamRead true) 5 = some streamOp ∧ (chanOf (dmaGo (streamRead true)) 8).read.map (fun (q : ReadReq) => q.space) = some 0
    ∧ (dmaGo (streamRead true)).dma.stopped = true
    ∧ (overdueIn stagedOld 3).isSome = true ∧ overdueIn queuedOld 3 = none ∧ consuming queuedOld = true
    ∧ splitAtFirst (elemOver queuedOld (flowOf queuedOld 3) (elapsed queuedOld)) (flowOf queuedOld 3).elems = some ([], frameElem, [])
    ∧ (let d := (vtOf behind 0 0 + 2 ^ 48 - (flowOf behind 3).tag % 2 ^ 48) % 2 ^ 48
       2 ^ 40 < d ∧ d < 2 ^ 47)
    ∧ regFld sampling .schMonCfg [63] 31 1 = 1 ∧ consuming sampling = true ∧ nextSample sampling 63 ≤ elapsed sampling
    ∧ (up.sch.ticks + 1) * 1000 ≤ elapsed (later 1000 up) := by decide +kernel

/-! ### Gates and the MAC Merge sublayer -/

/-- Port 31's gate and its link, up. -/
def gateUp (g : GateP) : State := { portUp with gate := [(31, g)] }

/-- The same with pre-emption enabled and verify disabled. -/
def preUp (g : GateP) : State := regStore (gateUp g) .gateMmCfg [31] 1

def longItem : Staged := { tag := some 5, bytes := bytes 1500 }
def express : GateP := { staged := [(7, [longItem])] }
def preempt : GateP := { staged := [(7, [longItem])], pre := 0x80 }
def cutFrame : OnWire := { cls := 7, pre := true, item := longItem, wire := bytes 1500, sent := 60 }
def twoEntries : GateP := { tape := [{}, { action := 1 }] }

/-- Elapsed time 1 s: every cycle that began at 0 is over, and every Midnight has come. -/
def gateLate (g : GateP) : State := later 1000000000 (gateUp g)

theorem witness_gate_tape :
    (gateOf (gateLate { fill := some (2000000, 2000000, true) }) 31).fill = some (2000000, 2000000, true)
    ∧ 2000000 ≤ elapsed (gateLate { fill := some (2000000, 2000000, true) })
    ∧ (gateOf (gateLate twoEntries) 31).fill = none ∧ (gateOf (gateLate twoEntries) 31).entry + 1 < twoEntries.tape.length
    ∧ twoEntries.midEl + cycleOf (twoEntries.tape.take (twoEntries.entry + 1)) ≤ elapsed (gateLate twoEntries)
    ∧ cycleOver (gateLate {}) (gateOf (gateLate {}) 31) = true ∧ switchAt {} (cycleEndNet (gateLate {}) {}) = none
    ∧ cycleOver (gateLate { pend := some { tape := [{}] } }) (gateOf (gateLate { pend := some { tape := [{}] } }) 31) = true
    ∧ (switchAt { pend := some { tape := [{}] } } (cycleEndNet (gateLate { pend := some { tape := [{}] } })
        { pend := some { tape := [{}] } })).isSome
    ∧ preActive (preUp twoEntries) 31 = true ∧ (∃ x ∈ upcoming (later 1000000000 (preUp twoEntries)) (gateOf (preUp twoEntries) 31), x.2.action.toNat % 4 = 1
      ∧ x.1 ≤ elapsed (later 1000000000 (preUp twoEntries)) + regFld (later 1000000000 (preUp twoEntries)) .gateMmCfg [31] 16 12)
    ∧ preActive (later 1000000000 (preUp twoEntries)) 31 = true
    ∧ (gateOf (preUp twoEntries) 31).wire = none := by decide +kernel

theorem witness_executor :
    txReady (gateUp express) 31 = true ∧ (gateOf (gateUp express) 31).wire = none
    ∧ (firstOf (gateUp express) 31 false 8).isSome
    ∧ txReady (preUp preempt) 31 = true ∧ firstOf (preUp preempt) 31 false 8 = none ∧ (gateOf (preUp preempt) 31).cut = none
    ∧ (preActive (preUp preempt) 31 && (gateOf (preUp preempt) 31).hold) = false
    ∧ (firstOf (preUp preempt) 31 true 8).isSome
    ∧ txReady (preUp { cut := some cutFrame }) 31 = true ∧ firstOf (preUp { cut := some cutFrame }) 31 false 8 = none
    ∧ canResume (preUp { cut := some cutFrame }) 31 cutFrame = true
    ∧ txReady (preUp { express with wire := some cutFrame }) 31 = true ∧ cutFrame.pre = true
    ∧ preActive (preUp { express with wire := some cutFrame }) 31 = true
    ∧ ((firstCut (preUp { express with wire := some cutFrame }) 31 cutFrame).bind (fun d =>
        firstBy (preUp { express with wire := some cutFrame }) 31 false (candidateAt (preUp { express with wire := some cutFrame }) 31
          (afterCut (preUp { express with wire := some cutFrame }) 31 cutFrame d
            - elapsedPs (preUp { express with wire := some cutFrame }))) 8)).isSome
    ∧ (gateOf (gateUp { verify := 2, attempts := 2 }) 31).verify = 2 ∧ (gateOf (gateUp { verify := 2, attempts := 2 }) 31).attempts < 3
    ∧ 3 ≤ (gateOf (gateUp { verify := 2, attempts := 3 }) 31).attempts := by decide +kernel

theorem witness_gate_rows :
    ∃ t, exec (.executorFrameStart 31) (gateUp express) = .next t ∧ t.gate ≠ (gateUp express).gate :=
  ⟨_, rfl, by decide +kernel⟩

/-! ### Ethernet ports and streams -/

/-- Port 31 in this state. -/
def port31 (x : PortSt) : State := { up with port := [(31, x)] }

/-- A frame of EtherType 0x88B5 with a fabric header of TYPE 0. -/
def fabBytes : List Byte := bytes 12 ++ [0x88, 0xB5, 0x10] ++ bytes 49

/-- A recovery function that has passed no frame for its 1 ms. -/
def recDue : State :=
  later 1000000 { up with strm := { recs := [(4095, { en := true, resetMs := 1, takeAny := false })] } }

theorem witness_receive :
    (portOf (port31 { en := true, link := true }) 31).rx = none
    ∧ (reserve 31 ((portOf (port31 { en := true, link := true }) 31).rxMax + 8) (port31 { en := true, link := true })).isSome
    ∧ (portOf (port31 { en := true, link := true, held := 100663296 }) 31).rx = none
    ∧ (reserve 31 1526 (port31 { en := true, link := true, held := 100663296 })).isNone
    ∧ (portOf (port31 { en := true, link := true, rx := some 1526 }) 31).rx = some 1526
    ∧ isTransit (regStore (port31 { en := true, link := true }) .fabPorts [] 0x80000000) 31 fabBytes = true
    ∧ (portOf (port31 { sums := [{ bytes := bytes 60 }] }) 31).sums = [{ bytes := bytes 60 }] ∧ consuming (port31 {}) = true
    ∧ (portOf (port31 { en := true, link := true, rx := some 1526 }) 31).rxHeld = none
    ∧ (port31 { sums := [{ bytes := bytes 60 }] }).dma.chans = [] ∧ claimOf (port31 {}) 31 (bytes 60) = none
    ∧ consuming recDue = true ∧ frerDue (recOf recDue 4095) (elapsed recDue) = true := by
  decide +kernel

def eeeUp : PortSt := { en := true, link := true, eee := true, peerTw := some 0, idleSince := 0 }

theorem witness_link :
    (portOf (port31 { en := true }) 31).link = false ∧ (portOf (port31 { en := true }) 31).recal = false
    ∧ peEn (port31 { en := true }) 31 = false ∧ (port31 { en := true }).fab.open_.getLsbD (31 / 2) = false
    ∧ (portOf (port31 { en := true, link := true }) 31).link = true
    ∧ hasInband (port31 { en := true, iface := 3, speed := 1 }) 31 = true
    ∧ (0 : BitVec 3).toNat ≠ (portOf (port31 { en := true, iface := 3, speed := 1 }) 31).speed
    ∧ nothingStaged (port31 eeeUp) 31 = true ∧ (someOpen (port31 eeeUp) 31 = true ∨ dawnNear (port31 eeeUp) 31 0 = false)
    ∧ nothingStaged (gateUp express) 31 = false
    ∧ (gateOf (port31 eeeUp) 31).wire = none ∧ (gateOf (port31 eeeUp) 31).cut = none
    ∧ regFld { port31 eeeUp with time := { elapsed := BitVec.ofNat 96 (2 ^ 52) } } .portEeeIdle [31] 0 16
      ≤ elapsed { port31 eeeUp with time := { elapsed := BitVec.ofNat 96 (2 ^ 52) } } - eeeUp.idleSince
    ∧ (portOf (port31 { waking := true }) 31).waking = true
    ∧ 0 + twNs (port31 { waking := true }) 31 ≤ elapsed (later 1000000 (port31 { waking := true }))
    ∧ consuming (port31 { link := true }) = true
    ∧ regFld (regStore (port31 { en := true }) .portPcsCfg [31] 1) .portPcsCfg [31] 0 2 ≠ 0
    ∧ (portOf (port31 { link := true }) 31).rxLpi = false ∧ (portOf (port31 { link := true, rxLpi := true }) 31).link = true := by
  decide +kernel

/-! ### Time -/

theorem witness_time_tick :
    up.glb.porst = true ∧ up.time.copyA = up.time.copyB ∧ up.time.copyA = up.time.copyC 
    ∧ up.time.tmrFail = false ∧ (1 : BitVec 96) ≠ 0
    ∧ up.time.copyA ^^^ 1 ≠ up.time.copyB ^^^ 2 ∧ up.time.copyA ^^^ 1 ≠ up.time.copyC ^^^ 4
    ∧ up.time.copyB ^^^ 2 ≠ up.time.copyC ^^^ 4
    ∧ { State.reset with glb := { State.reset.glb with porst := false } }.glb.porst = false := by decide +kernel

/-- One tick at ADJ 0 adds 2 ns; at ADJ 65,536 it adds 2.002 ns, here as 2 ns and 8,589,934 of the 2^32 parts (R85). -/
theorem test_tick_rate :
    (tickAdvance {}).1 = 2 * 2 ^ 32 ∧ (tickAdvance { adj := 65536 }).1 = 2 * 2 ^ 32 + 2 * 2 ^ 32 / 1000 := by decide +kernel

theorem witness_step_and_pps :
    up.sides.castling = none ∧ { up with sides := { up.sides with castling := some true } }.sides.castling ≠ none
    ∧ up.time.tick % 500 = 0 ∧ { up with time := { tick := 499 } }.time.tick % 500 ≠ 0
    ∧ { up with time := { ppsOut := true, ppsDue := true } }.time.ppsOut = true
    ∧ { up with time := { ppsOut := true, ppsDue := true } }.time.ppsDue = true ∧ { up with time := { ppsIn := true } }.time.ppsIn = true
    ∧ up.recd.volatile = false ∧ up.recd.ready = true ∧ 0 + 1000 ≤ ({ up with time := { optime := 1000 } } : State).time.optime
    ∧ up.glb.porst = true ∧ up.time.copyA = up.time.copyB ∧ up.time.copyA = up.time.copyC ∧ tickAdvance up.time = (2 * 2 ^ 32, 0)
    ∧ { up with time := { steps := [-5] } }.time.steps = [-5] ∧ { up with time := { steps := [-5] } }.time.rates = [] := by
  decide +kernel

/-- Slot 0 in this state; port 0 is its slave port as applied, and in TIME_PTP_PORT. -/
def ptpUp (x : DomSlot) : State := regStore { up with ptp := { slot0 := x, ports := [(0, 2)] } } .timePtpPort [0] 2

def txtsUp : State := { regStore up .timeTxtsCfg [31] 1 with time := { txts := [(31, { entries := [{ ns := 5 }] })] } }

/-- REFCLK1 is in use and REVERT is set. -/
def refOne : State := { regStore up .glbClkCfg [] 1 with glb := { up.glb with refSel := true } }

theorem witness_references :
    mustSwitch (putRef 0 false false up) = true ∧ mustSwitch (putRef 1 false false up) = false ∧ up.glb.relHeld = false
    ∧ mustSwitch (putRef 1 true true { up with glb := { up.glb with ref0 := false, qual1 := false } }) = true
    ∧ (putRef 0 true true refOne).glb.refSel = true ∧ regFld (putRef 0 true true refOne) .glbClkCfg [] 0 1 = 1
    ∧ mustSwitch (putRef 0 true false refOne) = false ∧ mustSwitch (putRef 0 true true up) = false
    ∧ (putRef 0 true true up).glb.refSel = false
    ∧ { up with glb := { up.glb with relHeld := true } }.glb.relHeld = true := by decide +kernel

theorem witness_gptp :
    consuming (ptpUp { role := 1, state := 1 }) = true ∧ mayWrite .white (ptpUp { role := 1, state := 1 }) = true
    ∧ mayWrite .black (ptpUp { role := 1, state := 1 }) = false
    ∧ consuming { up with sides := { up.sides with disp := .replay } } = false
    ∧ nobodyHolds { up with sides := { up.sides with disp := .replay } } = false ∧ (slotOf (ptpUp { role := 1, state := 1 }) 0).role ≠ 0
    ∧ hasSlave (settleSlot 0 (syncInterval 0 (ptpUp { role := 1, state := 1 }))) 0 = true
    ∧ ptpPortState (ptpUp { role := 1, state := 1 }) 0 0 ≠ 0
    ∧ (slotOf (ptpUp { role := 1, state := 2 }) 0).state = 2 ∧ (slotOf (ptpUp { role := 1, state := 1 }) 0).state = 1
    ∧ 0 + receiptNs up 0 ≤ elapsed (later 10000000000 up)
    ∧ { up with ptp := { slewing := true } }.ptp.slewing = true
    ∧ ({ up with ptp := { slot0 := { state := 2 }, sel := 1 } }.ptp.sel.val ≠ prefSlot up)
    ∧ slotLocked (slotOf { up with ptp := { slot0 := { state := 2 }, sel := 1 } } 0) = true ∧ prefSlot up = 0
    ∧ 0 + 1000000000 ≤ elapsed (later 1000000000 up)
    ∧ intervalPast (syncNs (ptpUp { role := 1, state := 1 }) 0) (slotOf (ptpUp { role := 1, state := 1 }) 0).sentAt (ptpUp { role := 1, state := 1 })
      = true
    ∧ intervalPast (pdelayNs (ptpUp { role := 1 }) 0) (delayOf (ptpUp { role := 1 }) 0 0).sentAt (ptpUp { role := 1 }) = true
    ∧ intervalPast 1000000000 (some 0) (later 1000000000 up) = true ∧ intervalPast 1000000000 (some 1) (later 1000000000 up) = false
    ∧ up.ptp.slewing = false
    ∧ { up with glb := { up.glb with ref0 := false, ref1 := false } }.glb.ref0 = false
    ∧ regFld txtsUp .timeTxtsCfg [31] 0 3 = whoOf (.host 1) ∧ (popTxts 31 txtsUp).2.ns = 5
    ∧ regFld txtsUp .timeTxtsCfg [31] 0 3 ≠ whoOf .firmware := by decide +kernel


/-! ### Sides, the Chess Clock and Moves -/

/-- `up` with other sides. -/
def sided (w b : SideRec) (h : Option SideId) : State :=
  { up with sides := { up.sides with white := w, black := b, holder := h } }

def dead (r : SideRec) : SideRec := { r with alive := false }
def pressing (r : SideRec) (t : Nat) : SideRec := { r with press := true, pressTick := t }
def handing (x : Handover) : State :=
  { up with sides := { up.sides with handover := x }, jrn := { up.jrn with pending := some (9, true) } }

/-- Two sends of Black's flit 7 have failed. -/
def failing : State := { up with sides := { up.sides with mlFails := tput 0 [] (7 * 2 + sideNum .black) 2 } }

theorem witness_chess_clock :
    pulses (sideOf up .black) = true ∧ (sideOf up .black).healthy = true ∧ (sideOf up (other .black)).alive = true
    ∧ (sideOf (sided (running 5) { running 4 with healthy := false } (some .white)) .black).healthy = false
    ∧ pulses (sideOf (sided (running 5) { running 4 with healthy := false } (some .white)) .black) = true
    ∧ up.sides.mlOk = true ∧ flitFails up .black 7 < 2 ∧ 2 ≤ flitFails failing .black 7 ∧ failing.sides.mlOk = true
    ∧ flitFails failing .white 7 < 2 ∧ pulses (sideOf (sided (running 5) (running 2) (some .white)) .black) = false
    ∧ (sideOf (sided (dead (running 5)) (running 4) (some .white)) .white).alive = false
    ∧ pulses (sideOf (sided (dead (running 5)) (running 4) (some .white)) .white) = true
    ∧ mayPress up .black = true ∧ (sideOf up .black).press = false
    ∧ (sided (running 2) (pressing (running 4) 3) none).sides.holder = none
    ∧ pressWinner (sided (running 2) (pressing (running 4) 3) none) = some .black
    ∧ (sided (running 5) (pressing (running 4) 3) (some .white)).sides.holder = some .white
    ∧ (sideOf (sided (running 5) (pressing (running 4) 3) (some .white)) .black).press = true
    ∧ (sideOf (sided (running 5) (pressing (running 4) 3) (some .white)) .white).alive = true
    ∧ (handing .sent).sides.holder = some .white ∧ (handing .sent).sides.handover = .sent
    ∧ (sideOf (handing .sent) .white).healthy = true ∧ (sideOf (handing .sent) (other .white)).state = 4 ∧ (sideOf (handing .sent) (other .white)).move + 1 = (handing .sent).jrn.move
    := by decide +kernel

/-- Mode 7 with nobody at the Clock; both sides press, White later. -/
def contested : State :=
  let s := sided (pressing (running 4) 6) (pressing (running 4) 5) none
  { s with glb := { s.glb with mode := 7 }, sides := { s.sides with castling := some true }, flashB := { confirmed := true } }

theorem witness_clock_grant :
    contested.sides.white.press = true ∧ contested.sides.black.press = true ∧ contested.sides.holder = none
    ∧ pressWinner contested = some .black ∧ contested.sides.handover = .none ∧ contested.glb.mode = 7
    ∧ contested.sides.castling = some true ∧ contested.jrn.pending = none ∧ (flashOf contested .black).confirmed = true
    ∧ (flashOf contested .black).svnCommit = false := by decide +kernel

/-- Move 10 awaits its commit; the standby's last Move is 9 or 10; the token awaits an acknowledgement or not. -/
def pend (tok : Bool) (mv : Nat) (alive : Bool) : State :=
  { sided (running 5) { running 4 with move := mv, alive := alive } (some .white) with
    jrn := { move := 11, committed := some 9, pending := some (10, tok), token := { move := 10, base := 9 } } }

/-- `n` full runs of the delta have gone out. -/
def heavy (n : Nat) : State := { up with jrn := { up.jrn with delta := List.replicate n { count := 64 } } }

/-- Black is in RESYNC in this phase with so many dirty granules. -/
def resyncing (ph g : Nat) : State :=
  let s := sided (running 5) (running 3) (some .white)
  { s with sides := { s.sides with phase := ph, rsDirty := g }
           jrn := { s.jrn with token := { cutover := ph == 3 && decide (g ≤ 64), move := 9 } } }

/-- In phase 3 the Move has dirtied one line in each of `n` granules; and the ring and the spill region hold all they can. -/
def granules (n : Nat) : State :=
  let s := resyncing 3 0
  { s with jrn := { s.jrn with delta := (List.range n).map (fun k => { first := 8 * k, count := 1 }) } }
def brimful : State := { up with jrn := { up.jrn with ondie := 8388608, spill := 268435456 } }

theorem witness_moves :
    up.glb.porst = true
    ∧ (pend true 9 true).sides.holder = some .white ∧ (pend true 9 true).jrn.pending = some (10, true)
    ∧ (sideOf (pend true 9 true) (other .white)).state = 4 ∧ (sideOf (pend true 9 true) .white).healthy = true
    ∧ (sideOf (pend true 9 true) (other .white)).healthy = true ∧ (sideOf (pend true 9 true) (other .white)).move = 9
    ∧ ({ move := 10, base := 9, crcGood := true } : Token).cutover = false
    ∧ ({ move := 10, base := 9, crcGood := true } : Token).flits = ({ move := 10, base := 9, crcGood := true } : Token).flitsSeen
    ∧ ({ move := 10, base := 9, crcGood := false } : Token).crcGood = false
    ∧ tokenSent { move := 10, base := 9, crcGood := true } (pend true 9 true) = true
    ∧ tokenSent { move := 10, base := 9, crcGood := false } (pend true 9 true) = true
    ∧ tokenSent { move := 9, crcGood := true, cutover := true } (resyncing 3 64) = true
    ∧ (resyncing 3 64).sides.holder = some .white ∧ (resyncing 3 64).jrn.pending = none ∧ (sideOf (resyncing 3 64) (other .white)).state = 3
    ∧ (resyncing 3 64).sides.phase = 3
    ∧ ({ move := 9, crcGood := true, cutover := true } : Token).cutover = true
    ∧ (sideOf (pend true 10 true) (other .white)).move = 10 ∧ (sideOf (pend true 9 true) (other .white)).alive = true
    ∧ (sideOf (pend true 9 false) (other .white)).alive = false
    ∧ (pend false 9 true).jrn.pending = some (10, false) ∧ sheetFull brimful.jrn = true ∧ brimful.jrn.full = false ∧ consuming (heavy 120) = true ∧ 7680 ≤ flitsOf (heavy 120).jrn.delta
    ∧ flitsOf (heavy 118).jrn.delta < 7680 ∧ (heavy 118).sides.phase ≠ 3
    ∧ consuming (granules 32) = true ∧ flitsOf (granules 32).jrn.delta < 7680 ∧ (granules 32).sides.phase = 3
    ∧ 32 ≤ (granulesOf (granules 32).jrn.delta).length := by decide +kernel

def inStep : State := { sided (running 5) (running 7) (some .white) with glb := { up.glb with mode := 6 } }
def testing (x : SideRec) : State :=
  { busy 5 csSelftest (.selftest .black 3 true none) (sided (running 5) x (some .white)) with free := 0 }
def copying (ph : Nat) : State :=
  let s := sided (running 5) (running 3) (some .white)
  { s with sides := { s.sides with phase := ph } }
/-- Black stays OUT after tests from Lockstep until the Mirror Link has passed ten runs (R378). -/
def looping : State :=
  let s := sided (running 5) { running 2 with mustLoop := true } (some .white)
  { s with sides := { s.sides with loopRuns := 9 } }
def restarting : State :=
  { up with sides := { up.sides with disp := .restart, castling := some true }, glb := { up.glb with mode := 7 } }

theorem witness_castling :
    { up with sides := { up.sides with disp := .replay } }.sides.disp = .replay ∧ up.sides.holder.isSome = true
    ∧ restarting.sides.disp = .restart ∧ restarting.sides.holder = some .white ∧ restarting.glb.mode ≠ 2
    ∧ restarting.sides.castling.isSome = true
    ∧ (let u := dmaGo (settleDirect (endIntr (caughtUp { restarting with sides := { restarting.sides with
          disp := .running, castling := none } })))
       (leaveCastling (raise evCastleDone u)).sides.holder = some .white
        ∧ (leaveCastling (raise evCastleDone u)).sides.mlOk = true ∧ (raise evCastleDone u).glb.mode ≠ 2)
    ∧ inStep.sides.holder = some .white ∧ (sideOf inStep (other .white)).state = 7 ∧ inStep.sides.disp ≠ .check
    ∧ ({ data := [0] } : SideOut) ≠ {}
    ∧ { inStep with sides := { inStep.sides with disp := .check } }.sides.disp = .check
    ∧ Machine.inStep inStep.sides.white = true ∧ Machine.inStep inStep.sides.black = true := by decide +kernel

theorem witness_tests_and_copies :
    workOf (testing (running 6)) 5 = some (.selftest .black 3 true none) ∧ (sideOf (testing (running 6)) .black).state = 6
    ∧ BitVec.ofNat 7 3 &&& ~~~(1 : BitVec 7) ≠ 0 ∧ BitVec.ofNat 7 3 &&& ~~~(3 : BitVec 7) = 0
    ∧ (testOutcome stOk { testing (running 6) with sides := { (testing (running 6)).sides with
        stRunning := false, stPassed := 3, stFailed := 0 } }).sides.mlOk = true
    ∧ (∀ k ∈ [1, 2, 3, 4], (copying k).sides.holder = some .white ∧ (sideOf (copying k) (other .white)).state = 3
        ∧ (copying k).sides.phase = k)
    ∧ (copying 2).sides.pass < 15
    ∧ (sideOf looping (other .white)).state = 2 ∧ (sideOf looping (other .white)).mustLoop = true ∧ looping.sides.holder = some .white
    ∧ 9 ≤ looping.sides.loopRuns := by decide +kernel

/-! ### Pins, hosts, power, clocks and modes -/

def held : State := { up with glb := { up.glb with porst := false } }
def outBlack : State := { regStore (sided (running 5) (running 2) (some .white)) .glbStartCfg [] 0x100A0000 with free := 0 }

theorem witness_second_pin :
    ({ up with glb := { up.glb with rstB := false } } : State).glb.rstB = false
    ∧ 3 ≤ ({ up with glb := { up.glb with rstB := false } } : State).glb.mode
    ∧ ({ up with glb := { up.glb with rstW := false } } : State).glb.rstW = false
    ∧ (held.glb.feedA || held.glb.feedB) = true
    ∧ (({ held with glb := { held.glb with ref0 := false, ref1 := false } } : State).glb.ref0
        || ({ held with glb := { held.glb with ref0 := false, ref1 := false } } : State).glb.ref1) = false := by decide +kernel

theorem witness_reset_pins :
    held.glb.porst = false ∧ (held.glb.feedA || held.glb.feedB) = true ∧ (held.glb.ref0 || held.glb.ref1) = true
    ∧ ¬(({ up with glb := { up.glb with feedA := false, feedB := false } } : State).glb.feedA
        || ({ up with glb := { up.glb with feedA := false, feedB := false } } : State).glb.feedB)
    ∧ up.glb.porst = true ∧ up.glb.rstB = true ∧ up.glb.rstW = true ∧ 3 ≤ up.glb.mode ∧ up.glb.mode ≤ 10
    ∧ (sideOf (sided (running 5) { running 4 with flushing := true } (some .white)) .black).flushing = true
    ∧ (sideOf (sided (running 5) {} (some .white)) .black).inReset = true
    ∧ (sideOf (sided (running 5) {} (some .white)) .black).flushing = false
    ∧ feedUp (sided (running 5) {} (some .white)) .black = true
    ∧ (sideOf outBlack .black).state = 2 ∧ regFld outBlack .glbStartCfg [] 16 8 ≠ 0
    ∧ (sideOf outBlack .black).autoResets < autoMax outBlack := by decide +kernel

def loading : State := { up with glb := { up.glb with mode := 1, cfgLoad := true } }
def vecPba : State := putVec up 0 63 { pba := true, addr := 0xFEE00000, data := 5 }
/-- Time Acquisition began at operating time 90 ms and TACQ_MS is 10. -/
def acquiring : State := regStore { up with glb := { up.glb with mode := 4, acqFrom := 90 }, time := { optime := 100 } } .glbStartCfg [] 10
def booting : State := sided (running 5) { state := 1, inReset := false } (some .white)

theorem witness_host_and_power :
    State.reset.glb.porst = true ∧ monitor State.reset = true ∧ monitor up = false ∧ monitor (perstRim 3 up) = false
    ∧ (linkOf up 0).up = true ∧ (vecOf vecPba 0 63).pba = true
    ∧ msixBlocked (putVec vecPba 0 63 { vecOf vecPba 0 63 with masked := false, pba := false }) 0 = false
    ∧ (vecOf up 0 63).pba = false ∧ vecPba.jrn.full = false ∧ msixBlocked vecPba 0 = false ∧ up.glb.porst = true ∧ feedUp up (feedSide .b) = true
    ∧ (tget 0 { up with fld := { viof := [(14, 3)] } }.fld.viof 14).getLsbD 1 = true
    ∧ rimLock up .field = true
    ∧ rimLocked (putLock .field true { up with glb := { up.glb with lockField := false } }) = true
    ∧ (3 : Fin 4) ≠ 0 ∧ loadReady loading = true
    ∧ regFld acquiring .glbStartCfg [] 0 16 ≠ 0 ∧ acquiring.glb.mode = 4
    ∧ acquiring.glb.acqFrom + regFld acquiring .glbStartCfg [] 0 16 ≤ acquiring.time.optime
    ∧ loading.sides.holder = some .white ∧ cfgVerified loading .white = false
    ∧ up.glb.noClock = false ∧ (up.glb.ref0 || up.glb.ref1) = true
    ∧ ({ up with glb := { up.glb with noClock := true } } : State).glb.noClock = true
    ∧ (tget 0 up.fld.viof 14).getLsbD 1 = false
    ∧ ({ booting with glb := { booting.glb with mode := 1 } } : State).glb.mode = 1
    ∧ (sideOf ({ booting with glb := { booting.glb with mode := 1 } } : State) .black).ready = false
    ∧ (sideOf booting .black).state = 1 ∧ (sideOf booting .black).ready = false
    ∧ (bootImage (flashOf booting .black) { verifies := true } {}).isSome := by decide +kernel


/-! ### Field ports and aggregation -/

/-- Field port 479 in this state; every bank of field I/O works. -/
def field (x : FldP) : State := { up with fld := { ports := [(479, x)], viof := (List.range 15).map (fun (k : Nat) => (k, 3)) } }

/-- Role 1 settings of a follower: PLCA enabled with node ID 1. Role 2 settings with automatic bus-off recovery. -/
def follower : FldSet := { role := 1, settings := BitVec.ofNat 224 (1 <<< (8 * 0x0C) + 1 <<< (8 * 0x0D)) }
def canSet : FldSet := { role := 2, settings := BitVec.ofNat 224 (0x20 <<< (8 * 0x0C)) }
def queued : FldP := { cfg := { role := 1 }, txq := [{ num := 1, frame := { fmt := 3, data := bytes 60 } }], bus := some { num := 1 } }

theorem witness_field_ports :
    (fldOf (field { cfg := follower }) 479).rx = none ∧ viofOk (field { cfg := follower }) 479 = true
    ∧ (field { cfg := follower }).fld.held + 1536 ≤ regFld (field { cfg := follower }) .fldBufCfg [] 0 16 * 1024
    ∧ 1536 ≤ sharedFree (field { cfg := follower })
    ∧ (let s := { field { cfg := canSet } with fld := { (field { cfg := canSet }).fld with held := 67108864 } }
       regFld s .fldBufCfg [] 0 16 * 1024 < s.fld.held + 2080 ∧ viofOk s 479 = true ∧ (fldOf s 479).cfg.role = 2)
    ∧ (fldOf (field { cfg := canSet, rx := some 2080 }) 479).rx = some (2079 + 1)
    ∧ (chanOf (field { cfg := canSet, rx := some 2080 }) 4).halted = false
    ∧ fmtTaken canSet { fmt := 0 } = true ∧ fmtTaken canSet { fmt := 1 } = false
    ∧ (fldOf (field { sums := [(bytes 24, {}, {})] }) 479).sums = [(bytes 24, {}, {})]
    ∧ mayWrite .white (field { enqWait := [{ num := 1 }] }) = true ∧ mayWrite .black (field { enqWait := [{ num := 1 }] }) = false
    ∧ (fldOf (field { enqWait := [{ num := 1 }] }) 479).enq + 1 = 1
    ∧ queued.bus = some { num := 1 } ∧ queued.txq[busIdx queued]? = some { num := 1, frame := { fmt := 3, data := bytes 60 } }
    ∧ queued.busOff = false ∧ queued.cfg.role = 1 ∧ viofOk (field queued) 479 = true
    ∧ ({ queued with cfg := canSet } : FldP).cfg.role ≠ 1 ∧ setBit canSet 2 3 = false ∧ (field { next := some follower }).fld.ports.length = 1
    ∧ (fldOf (field { next := some follower }) 479).bus = none
    ∧ (fldOf (field { next := some follower }) 479).next = some follower ∧ follower.role ≠ 0
    ∧ viofOk { field { cfg := canSet, rx := some 2080 } with fld := { (field { cfg := canSet, rx := some 2080 }).fld with viof := [] } } 479 = false
    ∧ fldOf (leaveBus 479 (field { cfg := follower })) 479 = { cfg := follower } ∧ follower.role ≠ 0
    ∧ errsOut { queued with cfg := canSet, tec := 248 } = true ∧ errsOut { queued with cfg := canSet, tec := 247 } = false
    ∧ ({ queued with cfg := canSet, tec := 248 } : FldP).cfg.role = 2 ∧ ({ queued with cfg := canSet, tec := 248 } : FldP).busOff = false
    ∧ ({ cfg := canSet, busOff := true } : FldP).busOff = true
    ∧ setBit canSet 0x0C 5 = true ∧ plcaFollower { cfg := follower } = true := by decide +kernel

def triggered : State :=
  { gatherUp with fld := { aggs := [(3, { kind := 1, body := aggBody 1 [(1, 1), (5, 14), (0xC, 0xFF)] 0 })] }
                  jrn := { up.jrn with triggers := [(0, 0, 77)] } }

theorem witness_aggregation :
    consuming triggered = true ∧ dispatching gatherUp = true ∧ triggered.glb.mode ≠ 11
    ∧ (takeFirst (fun t : Nat × Nat × Nat => trigMatch (seenAgg triggered 3) t.1 t.2.1) triggered.jrn.triggers).isSome
    ∧ trigRoom triggered (trigAggs triggered 0 0) = true ∧ (chanOf gatherUp 2).halted = false ∧ (chanOf gatherUp 3).halted = false
    ∧ (aggOf (putAgg gatherUp 3 { aggOf gatherUp 3 with building := some { bytes := bytes 60 } }) 3).building = some { bytes := bytes 60 }
    ∧ (flowOf (countS .fldAggRuns [3] 0 1 (putAgg gatherUp 3 (aggOf gatherUp 3))) (agFlow (aggOf gatherUp 3).body)).en = true := by
  decide +kernel

/-! ### Fabric and bypass -/

/-- The fabric function runs on port 0, whose link is up. -/
def fabRun : State := { fabUp with port := [(0, { en := true, link := true })] }

/-- A topology message of another node: its UID differs from this part's, whatever that is. -/
def farNode : TopoMsg := { uid := Config.uid + 1, seq := 5 }

theorem farNode_is_another : farNode.uid ≠ Config.uid := by simp [farNode]

theorem witness_fabric :
    fabRuns fabRun = true ∧ fabPort fabRun 0 = true ∧ (portOf fabRun 0).link = true
    ∧ (tget {} fabRun.fab.adjs 0).up = false
    ∧ fabRun.fab.db.find? (fun x => x.uid == farNode.uid) = none
    ∧ newer16 5 5 = false
    ∧ regFld fabRun .fabCfg [] 1 1 = 1 ∧ fabRuns (regStore fabRun .fabCfg [] 0) = true
    ∧ regFld (regStore fabRun .fabCfg [] 0) .fabCfg [] 1 1 = 0
    ∧ fabNow { fabRun with fab := { en := true, idState := 1, nodeId := 4095, idAge := 4 } } = (true, false, 1, 4095)
    ∧ 4095 ∉ dbIds { fabRun with fab := { en := true, idState := 1, nodeId := 4095, idAge := 4 } }
    ∧ consuming { fabRun with sides := { fabRun.sides with disp := .replay } } = false
    ∧ freshTopo fabRun farNode = true
    ∧ heardTopo fabRun farNode.uid + 350000000 ≤ elapsed (later 350000000 fabRun)
    ∧ elapsed (later 349999999 fabRun) < heardTopo fabRun farNode.uid + 350000000
    ∧ consuming fabRun = true ∧ 0 + 3 * (tget {} fabRun.fab.adjs 0).interval * 100000 ≤ elapsed (later 3000000 fabRun)
    ∧ longItem.since + regFld up .fabRelayCfg [] 16 16 * 1000 < elapsed (later 65536000 up)
    ∧ tget [] (gateOf (gateUp { relay := [(7, [longItem])] }) 31).relay 7 = [longItem] := by decide +kernel

/-- A database without another part needs no path. -/
theorem witness_trees : treesGood [] (regStore fabRun .fabCfg [] 0) = true := by
  have h : dbIds (regStore fabRun .fabCfg [] 0) = [] := by decide +kernel
  unfold treesGood
  rw [h]
  rfl

/-- A hello that names this part brings the adjacency of port 0 up, and one that names another leaves it down (R413). -/
theorem witness_hello :
    (tget {} fabRun.fab.adjs 0).up ≠ (({ peerUid := Config.uid } : Hello).peerUid == Config.uid)
    ∧ (tget {} fabRun.fab.adjs 0).up = (({ peerUid := Config.uid + 1 } : Hello).peerUid == Config.uid) := by
  have h : (tget {} fabRun.fab.adjs 0).up = false := by decide +kernel
  exact ⟨by rw [h]; simp, by rw [h]; simp⟩

/-- The database holds the other node's message with a sequence number that the received one does not pass. -/
theorem witness_old_topology :
    ({ fabRun with fab := { fabRun.fab with db := [farNode] } } : State).fab.db.find? (fun x => x.uid == farNode.uid) = some farNode
    := by simp

/-! ### The event recorder, numbered sets -/

def withRec (r : Recorder) : State := { up with recd := r }
def loadAsked : State := { up with recd := { ready := true, readers := [(0, { busy := true })] } }

theorem witness_recorder :
    (withRec { offered := [{ sev := 1 }], ready := true }).recd.offered = [{ sev := 1 }]
    ∧ (withRec { queue := [{ seq := 1 }], ready := true }).recd.volatile = false
    ∧ (withRec { queue := [{ seq := 1 }], ready := true, volatile := true }).recd.queue = [{ seq := 1 }]
    ∧ (withRec { queue := [{ seq := 1 }], ready := true, volatile := true }).recd.volatile = true
    ∧ up.recd.fail0 = false ∧ (1 : Fin 5) ≠ 0
    ∧ (readerOf loadAsked (.host 0)).busy = true ∧ (readerOf loadAsked (.host 0)).ask = 0
    ∧ (withRec { powerUp := none }).recd.ready = false ∧ (withRec { powerUp := none }).jrn.summaries = []
    ∧ (withRec { powerUp := none }).recd.asked = false ∧ loadAsked.recd.ready = true := by decide +kernel

/-- A set of the committed Move 9 with one write, and its gate open or closed. -/
def setOne (m n : Nat) (h : Option SideId) : State :=
  { sided (running 5) (running 4) h with
    jrn := { up.jrn with sets := [{ num := n, move := m, writes := [.raise evStepDone] }], setTaken := 5 } }

theorem witness_rim_set :
    committed (setOne 9 6 (some .white)) 9 = true ∧ mayWrite .white (setOne 9 6 (some .white)) = true
    ∧ (setOne 9 6 (some .white)).jrn.setTaken < 6
    ∧ 5 ≤ (setOne 9 5 (some .white)).jrn.setTaken ∧ mayWrite .white (setOne 9 6 none) = false
    ∧ mayWrite .black (setOne 9 6 (some .white)) = false
    ∧ (setOne 9 6 none).sides.holder ≠ some .white ∧ (setOne 9 6 none).sides.white.state ≠ 7
    ∧ (setOne 9 6 (some .white)).sides.holder ≠ some .black ∧ (setOne 9 6 (some .white)).sides.black.state ≠ 7
    ∧ gateOpen (sided { running 5 with healthy := false } (running 4) (some .white)) = false
    ∧ (sideOf inStep .black).state = 7 ∧ inStep.sides.holder = some (other .black)
    ∧ committed (setOne 10 6 (some .white)) 10 = false := by decide +kernel

/-- Host 0 has set the bases of its admin queues; 16 entries each, vector 63, AQ_EN. -/
def aqReady : State := regStore (regStore up .cmdAsqBaseLo [0] 0x1000) .cmdAcqBaseLo [0] 0x2000
def aqWrite : W32 := 0x803F0404
/-- A held read of host 0, and one and a write that stand in Scoresheet order. -/
def holdingRead : State := { up with jrn := { up.jrn with heldReads := [(0, regAddr .cmdAqCfg [0])] } }
def orderedRead : State := { up with jrn := { up.jrn with regs := [(.read 0 (regAddr .dmaPoolStops []), {})] } }
def orderedWrite : State := { up with jrn := { up.jrn with regs := [(.write 0 (regAddr .dmaPoolCfg []) 1 15, {})] } }

/-- No side holds the Clock in Safe-Hold mode, with a read held (R438); and a PERSTn_N that waits in Scoresheet order. -/
def awayRead : State :=
  { holdingRead with sides := { up.sides with holder := none }, glb := { up.glb with mode := 11 } }
def orderedPerst : State := { up with jrn := { up.jrn with regs := [(.perst 0, {})] } }

theorem witness_register_rows_rest :
    sidesAway awayRead = true ∧ (0, regAddr .cmdAqCfg [0]) ∈ awayRead.jrn.heldReads ∧ sidesAway holdingRead = false
    ∧ sidesAway orderedRead = false ∧ sideAnswers orderedRead = true ∧ consuming orderedPerst = true
    ∧ orderedPerst.jrn.regs = [(.perst 0, {})] := by decide +kernel

theorem witness_register_rows :
    consuming aqReady = true ∧ aqReady.jrn.full = false ∧ ({ up with jrn := { up.jrn with full := true } } : State).jrn.full = true
    ∧ aqReady.jrn.regs = [] ∧ (aqOf aqReady 0).en = false ∧ bitN aqWrite.toNat 31 = true
    ∧ aqCfgOk aqReady 0 aqWrite = true ∧ sideAnswers holdingRead = true ∧ holdingRead.jrn.regs = []
    ∧ (0, regAddr .cmdAqCfg [0]) ∈ holdingRead.jrn.heldReads ∧ sideAnswers orderedRead = true
    ∧ orderedRead.jrn.regs = [(.read 0 (regAddr .dmaPoolStops []), {})] ∧ consuming orderedWrite = true
    ∧ orderedWrite.jrn.regs = [(.write 0 (regAddr .dmaPoolCfg []) 1 15, {})] := by decide +kernel

theorem witness_event_and_register_rows :
    (vecOf (putVec (regStore up .evtCoal [0, 63] 0x00050005) 0 63 { pending := 1 }) 0 63).pending ≠ 0
    ∧ coalOff (putVec (regStore up .evtCoal [0, 63] 0x00050005) 0 63 { pending := 1 }) 0 63 = false
    ∧ consuming up = true := by decide +kernel

/-! ### Rules over every admin command, rings and registers -/

theorem witness_inv : Inv State.reset ∧ (step State.reset = .next State.reset) :=
  ⟨⟨by decide, by decide, by decide⟩, rfl⟩

/-- A QUE_DELETE_SQ of an SQ that does not exist: in service it has its turn and one fault applies, ST_STATE. -/
def badDelete : Packet := pk csDeleteSq [(0x10, 1)]

theorem witness_refusal :
    HasTurn (.queDeleteSq 0 badDelete) (asks badDelete up) 0 badDelete csDeleteSq bodyDeleteSq (.data [])
    ∧ worst (findings csDeleteSq bodyDeleteSq (issuer 0 (asks badDelete up)) badDelete (.data [])
        (consumeAdmin 0 (asks badDelete up))) = some (fStateAt 0x10)
    ∧ monitor (asks badDelete up) = false ∧ dryRun badDelete = false ∧ groupOf badDelete = 0 := by
  unfold HasTurn
  exact ⟨⟨rfl, by decide +kernel, by decide +kernel, by decide +kernel⟩, by decide +kernel⟩

/-- The same to the start monitor: groups of service are refused with ST_STATE in mode 0 (R52, R78). -/
theorem witness_refusal_by_monitor :
    HasTurn (.queDeleteSq 0 badDelete) (asks badDelete idle0) 0 badDelete csDeleteSq bodyDeleteSq (.data [])
    ∧ (worst (findings csDeleteSq bodyDeleteSq (issuer 0 (asks badDelete idle0)) badDelete (.data [])
        (consumeAdmin 0 (asks badDelete idle0)))).map (·.status) = some stState
    ∧ monitor (asks badDelete idle0) = true := by
  unfold HasTurn
  exact ⟨⟨rfl, by decide +kernel, by decide +kernel, by decide +kernel⟩, by decide +kernel⟩

/-- A dry run, a query and a command without permission that have their turn. -/
def dryDelete : Packet := { badDelete with flags := 2 }
def noPerm : State := regStore up .cmdPerm [0] 0

theorem witness_turns :
    HasTurn (.queDeleteSq 0 dryDelete) (asks dryDelete up) 0 dryDelete csDeleteSq bodyDeleteSq (.data [])
    ∧ dryRun dryDelete = true ∧ csDeleteSq.query = false
    ∧ HasTurn (.timeQuery 0 (pk csTimeQuery [])) (asks (pk csTimeQuery []) up) 0 (pk csTimeQuery []) csTimeQuery bodyTimeQuery
        (.data [])
    ∧ csTimeQuery.query = true
    ∧ findings csTimeQuery bodyTimeQuery (issuer 0 (asks (pk csTimeQuery []) up)) (pk csTimeQuery []) (.data [])
        (consumeAdmin 0 (asks (pk csTimeQuery []) up)) = []
    ∧ HasTurn (.queDeleteSq 0 badDelete) (asks badDelete noPerm) 0 badDelete csDeleteSq bodyDeleteSq (.data [])
    ∧ badDelete.opcode.toNat = csDeleteSq.opcode ∧ regFld (asks badDelete noPerm) .cmdPerm [0] (groupOf badDelete) 1 = 0
    ∧ (asks (pk csSetQuota []) up).cmd.priv ≠ 1 ∧ csSetQuota.priv = true
    ∧ (pk csQueQuery []).opcode.toNat ≠ csDeleteSq.opcode
    ∧ (tfind (busy 4 csTapeLoad (.recClear 0 true) up).cmd.running 4).isSome ∧ stState ≠ stOk := by
  unfold HasTurn
  exact ⟨⟨rfl, by decide +kernel, by decide +kernel, by decide +kernel⟩, by decide +kernel, by decide +kernel, ⟨rfl, by decide +kernel, by decide +kernel, by decide +kernel⟩,
    by decide +kernel, by decide +kernel, ⟨rfl, by decide +kernel, by decide +kernel, by decide +kernel⟩, by decide +kernel⟩

/-- A port command in group 0x02 has its turn in service. -/
theorem witness_sets_rule :
    HasTurn (.portEnable 0 (pk csPortEnable [(0x10, 31), (0x11, 1)])) (asks (pk csPortEnable [(0x10, 31), (0x11, 1)]) up) 0
      (pk csPortEnable [(0x10, 31), (0x11, 1)]) csPortEnable bodyPortEnable (.data [])
    ∧ groupOf (pk csPortEnable [(0x10, 31), (0x11, 1)]) ∈ [0, 1, 2, 3, 4, 6, 7] := by
  unfold HasTurn
  exact ⟨⟨rfl, by decide +kernel, by decide +kernel, by decide +kernel⟩, by decide +kernel⟩

/-- The last index before and the first after a round of a 16-slot ring. -/
theorem witness_phase_bit :
    cqOf cqeDue 0 1 = some {} ∧ (({} : Cq).ovf = []) ∧ ringFull {} = false ∧ mayReport cqeDue 0 = true ∧ mayWrite .white cqeDue = true
    ∧ hostOk statusDue 0 = true ∧ mayReport statusDue 0 = true
    ∧ cqOf statusDue 0 0 = some {} ∧ (15 : Idx).toNat % 2 ^ 4 = 2 ^ 4 - 1 ∧ (14 : Idx).toNat % 2 ^ 4 ≠ 2 ^ 4 - 1
    ∧ phaseOf 4 15 = 1 ∧ phaseOf 4 16 = 0 ∧ phaseOf 15 0xFFFF = 0 ∧ phaseOf 15 0 = 1 := by decide +kernel

/-- TIME_NOW_LO of host 1 and of firmware; a port counter; a latched HI word. -/
theorem witness_latches :
    Names (regAddr .timeNowLo []) .timeNowLo [] ∧ readNow (.host 1) (regAddr .timeNowLo []) up ∧ readNow .firmware 0 up
    ∧ (pairVal up .timeNowLo []).isSome ∧ readNow (.host 0) (regAddr .portCntLo [31, 37]) up
    ∧ Names (regAddr .timeNowHi []) .timeNowHi [] ∧ isLatched .timeNowHi = true
    ∧ readNow (.host 0) (regAddr .timeNowHi []) up := by
  unfold Names readNow
  decide +kernel

/-- Host 0's masks cleared: block 7 of SCH_MON_CFG is neither readable nor writable; firmware reads all the same. -/
theorem witness_masks :
    Names (regAddr .schMonCfg [63]) .schMonCfg [63] ∧ ownRules .schMonCfg = false
    ∧ permBit (regStore up .glbHostPerm [0] 0) 0 0 (regAddr .schMonCfg [63]) = false
    ∧ permBit (regStore up .glbHostPerm [0] 0) 0 16 (regAddr .schMonCfg [63]) = false
    ∧ Names (regAddr .timeTxtsCfg [31]) .timeTxtsCfg [31] ∧ ownRules .timeTxtsCfg = false
    ∧ sideAddr (regAddr .timeTxtsCfg [31]) = false
    ∧ permBit (regStore up .glbHostPerm [0] 0xFFFFFFFF) 0 0 (regAddr .timeTxtsCfg [31]) = true
    ∧ permBit (regStore up .glbHostPerm [0] 0xFFFFFFFF) 0 16 (regAddr .timeTxtsCfg [31]) = true
    ∧ permBit (regStore up .glbHostPerm [0] 0xFFFFFFFF) 0 16 (regAddr .evtPinStat [7]) = true
    ∧ consuming up = true ∧ up.jrn.full = false := by
  unfold Names
  decide +kernel

/-- A frame with an R-TAG of sequence number 100, and a recovery function whose RECOV_SEQ stands so. -/
def tagged : List Byte := bytes 12 ++ [0xF1, 0xC1, 0, 0, 0, 100] ++ bytes 46
def recv (r : BitVec 16) (h : BitVec 128) (any : Bool) : SeqRec := { en := true, history := 32, recov := r, hist := h, takeAny := any }

theorem witness_sequence_recovery :
    rtagOf tagged = some 100 ∧ frerDue (recv 99 1 false) 0 = false ∧ (recv 0 0 true).takeAny = true
    ∧ ((recv 68 1 false).history : Int) ≤ |seqDiff 100 68| ∧ seqDiff 100 69 = 31 ∧ (31 : Nat) < (recv 69 1 false).history
    ∧ seqDiff 100 131 = -31 ∧ (recv 131 (2 ^ 31) false).hist.getLsbD 31 = true
    ∧ (recv 131 1 false).hist.getLsbD 31 = false ∧ seqDiff 100 100 = 0 := by decide +kernel

/-! ### Values that the spec gives -/

/-- The check value of CRC-32C: the nine ASCII digits give 0xE3069283. -/
theorem test_crc32c : crc32c [0x31, 0x32, 0x33, 0x34, 0x35, 0x36, 0x37, 0x38, 0x39] = 0xE3069283 := by decide +kernel

/-- R120: indexes are free-running modulo 2^16, so from 0xFFFE to 1 the distance is 3. -/
theorem test_dist_wraps : Sys2Proof.Machine.dist 1 0xFFFE = 3 := by decide

/-- R125: eleven free slots of sixteen are taken, and AI does not move. -/
theorem test_doorbell :
    (match exec (.sqDbWrite 0 1 true 16) ringFive with
      | .next t => (sqOf t 0 1).map (fun (x : Sq) => (x.pi, x.ai))
      | _ => none) = some (16, 0xFFFF) := by decide +kernel

/-- R85 and R86: a tick with copy B upset leaves three equal copies 2 ns later. -/
theorem test_tick_repairs :
    (match exec (.timeTick 0 0xFF 0) up with
      | .next t => t.time.copyA == 0x200000000 && t.time.copyB == 0x200000000 && t.time.copyC == 0x200000000
      | _ => false) = true := by decide +kernel

/-- R55, R59: an accepted QUE_CREATE_CQ counts the generation of its group and gives ST_OK with the new count. -/
theorem test_generation :
    (match exec (.queCreateCq 0 (pk csCreateCq [(0x10, 1), (0x12, 4), (0x18, 4096)]))
        (asks (pk csCreateCq [(0x10, 1), (0x12, 4), (0x18, 4096)]) up) with
      | .next t => t.cmd.dueStatus.map (fun (d : DueStatus) => (d.pkt.status, d.pkt.gen))
      | _ => []) = [(0, 1)] := by decide +kernel

/-- R62: a host without permission gets ST_DENIED although the packet is malformed too. -/
theorem test_permission_first :
    (match exec (.queDeleteSq 0 { badDelete with plen := 9 }) (asks { badDelete with plen := 9 } noPerm) with
      | .next t => t.cmd.dueStatus.map (fun (d : DueStatus) => (d.pkt.status, d.pkt.detail))
      | _ => []) = [(stDenied, 0xFFFF)] := by decide +kernel

/-- R309: sequence number 100 after 99 passes and moves the history by one; again it is discarded. -/
theorem test_recovery :
    (recover 0 tagged 0 { up with strm := { recs := [(0, recv 99 1 false)] } }).2 = true
    ∧ recOf (recover 0 tagged 0 { up with strm := { recs := [(0, recv 99 1 false)] } }).1 0 = recv 100 3 false
    ∧ (recover 0 tagged 0 { up with strm := { recs := [(0, recv 100 3 false)] } }).2 = false := by decide +kernel

/-- Rows that give no bits spell no command, and nothing is put in front of the queue. -/
theorem test_no_words : decodeTableWord 32 0x0101 = none ∧ up.withFetchWord 32 0x0101 = up := by decide +kernel

/-- A written byte reads back; writing the default takes the entry out again. -/
theorem test_flash_cells :
    readCell 0xFF (writeCell 0xFF [] 5 0x12) 5 = 0x12 ∧ writeCell 0xFF (writeCell 0xFF [] 5 0x12) 5 0xFF = [] := by decide

/-! ### Ill-formed commands are refused by `wellFormed` -/

theorem test_ill_formed_packets :
    wellFormed (.queCreateCq 0 (pk csTimeQuery [])) = false
    ∧ wellFormed (.recClear 0 (pkBuf csRecClear 0x20 (bytes 96) []) (.data (bytes 95))) = false
    ∧ wellFormed (.configLoadItem (.regWrite 2 0)) = false
    ∧ wellFormed (.configLoadItem (.regWrite 0x2000000 0)) = false := by decide +kernel

theorem test_ill_formed_reads (n : Nat) (h : 16777216 < n) :
    wellFormed (.streamSend 0 1 5 (.data (List.replicate n 0))) = false
    ∧ wellFormed (.payloadPrefetch 5 (List.replicate n 0)) = false := by
  simp [wellFormed, readOk, h]

theorem test_ill_formed_events :
    wellFormed (.sqPushWrite 0 1 256 (bytes 64)) = false ∧ wellFormed (.sqPushWrite 0 1 0 []) = false
    ∧ wellFormed (.ringFetchTurn 0 1 0) = false ∧ wellFormed (.ringFetchComplete 0 1 (bytes 65)) = false
    ∧ wellFormed (.dmaReadCompletion 8 []) = false ∧ wellFormed (.dmaWithdraw 0 16777217) = false
    ∧ wellFormed (.portFrameRxEnd 0 {}) = false ∧ wellFormed (.transitRelay 0 {} false) = false
    ∧ wellFormed (.lldpEeeTlvRx 0 65536 0) = false ∧ wellFormed (.commitTokenRx { flits := 32769 }) = false
    ∧ wellFormed (.replayEnd [5, 5] []) = false
    ∧ wellFormed (.dispatchRestartEnd (2 ^ 32)) = false ∧ wellFormed (.resyncPhaseEnd (2 ^ 32)) = false
    ∧ wellFormed (.fieldFrameRxEnd 0 (.good { data := bytes 2049 })) = false ∧ wellFormed (.helloRx 0 { interval := 101 }) = false
    ∧ wellFormed (.topologyRx 0 { nbrs := List.replicate 33 {} }) = false ∧ wellFormed (.routeCompute [{ first := List.replicate 65 (0, 0) }]) = false
    ∧ wellFormed (.counterReadClear .firmware 0x2000000) = false ∧ wellFormed (.loWordRead .firmware 0x2000000) = false
    ∧ wellFormed (.loWordRead (.host 0) 0x400000 .bar2) = false ∧ wellFormed (.registerWrite 0 0x10000 15 0 .bar4) = false
    ∧ wellFormed (.heldSideReadComplete 0 0x2000000) = false ∧ wellFormed (.registerWrite 0 0x2000000 15 0) = false
    ∧ wellFormed (.supplySelectorSwitch .vcore 0) = false ∧ wellFormed (.sideBootEnd .white (.failed 0) {} {}) = false
    ∧ wellFormed (.plcaBeaconReturn 0 256) = false := by decide +kernel

end Sys2Proof.Tests
end

section
/-!
The register rows (R36, R37, R48, R82, R526 to R530). The operands of each row, then the place
in Scoresheet order that a side register's write takes, then what a write of CMD_AQ_CFG and a held read do there.
-/

namespace Sys2Proof.Machine

/-! ### The rows as calls of the shared accesses -/

theorem exec_registerWrite_of_full (h : Host) (a : Nat) (e : BitVec 4) (v : W32) (b : Bar) {s : State} (hf : s.jrn.full = true) :
    exec (.registerWrite h a e v b) s = .next s := by
  simp [exec, execRegisterWrite, hf]

theorem exec_registerWrite_of_room (h : Host) (a : Nat) (e : BitVec 4) (v : W32) (b : Bar) {s : State} (hf : s.jrn.full = false) :
    exec (.registerWrite h a e v b) s = .next (match b with
      | .bar0 => hostWrite h.val a e v s
      | .bar2 => writePage h.val a e v s
      | .bar4 => writeMsix h.val a e v s
      | .config => s) := by
  cases b <;> simp [exec, execRegisterWrite, hf]

/-- R37: with a side that consumes, the row is the application of the oldest item that waits. -/
theorem exec_sideRegWriteApply_of_consuming {s : State} (hc : consuming s = true) :
    exec .sideRegWriteApply s = .next (applyOldest s) := by
  simp [exec, execSideRegWriteApply, hc]

/-- R528: a part of an aligned DWORD of BAR0 reads 0 and counts FORMAT. -/
theorem partRead_of_mapped (h : Host) {a : Nat} (s : State) (ha : a < 0x2000000) :
    partRead (.host h) a s = putRead (.host h) 0 (accErr h.val 0 s) := by
  simp [partRead, Nat.not_le.mpr ha]

/-! ### An item takes its place in Scoresheet order (R37, R390) -/

@[simp] theorem keepReg_regs (x : RegRec) (s : State) : (keepReg x s).regs = s.regs := rfl
@[simp] theorem keepReg_cmd (x : RegRec) (s : State) : (keepReg x s).cmd = s.cmd := rfl
@[simp] theorem keepReg_jrn_regs (x : RegRec) (s : State) : (keepReg x s).jrn.regs = s.jrn.regs ++ [(x, stampNow s)] := rfl

@[simp] theorem consuming_keepReg (x : RegRec) (s : State) : consuming (keepReg x s) = consuming s := rfl

/-- A side that consumes holds the Clock, so a side answers for the side blocks (R438). -/
theorem sidesAway_of_consuming {s : State} (hc : consuming s = true) : sidesAway s = false := by
  cases hd : s.sides.holder with
  | none => simp [consuming, dispatching, hd] at hc
  | some d => simp [sidesAway, hd]

theorem applyOldest_write (h : Host) {a : Nat} {v : W32} {e : BitVec 4} {st : Stamp} {r : List (RegRec × Stamp)} {s : State}
    (hr : s.jrn.regs = (.write h.val a v e, st) :: r) :
    applyOldest s = consumeAt st (applyWrite (.host h) a v) { s with jrn := { s.jrn with regs := r } } := by
  simp [applyOldest, hr]

theorem applyOldest_perst {h : Nat} {st : Stamp} {r : List (RegRec × Stamp)} {s : State}
    (hr : s.jrn.regs = (.perst h, st) :: r) :
    applyOldest s = consumeAt st (perstSide h) { s with jrn := { s.jrn with regs := r } } := by
  simp [applyOldest, hr]

/-- What the side keeps of an input that it took later is what the input made, but for its present time. -/
@[simp] theorem aqOf_resume (s t : State) (h : Nat) : aqOf (resume s t) h = aqOf t h := rfl
@[simp] theorem sqOf_resume (s t : State) (h q : Nat) : sqOf (resume s t) h q = sqOf t h q := rfl
@[simp] theorem cqOf_resume (s t : State) (h c : Nat) : cqOf (resume s t) h c = cqOf t h c := rfl
@[simp] theorem resume_jrn_regs (s t : State) : (resume s t).jrn.regs = t.jrn.regs := rfl

/-! ### CMD_AQ_CFG: from the access to its effect (R82, R83) -/

/-- The address of a host's CMD_AQ_CFG names that register again, in a side block and on a DWORD. -/
theorem cmdAqCfg_address (h : Host) :
    findReg (regAddr .cmdAqCfg [h.val]) = some (rowOf .cmdAqCfg, [h.val]) ∧ sideAddr (regAddr .cmdAqCfg [h.val]) = true
      ∧ regAddr .cmdAqCfg [h.val] % 4 = 0 ∧ regAddr .cmdAqCfg [h.val] < 0x2000000 := by
  revert h; decide +kernel

theorem cmdAqCfg_row : (rowOf .cmdAqCfg).reg = .cmdAqCfg ∧ (rowOf .cmdAqCfg).rwl = 0 := by decide +kernel

/-- R536: each host writes its own CMD_AQ_CFG whatever its masks hold. -/
theorem writeAllowed_own_cmdAqCfg (s : State) (h : Host) : writeAllowed s h.val (regAddr .cmdAqCfg [h.val]) = true := by
  obtain ⟨hfind, -⟩ := cmdAqCfg_address h
  simp [writeAllowed, hfind, cmdAqCfg_row.1, ownCopy, sidePriv, ownWrite]

/-- What a host's write of its own CMD_AQ_CFG leaves in Scoresheet order. -/
def aqCfgItem (h : Host) (v : W32) : RegRec := .write h.val (regAddr .cmdAqCfg [h.val]) v 0xF

/-- While a side answers, a host's write of its own CMD_AQ_CFG is recorded. -/
theorem writeAt_own_cmdAqCfg (h : Host) (v : W32) {s : State} (hf : s.jrn.full = false) (ha : sidesAway s = false) :
    writeAt h.val .cmdAqCfg [h.val] v s = keepReg (aqCfgItem h v) s := by
  obtain ⟨-, hside, haligned, hmapped⟩ := cmdAqCfg_address h
  simp [aqCfgItem, writeAt, hostWrite, hf, ha, hside, haligned, Nat.not_le.mpr hmapped, writeAllowed_own_cmdAqCfg]

/-- No lock and no range stands before a write of CMD_AQ_CFG at its place. -/
theorem applyWrite_cmdAqCfg (r : Reader) (h : Host) (v : W32) (s : State) :
    applyWrite r (regAddr .cmdAqCfg [h.val]) v s = writeAqCfg h.val v s := by
  obtain ⟨hfind, -⟩ := cmdAqCfg_address h
  obtain ⟨hreg, hrwl⟩ := cmdAqCfg_row
  have hpriv : privOk s r .cmdAqCfg = true := by cases r <;> rfl
  simp [applyWrite, hfind, hreg, hrwl, hpriv, inRange, writeReg]

/-- With nothing before it in Scoresheet order, a host's write of its own CMD_AQ_CFG is recorded and acts at once, on a state with
the stored registers and the admin queues of before. -/
theorem writeSide_own_cmdAqCfg (h : Host) (v : W32) {s : State} (hc : consuming s = true) (hf : s.jrn.full = false)
    (hr : s.jrn.regs = []) :
    ∃ t, t.regs = s.regs ∧ t.cmd = s.cmd ∧ t.jrn.regs = []
      ∧ writeSide h.val .cmdAqCfg [h.val] v s = consumeAt (stampNow s) (writeAqCfg h.val v) t := by
  have hkept := writeAt_own_cmdAqCfg h v hf (sidesAway_of_consuming hc)
  have hitems : (keepReg (aqCfgItem h v) s).jrn.regs = [(aqCfgItem h v, stampNow s)] := by simp [hr]
  refine ⟨{ keepReg (aqCfgItem h v) s with jrn := { (keepReg (aqCfgItem h v) s).jrn with regs := [] } },
    keepReg_regs (aqCfgItem h v) s, keepReg_cmd (aqCfgItem h v) s, rfl, ?_⟩
  simp only [writeSide, hkept, hr, consuming_keepReg, hc, List.isEmpty_nil, Bool.and_self, if_true]
  rw [applyOldest_write h hitems, funext (applyWrite_cmdAqCfg (.host h) h v)]

/-! ### The admin queue pair exists (R48, R82) -/

@[simp] theorem keepPage_jrn (h q : Nat) (s : State) : (keepPage h q s).jrn = s.jrn := by
  unfold keepPage; split <;> rfl

@[simp] theorem keepCqPage_jrn (h c : Nat) (s : State) : (keepCqPage h c s).jrn = s.jrn := by
  unfold keepCqPage; split <;> rfl

/-- The queues of a pair enabled under the value `v` of CMD_AQ_CFG: empty, with the sizes and the vector that `v` gives. -/
def newAdminSq (h : Nat) (v : W32) (s : State) : Sq :=
  { sizeLog2 := bitsN v.toNat 0 4, page := monitor s
    base := BitVec.ofNat 64 (regVal s .cmdAsqBaseLo [h] + regVal s .cmdAsqBaseHi [h] * 2 ^ 32) }

def newAdminCq (h : Nat) (v : W32) (s : State) : Cq :=
  { sizeLog2 := bitsN v.toNat 8 4, vec := bitsN v.toNat 16 6, irqEn := true, page := monitor s
    base := BitVec.ofNat 64 (regVal s .cmdAcqBaseLo [h] + regVal s .cmdAcqBaseHi [h] * 2 ^ 32) }

/-- Enabling the pair stores its two queues and its state; a set tells the rim where the start monitor does not serve (R52, R65). -/
theorem enableAq_eq (h : Nat) (v : W32) (s : State) :
    let kept := keepPage h 0 (keepCqPage h 0 s)
    let made := putCq (putSq (putAq kept h { aqOf kept h with en := true, cfgErr := false, head := 0 }) h 0 (newAdminSq h v s))
      h 0 (newAdminCq h v s)
    enableAq h v s = if monitor s then made else pushSet [.cqPage h 0 true, .sqPage h 0 true] made := rfl

@[simp] theorem enableAq_jrn_regs (h : Nat) (v : W32) (s : State) : (enableAq h v s).jrn.regs = s.jrn.regs := by
  rw [enableAq_eq]; split <;> simp [pushSet]

@[simp] theorem enableAq_en (h : Nat) (v : W32) (s : State) : (aqOf (enableAq h v s) h).en = true := by
  rw [enableAq_eq]; split <;> simp [pushSet, aqOf, putAq, putSq, putCq]

@[simp] theorem enableAq_cfgErr (h : Nat) (v : W32) (s : State) : (aqOf (enableAq h v s) h).cfgErr = false := by
  rw [enableAq_eq]; split <;> simp [pushSet, aqOf, putAq, putSq, putCq]

@[simp] theorem sqOf_enableAq (h : Nat) (v : W32) (s : State) : sqOf (enableAq h v s) h 0 = some (newAdminSq h v s) := by
  rw [enableAq_eq]; split <;> simp [pushSet, sqOf, putSq, putCq, newAdminSq]

@[simp] theorem cqOf_enableAq (h : Nat) (v : W32) (s : State) : cqOf (enableAq h v s) h 0 = some (newAdminCq h v s) := by
  rw [enableAq_eq]; split <;> simp [pushSet, cqOf, putCq, newAdminCq]

/-- The check of a value reads nothing but the stored bases. -/
theorem aqCfgOk_congr {s t : State} (hr : t.regs = s.regs) (h : Nat) (v : W32) : aqCfgOk t h v = aqCfgOk s h v := by
  simp [aqCfgOk, regVal, hr]

theorem writeAqCfg_enables {h : Nat} {v : W32} {s : State} (hen : (aqOf s h).en = false) (hon : bitN v.toNat 31 = true)
    (hok : aqCfgOk s h v = true) :
    writeAqCfg h v s = enableAq h v (regStore s .cmdAqCfg [h] (v &&& 0x003F0F0F#32)) := by
  simp [writeAqCfg, hen, hon, hok]

/-- R48, R82: taken at its place, a legal enabling write makes the pair, and nothing else leaves or enters Scoresheet order. -/
theorem consumeAt_writeAqCfg_enables (st : Stamp) {h : Nat} {v : W32} {s : State} (hen : (aqOf s h).en = false)
    (hon : bitN v.toNat 31 = true) (hok : aqCfgOk s h v = true) :
    ∃ u, u.jrn.regs = s.jrn.regs ∧ consumeAt st (writeAqCfg h v) s = resume s (enableAq h v u) := by
  have hok' : aqCfgOk { s with jrn := { s.jrn with last := st } } h v = true := (aqCfgOk_congr rfl h v).trans hok
  exact ⟨regStore { s with jrn := { s.jrn with last := st } } .cmdAqCfg [h] (v &&& 0x003F0F0F#32), rfl,
    congrArg (resume s) (writeAqCfg_enables hen hon hok')⟩

/-- A host's legal enabling write with nothing before it makes the pair at once and leaves nothing waiting. -/
theorem writeSide_cmdAqCfg_enables (h : Host) {v : W32} {s : State} (hc : consuming s = true) (hf : s.jrn.full = false)
    (hr : s.jrn.regs = []) (hen : (aqOf s h.val).en = false) (hon : bitN v.toNat 31 = true)
    (hok : aqCfgOk s h.val v = true) :
    ∃ r u, u.jrn.regs = [] ∧ writeSide h.val .cmdAqCfg [h.val] v s = resume r (enableAq h.val v u) := by
  obtain ⟨t, hregs, hcmd, hwaiting, hwrite⟩ := writeSide_own_cmdAqCfg h v hc hf hr
  have hen' : (aqOf t h.val).en = false := by simpa [aqOf, hcmd] using hen
  obtain ⟨u, hu, hmade⟩ :=
    consumeAt_writeAqCfg_enables (stampNow s) hen' hon ((aqCfgOk_congr hregs h.val v).trans hok)
  exact ⟨t, u, hu.trans hwaiting, hwrite.trans hmade⟩

/-! ### Held reads (R36, R390, R438) -/

/-- R438: with no side to answer, a read that waits for the host's writes brings all ones. -/
theorem answerHeld_of_away {h : Host} {a : Nat} {s : State} (ha : sidesAway s = true) (hm : (h.val, a) ∈ s.jrn.heldReads) :
    answerHeld h a s
      = putRead (.host h) 0xFFFFFFFF { s with jrn := { s.jrn with heldReads := s.jrn.heldReads.erase (h.val, a) } } := by
  simp [answerHeld, ha, hm]

/-- With no item before it, a held read brings the value and waits no more. -/
theorem answerHeld_of_nothing_waiting {h : Host} {a : Nat} {s : State} (ha : sidesAway s = false) (hs : sideAnswers s = true)
    (hr : s.jrn.regs = []) (hm : (h.val, a) ∈ s.jrn.heldReads) :
    answerHeld h a s = readAt (.host h) a { s with jrn := { s.jrn with heldReads := s.jrn.heldReads.erase (h.val, a) } } := by
  simp [answerHeld, answerHeld.plainHeld, writesWait, ha, hs, hr, hm]

/-- A clearing read that is the oldest item of Scoresheet order is answered there. -/
theorem answerHeld_of_oldest {h : Host} {a : Nat} {st : Stamp} {r : List (RegRec × Stamp)} {s : State}
    (ha : sidesAway s = false) (hs : sideAnswers s = true) (hr : s.jrn.regs = (.read h.val a, st) :: r) :
    answerHeld h a s = readAt (.host h) a { s with jrn := { s.jrn with regs := r } } := by
  simp [answerHeld, ha, hs, hr]

/-! ### The obligation -/

/-- Settles O46: the plain rows are calls of the shared accesses; CMD_AQ_CFG_WRITE, the held reads and the side's taking of a write
follow the item to its place in Scoresheet order. -/
theorem registerRowsComplete : Obligations.RegisterRowsComplete := by
  unfold Obligations.RegisterRowsComplete
  refine ⟨fun _ _ _ _ => rfl, fun _ _ _ _ => rfl, fun _ _ _ => rfl, fun _ _ _ => rfl, ?partRead, fun _ _ _ _ => rfl,
    fun _ _ _ _ => rfl, fun _ _ _ => rfl, ?bar0, ?bar2, ?bar4, ?full, fun _ _ _ _ => rfl, ?apply, ?aqCfg, ?away, ?held, ?oldest,
    ?write, ?perst⟩
  case partRead => exact fun h a s ha => congrArg Host.Outcome.next (partRead_of_mapped h s ha)
  case bar0 => exact fun h a e v s hf => exec_registerWrite_of_room h a e v .bar0 hf
  case bar2 => exact fun h a e v s hf => exec_registerWrite_of_room h a e v .bar2 hf
  case bar4 => exact fun h a e v s hf => exec_registerWrite_of_room h a e v .bar4 hf
  case full => exact fun h a e v b s hf => exec_registerWrite_of_full h a e v b hf
  case apply => exact fun s hc => exec_sideRegWriteApply_of_consuming hc
  case aqCfg =>
    intro h v s hc hf hr hen hon hok
    obtain ⟨r, u, hu, hmade⟩ := writeSide_cmdAqCfg_enables h hc hf hr hen hon hok
    exact ⟨resume r (enableAq h.val v u), newAdminSq h.val v u, newAdminCq h.val v u, congrArg Host.Outcome.next hmade,
      by simp, by simp, by simp, rfl, rfl, rfl, by simp, rfl, rfl, rfl, rfl, by simp [hu]⟩
  case away => exact fun h a s ha hm => congrArg Host.Outcome.next (answerHeld_of_away ha hm)
  case held => exact fun h a s ha hs hr hm => congrArg Host.Outcome.next (answerHeld_of_nothing_waiting ha hs hr hm)
  case oldest => exact fun h a s r st ha hs hr => congrArg Host.Outcome.next (answerHeld_of_oldest ha hs hr)
  case write =>
    exact fun h a v e s r st hc hr =>
      (exec_sideRegWriteApply_of_consuming hc).trans (congrArg Host.Outcome.next (applyOldest_write h hr))
  case perst =>
    exact fun h s r st hc hr =>
      (exec_sideRegWriteApply_of_consuming hc).trans (congrArg Host.Outcome.next (applyOldest_perst hr))

end Sys2Proof.Machine
end

section
/-!
What an accepted admin command does (R53 to R81): from a row's effect in its turn to the state that the row leaves.
-/

namespace Sys2Proof.Machine

/-! ### An accepted command's check and its effect -/

@[simp] theorem issuer_host (h : Host) (s : State) : (issuer h s).host = h.val := rfl
@[simp] theorem issuer_cfg (h : Host) (s : State) : (issuer h s).cfg = false := rfl
@[simp] theorem issuer_mon (h : Host) (s : State) : (issuer h s).mon = monitor s := rfl

/-- The check of an accepted command's own row finds nothing. -/
theorem accepted_check {c : CmdSpec} {b : Body} {h : Host} {p : Packet} {ib : ReadEnd} {s : State} (hi : c.ibuf = none)
    (H : Accepted c b h p ib s) : b.check (issuer h s) p [] (consumeAdmin h s) = [] := by
  obtain ⟨-, -, -, hf⟩ := H
  unfold findings at hf
  split at hf
  · cases hf
  · split at hf
    · cases hf
    · simp only [hi, List.append_eq_nil_iff] at hf
      exact hf.2

/-- A row without a buffer whose effect is done: the command ends with ST_OK. -/
theorem next_ends {c : CmdSpec} {b : Body} {h : Host} {p : Packet} {ib : ReadEnd} {s t : State} {ch : Bool}
    (H : Executes c b h p ib s) (hq : c.query = false) (hi : c.ibuf = none)
    (ha : b.act (issuer h s) p [] (consumeAdmin h s) = .done t 0 ch) :
    (.next (runAdmin c b h p ib s) : Out) = .next (ends h p s ch t) :=
  congrArg Host.Outcome.next (runAdmin_done H hq (by rw [turnTaken_none hi, hi]; exact ha))

/-- A query: its row answers from the turn and leaves it. -/
theorem next_answers {c : CmdSpec} {b : Body} {h : Host} {p : Packet} {ib : ReadEnd} {s : State} {r : Nat}
    (H : Accepted c b h p ib s) (hq : c.query = true) (hi : c.ibuf = none)
    (ha : b.act (issuer h s) p [] (consumeAdmin h s) = .done (consumeAdmin h s) r false) :
    (.next (runAdmin c b h p ib s) : Out) = .next (answers h p s r) :=
  congrArg Host.Outcome.next (runAdmin_query H hq hi ha)

/-- A row without a buffer whose effect is background work begins. -/
theorem runAdmin_begins {c : CmdSpec} {b : Body} {h : Host} {p : Packet} {ib : ReadEnd} {s t : State} {op : LongOp} {ch : Bool}
    (H : Executes c b h p ib s) (hi : c.ibuf = none)
    (ha : b.act (issuer h s) p [] (consumeAdmin h s) = .start t op ch) : runAdmin c b h p ib s = begins c h p s t op ch :=
  runAdmin_start H (by rw [turnTaken_none hi, hi]; exact ha)

theorem next_begins {c : CmdSpec} {b : Body} {h : Host} {p : Packet} {ib : ReadEnd} {s t : State} {op : LongOp} {ch : Bool}
    (H : Executes c b h p ib s) (hi : c.ibuf = none)
    (ha : b.act (issuer h s) p [] (consumeAdmin h s) = .start t op ch) :
    (.next (runAdmin c b h p ib s) : Out) = .next (begins c h p s t op ch) :=
  congrArg Host.Outcome.next (runAdmin_begins H hi ha)

/-- A row with a buffer acts on the bytes that its read brought (R57). -/
theorem next_begins_on_buffer {c : CmdSpec} {b : Body} {h : Host} {p : Packet} {l : List Byte} {s t : State} {o : Nat}
    {op : LongOp} {ch : Bool} (H : Executes c b h p (.data l) s) (hi : c.ibuf = some o) (hl : l.length = ibLen p o)
    (ha : b.act (issuer h s) p l (bufferRead h l s) = .start t op ch) :
    (.next (runAdmin c b h p (.data l) s) : Out) = .next (begins c h p s t op ch) :=
  congrArg Host.Outcome.next
    (runAdmin_start H (by rw [turnTaken_some hi H.1, accepted_bytes hi hl H.1]; exact ha))

/-! ### Group 0x01 -/

theorem dropSq_of_some {h q : Nat} {s : State} {x : Sq} (hx : sqOf s h q = some x) :
    dropSq h q s = pushSet [.sqPage h q false] (putSq s h q { x with gone := true }) := by
  simp [dropSq, hx]

theorem dropCq_of_some {h q : Nat} {s : State} {x : Cq} (hx : cqOf s h q = some x) :
    dropCq h q s = pushSet [.cqPage h q false] (putCq s h q { x with gone := true }) := by
  simp [dropCq, hx]

/-- An accepted QUE_DELETE_SQ names an SQ that exists. -/
theorem accepted_deleteSq {h : Host} {p : Packet} {s : State} (H : Accepted csDeleteSq bodyDeleteSq h p (.data []) s) :
    ∃ x, sqOf (consumeAdmin h s) h.val (par p 0x10 2) = some x := by
  have hcheck := accepted_check rfl H
  simp only [bodyDeleteSq, issuer_host] at hcheck
  split at hcheck
  · cases hcheck
  · next x hx => exact ⟨x, hx⟩

/-- An accepted QUE_DELETE_CQ names a CQ that exists. -/
theorem accepted_deleteCq {h : Host} {p : Packet} {s : State} (H : Accepted csDeleteCq bodyDeleteCq h p (.data []) s) :
    ∃ x, cqOf (consumeAdmin h s) h.val (par p 0x10 2) = some x := by
  have hcheck := accepted_check rfl H
  simp only [bodyDeleteCq, issuer_host] at hcheck
  split at hcheck
  · cases hcheck
  · next x hx => exact ⟨x, hx⟩

/-- Settles O6: each row's effect; a deleted queue is one that the row's check has found. -/
theorem queueCommandsComplete : Obligations.QueueCommandsComplete := by
  unfold Obligations.QueueCommandsComplete
  refine ⟨?createCq, ?createSq, ?deleteSq, ?deleteCq, ?setWrr, ?setQuota, ?query⟩
  case createCq => exact fun h p s H => next_ends H rfl rfl rfl
  case createSq => exact fun h p s H => next_ends H rfl rfl rfl
  case deleteSq =>
    rintro h p s u rfl H
    obtain ⟨x, hx⟩ := accepted_deleteSq H.1
    exact ⟨x, hx, next_ends H rfl rfl (by simp [bodyDeleteSq, dropSq_of_some hx])⟩
  case deleteCq =>
    rintro h p s u rfl H
    obtain ⟨x, hx⟩ := accepted_deleteCq H.1
    exact ⟨x, hx, next_ends H rfl rfl (by simp [bodyDeleteCq, dropCq_of_some hx])⟩
  case setWrr => exact fun h p s x H hx => next_ends H rfl rfl (by simp [bodySetWrr, hx])
  case setQuota => rintro h p s u rfl H; exact next_ends H rfl rfl rfl
  case query => rintro h p s u rfl H; exact next_answers H rfl rfl rfl

/-! ### Groups 0x02 and 0x03 -/

/-- Settles O7: each row's effect; PORT_ENABLE by whether the port, as the side holds it, is so already. -/
theorem portCommandsComplete : Obligations.PortCommandsComplete := by
  unfold Obligations.PortCommandsComplete
  refine ⟨?set, ?enable, ?enableAgain, ?filter, ?eee, ?recal, ?query⟩
  case set => rintro h p s u rfl H; exact next_begins H rfl rfl
  case enable => rintro h p s u rfl H hne; exact next_ends H rfl rfl (if_neg hne)
  case enableAgain => rintro h p s u rfl H heq; exact next_ends H rfl rfl (if_pos heq)
  case filter => exact fun h p s H => next_ends H rfl rfl rfl
  case eee => exact fun h p s H => next_ends H rfl rfl rfl
  case recal => exact fun h p s H => next_begins H rfl rfl
  case query => rintro h p s u rfl H; exact next_answers H rfl rfl rfl

/-- Settles O8: each row's effect. -/
theorem fieldCommandsComplete : Obligations.FieldCommandsComplete := by
  unfold Obligations.FieldCommandsComplete
  refine ⟨?set, ?aggLoad, ?query⟩
  case set => exact fun h p s H => next_ends H rfl rfl rfl
  case aggLoad => exact fun h p s l H hl => next_begins_on_buffer H rfl hl rfl
  case query => rintro h p s u rfl H; exact next_answers H rfl rfl rfl

/-- Settles O9: each row's effect. -/
theorem gateCommandsComplete : Obligations.GateCommandsComplete := by
  unfold Obligations.GateCommandsComplete
  refine ⟨?tapeLoad, ?classSet, ?closeMode, ?cancel, ?query⟩
  case tapeLoad => exact fun h p s l H hl => next_begins_on_buffer H rfl hl rfl
  case classSet => exact fun h p s H => next_ends H rfl rfl rfl
  case closeMode => exact fun h p s H => next_ends H rfl rfl rfl
  case cancel => exact fun h p s H => next_ends H rfl rfl rfl
  case query => rintro h p s u rfl H; exact next_answers H rfl rfl rfl

/-- Settles O10: SCH_FLOW_SET by whether the queue is enabled, where its last setting is the packet's; the other rows' effects. -/
theorem flowCommandsComplete : Obligations.FlowCommandsComplete := by
  unfold Obligations.FlowCommandsComplete
  refine ⟨?setEnabled, ?setDisabled, ?disable, ?query⟩
  case setEnabled =>
    rintro h p s u x rfl rfl H hen
    exact next_ends H rfl rfl (by simp [bodyFlowSet, hen, lastShape, lastShare])
  case setDisabled =>
    rintro h p s u x rfl rfl H hen
    exact next_ends H rfl rfl (by simp [bodyFlowSet, hen])
  case disable => rintro h p s u rfl H; exact next_ends H rfl rfl rfl
  case query => rintro h p s x rfl H; exact next_answers H rfl rfl rfl

/-! ### Groups 0x04 and 0x05 -/

/-- R303: the generation function that a setting names holds it, and its next number is 0 where the packet asks for it. -/
theorem tget_setGen_self (t : Tab SeqGen) (n i : Nat) (en : Bool) (k : Nat) (z : Bool) :
    tget {} (setGen t (n, i, en, k, z)) i
      = { tget {} t i with en := en, handle := k, next := if z then 0 else (tget {} t i).next } := by
  simp [setGen]

/-- Settles O11: each row's effect. -/
theorem streamCommandsComplete : Obligations.StreamCommandsComplete := by
  unfold Obligations.StreamCommandsComplete
  refine ⟨?idLoad, ?meter, ?seqgen, tget_setGen_self, ?seqrec, ?query⟩
  case idLoad => exact fun h p s l H hl => next_begins_on_buffer H rfl hl rfl
  case meter => rintro h p s u m rfl rfl H; exact next_ends H rfl rfl rfl
  case seqgen => rintro h p s u x rfl rfl H; exact next_ends H rfl rfl rfl
  case seqrec => rintro h p s u x rfl H rfl; exact next_ends H rfl rfl rfl
  case query => rintro h p s u rfl H; exact next_answers H rfl rfl rfl

/-- Settles O12: each row's effect; TIME_DOMAIN_SET and TIME_STEP by whether they change anything (log entry 24). -/
theorem timeCommandsComplete : Obligations.TimeCommandsComplete := by
  unfold Obligations.TimeCommandsComplete
  refine ⟨?domain, ?domainAgain, ?step, ?stepZero, ?rate, ?pps, ?query⟩
  case domain => rintro h p s u rfl H hne; exact next_ends H rfl rfl (by simpa [bodyDomainSet] using hne)
  case domainAgain => rintro h p s u rfl H hd hr; exact next_ends H rfl rfl (by simp [bodyDomainSet, hd, hr])
  case step => exact fun h p s H hne => next_ends H rfl rfl (if_neg hne)
  case stepZero => exact fun h p s H heq => next_ends H rfl rfl (if_pos heq)
  case rate => exact fun h p s H => next_ends H rfl rfl rfl
  case pps => exact fun h p s H => next_ends H rfl rfl rfl
  case query => rintro h p s u rfl H; exact next_answers H rfl rfl rfl

/-! ### Groups 0x06 to 0x09 -/

/-- Settles O13: each row's effect; SIDE_SELFTEST by whether the named side holds the Clock (R458). -/
theorem sideCommandsComplete : Obligations.SideCommandsComplete := by
  unfold Obligations.SideCommandsComplete
  refine ⟨?castle, ?testHolder, ?testOther, ?reset, ?query⟩
  case castle => rintro h p s u rfl H; exact next_begins H rfl rfl
  case testHolder => rintro h p s u rfl H hst; exact next_begins H rfl (if_pos hst)
  case testOther => rintro h p s u rfl H hst; exact next_begins H rfl (if_neg hst)
  case reset => exact fun h p s H => next_ends H rfl rfl rfl
  case query => rintro h p s u rfl H; exact next_answers H rfl rfl rfl

/-- Settles O14: each row's effect; FAB_SET by whether it gives the node ID (R414). -/
theorem fabricCommandsComplete : Obligations.FabricCommandsComplete := by
  unfold Obligations.FabricCommandsComplete
  refine ⟨?given, ?taken, ?routes, ?bypass, ?query⟩
  case given => rintro h p s u en rfl rfl H hz; exact next_ends H rfl rfl (by simp [bodyFabSet, hz])
  case taken => rintro h p s u en rfl rfl H hz; exact next_ends H rfl rfl (by simp [bodyFabSet, hz])
  case routes => exact fun h p s l H hl => next_begins_on_buffer H rfl hl rfl
  case bypass => exact fun h p s H => next_ends H rfl rfl rfl
  case query => rintro h p s u rfl H; exact next_answers H rfl rfl rfl

/-- REC_CLEAR_CHALLENGE draws the nonce of the next free value (R79). -/
theorem bodyChallenge_act (w : Issuer) (p : Packet) (l : List Byte) (s : State) :
    bodyChallenge.act w p l s
      = .done { s with free := s.free + 1, cmd := { s.cmd with nonce := some (Config.nonceDraw s.free, cmdOp s) } }
          (Config.nonceDraw s.free).toNat true := rfl

/-- REC_CLEAR uses the nonce up, and its work holds none of its buffer's bytes. -/
theorem bodyRecClear_act (w : Issuer) (p : Packet) (l : List Byte) (s : State) :
    bodyRecClear.act w p l s = .start { s with cmd := { s.cmd with nonce := none } } (.recClear w.host true) true := rfl

/-- Settles O15: each row's effect. -/
theorem recorderCommandsComplete : Obligations.RecorderCommandsComplete := by
  unfold Obligations.RecorderCommandsComplete
  refine ⟨?note, ?challenge, ?clear, ?query⟩
  case note => rintro h p s u rfl H; exact next_ends H rfl rfl rfl
  case challenge =>
    rintro h p s u n rfl rfl H
    have hrun := runAdmin_done H rfl (bodyChallenge_act (issuer h s) p _ (turnTaken csChallenge h p (.data []) s))
    rw [turnTaken_none rfl, consumeAdmin_free, if_pos rfl] at hrun
    exact congrArg Host.Outcome.next hrun
  case clear =>
    rintro h p s l u rfl H
    refine congrArg Host.Outcome.next (runAdmin_start H ?_)
    rw [bodyRecClear_act, turnTaken_some rfl H.1, issuer_host]
  case query => rintro h p s u rfl H; exact next_answers H rfl rfl rfl

/-- Settles O16: each row's effect. -/
theorem firmwareCommandsComplete : Obligations.FirmwareCommandsComplete := by
  unfold Obligations.FirmwareCommandsComplete
  refine ⟨?query, ?write, ?verify, ?activate⟩
  case query => rintro h p s u rfl H; exact next_answers H rfl rfl rfl
  case write => rintro h p s l u rfl H hl; exact next_begins_on_buffer H rfl hl rfl
  case verify => exact fun h p s H => next_begins H rfl rfl
  case activate => rintro h p s u f rfl rfl H; exact next_begins H rfl rfl

/-! ### Group 0x0A -/

/-- A class L command that has begun works in its group. -/
@[simp] theorem workOf_begins (c : CmdSpec) (h : Host) (p : Packet) (s t : State) (op : LongOp) (ch : Bool) :
    workOf (begins c h p s t op ch) (groupOf p) = some op := by
  unfold begins noteIb
  split <;> simp [workOf, resume, longEntry]

/-- Taking its turn, a command leaves what runs. -/
@[simp] theorem consumeAdmin_running (h : Host) (s : State) : (consumeAdmin h s).cmd.running = s.cmd.running := by
  simp only [consumeAdmin, adminPlace, putAq]
  (repeat' split) <;> simp [putCq]

/-- No cold start runs where another is accepted (R81). -/
theorem accepted_startCold {h : Host} {p : Packet} {s : State} (H : Accepted csModeStart bodyStartCold h p (.data []) s) :
    workOf s 9 ≠ some .startCold := by
  intro hrun
  have hrun' : workOf (consumeAdmin h s) 9 = some .startCold := by simpa [workOf] using hrun
  have hcheck := accepted_check rfl H
  simp [bodyStartCold, hrun', when] at hcheck

/-- MODE_START is a command of group 0x0A. -/
theorem groupOf_modeStart {b : Body} {h : Host} {p : Packet} {ib : ReadEnd} {s : State} (H : Accepted csModeStart b h p ib s) :
    groupOf p = 9 := by
  obtain ⟨-, -, hop, -⟩ := H
  rw [groupOf, hop]; rfl

/-- Settles O17: each row's effect; a cold start by who executes it (R52, R450). -/
theorem modeCommandsComplete : Obligations.ModeCommandsComplete := by
  unfold Obligations.ModeCommandsComplete
  refine ⟨?query, ?coldInService, ?coldAtOnce, ?warm, ?configEnter, ?configExit, ?safeHold, ?resume⟩
  case query => rintro h p s u rfl H; exact next_answers H rfl rfl rfl
  case coldInService =>
    intro h p s H hw hm
    have hrun := runAdmin_begins H rfl (t := pushSet [.startCold] (markStart 1 (dropWarm (consumeAdmin h s))))
      (op := .startCold) (ch := true) (by simp [bodyStartCold, hm])
    simp [exec, execModeStartCold, hw, hm, hrun]
  case coldAtOnce =>
    intro h p s H hw hm
    have hrun := runAdmin_begins H rfl (t := markStart 1 (dropWarm (consumeAdmin h s)))
      (op := .startCold) (ch := true) (by simp [bodyStartCold, hm])
    have hbegun := workOf_begins csModeStart h p s (markStart 1 (dropWarm (consumeAdmin h s))) .startCold true
    rw [groupOf_modeStart H.1] at hbegun
    simp [exec, execModeStartCold, hw, hm, hrun, hbegun, accepted_startCold H.1]
  case warm =>
    intro h p s H hw
    have hrun := runAdmin_begins H rfl (t := pushSet [.startWarm] (markStart 2 (consumeAdmin h s)))
      (op := .startWarm) (ch := true) rfl
    simp [exec, execModeStartWarm, hw, hrun]
  case configEnter => rintro h p s u rfl H; exact next_begins H rfl rfl
  case configExit => rintro h p s u rfl H; exact next_begins H rfl rfl
  case safeHold => exact fun h p s H => next_ends H rfl rfl rfl
  case resume => rintro h p s u rfl H; exact next_begins H rfl rfl

end Sys2Proof.Machine
end

section
/-!
The command processor's own events and the rim's taking of a numbered set (R23, R45, R65 to R69, R286, R371).
-/

namespace Sys2Proof.Machine

/-! ### The command processor's own events -/

theorem exec_longCommandComplete {g : Group} {s : State} {r : Running} {st result : Nat} {t : State} (hd : dispatching s = true)
    (hr : tfind s.cmd.running g.val = some r) (hw : workEnd s r.op = some (st, result, t)) :
    exec (.longCommandComplete g) s = .next (finishLong g.val st result t) := by
  simp [exec, execLongCommandComplete, hd, hr, hw]

theorem exec_classLTimeout {g : Group} {s t : State} {r : Running} (hd : dispatching s = true)
    (hr : tfind s.cmd.running g.val = some r) (hw : workExpired s r = some t) :
    exec (.classLTimeout g) s = .next (finishLong g.val stTimeout 0 t) := by
  simp [exec, execClassLTimeout, hd, hr, hw]

/-- What a port's calibration leaves when it ends (R286). -/
def calibrated (p : Nat) (s : State) : State :=
  raise evRecalDone (putPort s p { portOf s p with recal := false, recalCount := min 0xFFFF ((portOf s p).recalCount + 1) })

/-- CALIBRATION_END with nothing running in the ports' group. -/
theorem exec_calibrationEnd_alone {p : Port} {s : State} (hc : (portOf s p.val).recal = true)
    (hr : tfind s.cmd.running 1 = none) : exec (.calibrationEnd p) s = .next (calibrated p.val s) := by
  simp [exec, execCalibrationEnd, calibrated, hc, hr]

/-- CALIBRATION_END of the port whose PORT_RECAL runs: its work has ended. -/
theorem exec_calibrationEnd_recal {p : Port} {s : State} {r : Running} {b : Bool} (hc : (portOf s p.val).recal = true)
    (hr : tfind s.cmd.running 1 = some r) (hop : r.op = .portRecal p.val b) :
    exec (.calibrationEnd p) s = .next { calibrated p.val s with cmd := { (calibrated p.val s).cmd with
      running := tset (calibrated p.val s).cmd.running 1 { r with op := .portRecal p.val true } } } := by
  simp [exec, execCalibrationEnd, calibrated, hc, hr, hop]

/-- STATUS_PACKET_WRITE of a packet that may leave: at once from the start monitor (R52), else once its Move is committed (R66). -/
theorem exec_statusPacketWrite {h : Host} {s : State} {x : DueStatus} {rest : List DueStatus} {d : SideId}
    (hok : hostOk s h.val = true) (ht : takeFirst (fun x : DueStatus => x.host == h.val) s.cmd.dueStatus = some (x, rest))
    (hw : (x.mon || (mayWrite d s && mayReport s h.val && committed s x.move)) = true) :
    exec (.statusPacketWrite h d) s = .next (putStatus h.val x rest s) := by
  cases hm : x.mon
  case true => simp [exec, execStatusPacketWrite, ht, hm, hok]
  case false =>
    simp only [hm, Bool.false_or, Bool.and_eq_true] at hw
    obtain ⟨⟨hwrite, hreport⟩, hcommitted⟩ := hw
    simp [exec, execStatusPacketWrite, ht, hm, byGate, hwrite, hreport, hcommitted]

/-- A status packet of a side that may not write stays, and the side's write is judged by the gate (R23). -/
theorem exec_statusPacketWrite_gated {h : Host} {s : State} {x : DueStatus} {rest : List DueStatus} {d : SideId}
    (ht : takeFirst (fun x : DueStatus => x.host == h.val) s.cmd.dueStatus = some (x, rest)) (hm : x.mon = false)
    (hw : mayWrite d s = false) : exec (.statusPacketWrite h d) s = .next (gatedWrite d s) := by
  simp [exec, execStatusPacketWrite, ht, hm, byGate, hw]

/-- Settles O18: each event on its own path. -/
theorem commandEventsComplete : Obligations.CommandEventsComplete := by
  unfold Obligations.CommandEventsComplete
  refine ⟨?complete, ?timeout, ?alone, ?recal, ?packet, ?gated⟩
  case complete => exact fun g s t r st result hd hr hw => exec_longCommandComplete hd hr hw
  case timeout => exact fun g s t r hd hr hw => exec_classLTimeout hd hr hw
  case alone => exact fun p s hc hr => exec_calibrationEnd_alone hc hr
  case recal => rintro p s u r b hc hr hop rfl; exact exec_calibrationEnd_recal hc hr hop
  case packet => exact fun h s x rest d hok ht hw => exec_statusPacketWrite hok ht hw
  case gated => exact fun h s x rest d ht hm hw => exec_statusPacketWrite_gated ht hm hw

/-! ### The rim's taking of a numbered set (R65) -/

/-- What a side that may not write leaves (R23, R45). -/
theorem exec_rimSetApply_gated {d : SideId} {s : State} (hw : mayWrite d s = false) :
    exec (.rimSetApply d) s = .next (gatedWrite d s) := by
  simp [exec, execRimSetApply, hw]

/-- A set whose Move has not committed waits. -/
theorem exec_rimSetApply_uncommitted {d : SideId} {s : State} {x : RimSet} {r : List RimSet} (hs : s.jrn.sets = x :: r)
    (hc : committed s x.move = false) (hw : mayWrite d s = true) : exec (.rimSetApply d) s = .next s := by
  simp [exec, execRimSetApply, hs, hc, hw]

/-- The oldest committed set is taken: its writes are made where its number is new (R65). -/
theorem exec_rimSetApply_committed {d : SideId} {s : State} {x : RimSet} {r : List RimSet} (hs : s.jrn.sets = x :: r)
    (hc : committed s x.move = true) (hw : mayWrite d s = true) :
    exec (.rimSetApply d) s
      = .next (let t := { s with jrn := { s.jrn with sets := r, setTaken := max s.jrn.setTaken x.num } }
               if x.num ≤ s.jrn.setTaken then t else x.writes.foldl rimWrite t) := by
  simp [exec, execRimSetApply, hs, hc, hw]

theorem mayWrite_of_not_holder {d : SideId} {s : State} (hd : s.sides.holder ≠ some d) : mayWrite d s = false := by
  simp [mayWrite, hd]

theorem mayWrite_of_gate_closed {d : SideId} {s : State} (hg : gateOpen s = false) : mayWrite d s = false := by
  simp [mayWrite, hg]

/-- R23, R45: a write of a side that does not hold the Clock, and is no Lockstep partner, is counted for that side. -/
theorem gatedWrite_counts {d : SideId} {s : State} (hd : s.sides.holder ≠ some d) (hst : (sideOf s d).state ≠ 7) :
    gatedWrite d s = count .sideGatedWr [] (16 * sideNum d) 1 s := by
  simp [gatedWrite, hd, hst]

/-- The holder's own write waits (R371, R373; log entry 115). -/
theorem gatedWrite_of_holder {d : SideId} {s : State} (hd : s.sides.holder = some d) : gatedWrite d s = s := by
  simp [gatedWrite, hd]

/-- R371: the copy of a Lockstep partner is compared and not counted. -/
theorem gatedWrite_of_lockstep {d : SideId} {s : State} (hst : (sideOf s d).state = 7) : gatedWrite d s = s := by
  simp [gatedWrite, hst]

/-- Settles O44: whether the side may write, then whether the oldest set's Move has committed, then whether the set is new. -/
theorem rimSetApplyComplete : Obligations.RimSetApplyComplete := by
  unfold Obligations.RimSetApplyComplete
  refine ⟨?new, ?old, ?white, ?black, ?gate, ?lockstep, ?waits⟩
  case new =>
    intro d s x r hs hc hw hn
    rw [exec_rimSetApply_committed hs hc hw, if_neg (Nat.not_le.mpr hn)]
  case old =>
    intro d s x r hs hc hw hn
    rw [exec_rimSetApply_committed hs hc hw, if_pos hn]
  case white =>
    exact fun s hd hst =>
      (exec_rimSetApply_gated (mayWrite_of_not_holder hd)).trans (congrArg Host.Outcome.next (gatedWrite_counts hd hst))
  case black =>
    exact fun s hd hst =>
      (exec_rimSetApply_gated (mayWrite_of_not_holder hd)).trans (congrArg Host.Outcome.next (gatedWrite_counts hd hst))
  case gate =>
    exact fun d s hd hg =>
      (exec_rimSetApply_gated (mayWrite_of_gate_closed hg)).trans (congrArg Host.Outcome.next (gatedWrite_of_holder hd))
  case lockstep =>
    intro d s hd hst
    have hne : s.sides.holder ≠ some d := by rw [hd]; cases d <;> simp [other]
    exact (exec_rimSetApply_gated (mayWrite_of_not_holder hne)).trans
      (congrArg Host.Outcome.next (gatedWrite_of_lockstep hst))
  case waits => exact fun d s x r hs hc hw => exec_rimSetApply_uncommitted hs hc hw

end Sys2Proof.Machine
end

section
/-!
The turn of an admin command (R52, R62 to R72): the rows behind the opcode tables, and the ways in which a turn can end.
-/

namespace Sys2Proof.Machine

/-! ### The rows of the opcode tables (R78) -/

/-- Every row's rules and effect: those of the command table, and the two of MODE_START. -/
def adminTable : List (CmdSpec × Body) := commandTable ++ [(csModeStart, bodyStartCold), (csModeStart, bodyStartWarm)]

/-- A row runs the shared pipeline with its rules; the two rows of MODE_START look at the packet's KIND first. -/
theorem adminRow_cases {i : Instr} {h : Host} {p : Packet} {c : CmdSpec} {b : Body} {ib : ReadEnd}
    (hr : adminRow i = some (h, p, c, b, ib)) :
    ((c, b) ∈ commandTable ∧ ∀ s, exec i s = .next (runAdmin c b h p ib s))
    ∨ (i = .modeStartCold h p ∧ wantsWarm p = false ∧ c = csModeStart ∧ b = bodyStartCold ∧ ib = .data [])
    ∨ (i = .modeStartWarm h p ∧ wantsWarm p = true ∧ c = csModeStart ∧ b = bodyStartWarm ∧ ib = .data []) := by
  cases i
  case modeStartCold h' p' =>
    cases hw : wantsWarm p' <;> simp only [adminRow, hw] at hr <;> cases hr
    exact .inr (.inl ⟨rfl, hw, rfl, rfl, rfl⟩)
  case modeStartWarm h' p' =>
    cases hw : wantsWarm p' <;> simp only [adminRow, hw] at hr <;> cases hr
    exact .inr (.inr ⟨rfl, hw, rfl, rfl, rfl⟩)
  all_goals
    cases hr <;> exact .inl ⟨by simp [commandTable], fun _ => rfl⟩

theorem adminRow_mem {i : Instr} {h : Host} {p : Packet} {c : CmdSpec} {b : Body} {ib : ReadEnd}
    (hr : adminRow i = some (h, p, c, b, ib)) : (c, b) ∈ adminTable := by
  obtain ⟨hm, -⟩ | ⟨-, -, rfl, rfl, -⟩ | ⟨-, -, rfl, rfl, -⟩ := adminRow_cases hr
  · exact List.mem_append_left _ hm
  · simp [adminTable]
  · simp [adminTable]

/-! ### The end of a turn: the count and the status packet (R59, R82) -/

@[simp] theorem resume_cmd (s t : State) : (resume s t).cmd = t.cmd := rfl

/-- With no record made meanwhile, the side goes on from the last one (R383). -/
theorem resume_jrn {s t : State} (hq : t.jrn.seq = s.jrn.seq) : (resume s t).jrn = { t.jrn with last := s.jrn.last } := by
  simp [resume, hq]

/-- A status packet falls due. -/
def withDue (d : DueStatus) (s : State) : State := { s with cmd := { s.cmd with dueStatus := s.cmd.dueStatus ++ [d] } }

/-- The commands whose buffers a replay reads again are `l` (R58). -/
def withIb (l : List IbCmd) (s : State) : State := { s with cmd := { s.cmd with ibCmds := l } }

/-- A command's outcome is counted, but for a dry run's (R53, R82). -/
def outcomeCounted (w : Issuer) (p : Packet) (f : Option Finding) (s : State) : State :=
  if dryRun p then s else countStatus w p f s

/-- The status packet of a command that ends at its execution (R59). -/
def statusDue (w : Issuer) (p : Packet) (f : Option Finding) (r : Nat) (s : State) : DueStatus :=
  { move := s.jrn.move, host := w.host, mon := w.mon
    pkt := { tag := p.tag, opcode := p.opcode, status := (f.map (·.status)).getD stOk, asqHead := (aqOf s w.host).head
             epoch := cmdEpoch s, detail := w32 ((f.map (·.off)).getD 0xFFFF), result := BitVec.ofNat 96 r, gen := genOf s p
             noIrq := noIrq p } }

/-- A reply counts the outcome, and its status packet falls due. -/
theorem reply_eq {w : Issuer} (hc : w.cfg = false) (p : Packet) (f : Option Finding) (r : Nat) (s : State) :
    reply w p f r s = withDue (statusDue w p f r (outcomeCounted w p f s)) (outcomeCounted w p f s) := by
  simp only [reply, hc]; rfl

theorem outcomeCounted_dry {w : Issuer} {p : Packet} (hd : dryRun p = true) (f : Option Finding) (s : State) : outcomeCounted w p f s = s := by
  simp [outcomeCounted, hd]

/-- The count of an outcome changes no field of the command processor but the host's last refused status. -/
theorem outcomeCounted_cmd (w : Issuer) (p : Packet) (f : Option Finding) (s : State) :
    (outcomeCounted w p f s).cmd = { s.cmd with hosts := (outcomeCounted w p f s).cmd.hosts } := by
  unfold outcomeCounted countStatus
  dsimp only
  (repeat' split) <;> simp [putAq]

/-- The count of a refusal leaves the other hosts' admin queues. -/
theorem aqOf_outcomeCounted_other {w : Issuer} {n : Nat} (hn : n ≠ w.host) (p : Packet) (f : Option Finding) (s : State) :
    aqOf (outcomeCounted w p f s) n = aqOf s n := by
  unfold outcomeCounted countStatus
  dsimp only
  (repeat' split) <;> simp [aqOf, putAq, tget_tput_ne hn]

/-- CMD_AQ_LAST takes a refusal's status and opcode (R82). -/
theorem aqOf_outcomeCounted_refused (w : Issuer) {p : Packet} (hd : dryRun p = false) (f : Finding) (s : State) :
    aqOf (outcomeCounted w p (some f) s) w.host = { aqOf s w.host with lastStatus := f.status, lastOpcode := p.opcode } := by
  simp only [outcomeCounted, countStatus, hd]
  (repeat' split) <;> simp_all [aqOf, putAq]

/-- A count of an outcome places no record. -/
@[simp] theorem outcomeCounted_jrn_seq (w : Issuer) (p : Packet) (f : Option Finding) (s : State) :
    (outcomeCounted w p f s).jrn.seq = s.jrn.seq := by
  unfold outcomeCounted countStatus
  dsimp only
  (repeat' split) <;> simp [putAq, raiseS, pushSet]

/-- Only a refusal raises events, and the start monitor raises them at once, with no set (R52, R82). -/
theorem outcomeCounted_jrn {w : Issuer} {f : Option Finding} (hf : w.mon = true ∨ f = none) (p : Packet) (s : State) :
    (outcomeCounted w p f s).jrn = s.jrn := by
  unfold outcomeCounted countStatus
  dsimp only
  obtain hm | rfl := hf
  · (repeat' split) <;> simp_all [putAq]
  · split <;> rfl

/-- What a side's refusals raise: CMD_REFUSED and CMD_DENIED of the host. -/
def RaisesRefusal (h : Nat) (x : RimSet) : Prop := x.writes = [.raise (evCmdRefused h)] ∨ x.writes = [.raise (evCmdDenied h)]

/-- In service an outcome's events are numbered sets (R65, R551). -/
theorem outcomeCounted_in_service {w : Issuer} (hm : w.mon = false) (p : Packet) (f : Option Finding) (s : State) :
    (outcomeCounted w p f s).evt = s.evt ∧ (outcomeCounted w p f s).bus = s.bus ∧ apartSets (outcomeCounted w p f s).jrn = apartSets s.jrn
      ∧ ∃ x, (outcomeCounted w p f s).jrn.sets = s.jrn.sets ++ x ∧ ∀ y ∈ x, RaisesRefusal w.host y := by
  unfold outcomeCounted countStatus
  dsimp only
  (repeat' split) <;> simp_all [putAq, raiseS, pushSet, apartSets, RaisesRefusal]

/-! ### What a command's turn takes (R57, R59, R144, R146) -/

@[simp] theorem adminPlace_cmd (h : Nat) (s : State) : (adminPlace h s).cmd = s.cmd := by
  unfold adminPlace
  (repeat' split) <;> simp

@[simp] theorem raiseAct_que (src : Nat) (s : State) : (raiseAct src s).que = s.que := by
  unfold raiseAct; split <;> simp

@[simp] theorem raiseAct_jrn_seq (src : Nat) (s : State) : (raiseAct src s).jrn.seq = s.jrn.seq := by
  unfold raiseAct; split <;> simp [raiseS, pushSet]

@[simp] theorem adminPlace_jrn_seq (h : Nat) (s : State) : (adminPlace h s).jrn.seq = s.jrn.seq := by
  unfold adminPlace
  (repeat' split) <;> simp

/-- The command leaves the waiting ones, counts in its Move, and the host's admin SQ advances. -/
theorem consumeAdmin_cmd (h : Host) (s : State) : (consumeAdmin h s).cmd
    = { s.cmd with waiting := s.cmd.waiting.eraseP (fun w => w.1 == h.val), shortInMove := s.cmd.shortInMove + 1
                   hosts := tput {} s.cmd.hosts h.val { aqOf s h.val with head := (aqOf s h.val).head + 1 } } := by
  simp [consumeAdmin, putAq, aqOf]

@[simp] theorem consumeAdmin_apartAdmin (h : Host) (s : State) : apartAdmin (consumeAdmin h s).cmd = apartAdmin s.cmd := by
  rw [consumeAdmin_cmd]; rfl

@[simp] theorem aqOf_consumeAdmin_self (h : Host) (s : State) :
    aqOf (consumeAdmin h s) h.val = { aqOf s h.val with head := (aqOf s h.val).head + 1 } := by
  simp [aqOf, consumeAdmin_cmd]

theorem aqOf_consumeAdmin_other {h : Host} {n : Nat} (hn : n ≠ h.val) (s : State) : aqOf (consumeAdmin h s) n = aqOf s n := by
  simp [aqOf, consumeAdmin_cmd, tget_tput_ne hn]

@[simp] theorem consumeAdmin_jrn_seq (h : Host) (s : State) : (consumeAdmin h s).jrn.seq = s.jrn.seq := by
  simp [consumeAdmin, putAq]

@[simp] theorem ibChannel_jrn_seq (c : CmdSpec) (w : Issuer) (p : Packet) (ib : ReadEnd) (s : State) :
    (ibChannel c w p ib s).jrn.seq = s.jrn.seq := by
  unfold ibChannel
  (repeat' split) <;> rfl

/-- What the turn has taken when the command is decided: a dry run's buffer leaves nothing on its channel (R64). -/
def turnBase (c : CmdSpec) (h : Host) (p : Packet) (ib : ReadEnd) (s : State) : State :=
  if dryRun p && !c.query then consumeAdmin h s else turnTaken c h p ib s

@[simp] theorem turnTaken_cmd (c : CmdSpec) (h : Host) (p : Packet) (ib : ReadEnd) (s : State) :
    (turnTaken c h p ib s).cmd = (consumeAdmin h s).cmd := ibChannel_cmd c _ p ib _

@[simp] theorem turnBase_cmd (c : CmdSpec) (h : Host) (p : Packet) (ib : ReadEnd) (s : State) :
    (turnBase c h p ib s).cmd = (consumeAdmin h s).cmd := by
  unfold turnBase; split <;> simp

@[simp] theorem turnBase_jrn_seq (c : CmdSpec) (h : Host) (p : Packet) (ib : ReadEnd) (s : State) :
    (turnBase c h p ib s).jrn.seq = s.jrn.seq := by
  unfold turnBase; split <;> simp [turnTaken]

/-! ### The ways in which a turn can end -/

/-- A refusal or a dry run notes at most what a replay reads again (R58). -/
theorem noteOther_withIb (c : CmdSpec) (b : Body) (w : Issuer) (p : Packet) (ib : ReadEnd) (k : IbKind) (s : State) :
    ∃ l, noteOther c b w p ib k s = withIb l s := by
  unfold noteOther
  (repeat' split) <;> exact ⟨_, rfl⟩

/-- So does a command that begins. -/
theorem noteIb_withIb (c : CmdSpec) (w : Issuer) (p : Packet) (r : Running) (old s : State) :
    ∃ l, noteIb c w p r old s = withIb l s := by
  unfold noteIb
  split <;> exact ⟨_, rfl⟩

/-- The end of a turn whose command is decided at its execution: its reply on the state `v` that it has made. -/
def replied (h : Host) (p : Packet) (s : State) (f : Option Finding) (r : Nat) (v : State) : State :=
  resume s (reply (issuer h s) p f r v)

/-- A refused command, and a dry run whatever it finds, is its reply on what the turn has taken. -/
theorem runAdmin_stopped {c : CmdSpec} {b : Body} {h : Host} {p : Packet} {ib : ReadEnd} {s : State}
    (hdue : adminDue h p s = true) (hrow : rowTakes c p = true) (hready : ibReady c (issuer h s) p s = true) {f : Option Finding}
    (hf : worst (findings c b (issuer h s) p ib (consumeAdmin h s)) = f)
    (hstop : f.isSome = true ∨ (dryRun p = true ∧ c.query = false)) :
    ∃ l, runAdmin c b h p ib s = replied h p s f 0 (withIb l (turnBase c h p ib s)) := by
  rw [runAdmin_turn hdue hrow hready]
  cases f with
  | some f =>
    obtain ⟨l, hl⟩ := noteOther_withIb c b (issuer h s) p ib (if dryRun p && !c.query then .dry else .refused)
      (turnBase c h p ib s)
    exact ⟨l, by rw [perform_refused hf, replied, ← hl]; rfl⟩
  | none =>
    have hdry : (dryRun p && !c.query) = true := by simpa using hstop
    obtain ⟨l, hl⟩ := noteOther_withIb c b (issuer h s) p ib .dry (turnBase c h p ib s)
    refine ⟨l, ?_⟩
    rw [replied, ← hl, turnBase, hdry]
    simp only [perform, hf, hdry, if_true]

/-! ### What a reply leaves -/

section
variable (h : Host) (p : Packet) (s : State) (f : Option Finding) (r : Nat) (v : State)

theorem replied_eq : replied h p s f r v = resume s (withDue (statusDue (issuer h s) p f r (outcomeCounted (issuer h s) p f v))
    (outcomeCounted (issuer h s) p f v)) := congrArg (resume s) (reply_eq rfl p f r v)

@[simp] theorem replied_apart : apart (replied h p s f r v) = apart v := reply_apart _ p f r v

@[simp] theorem replied_apartAdmin : apartAdmin (replied h p s f r v).cmd = apartAdmin v.cmd := by
  rw [replied_eq]
  simp only [resume_cmd, withDue]
  rw [outcomeCounted_cmd]; rfl

@[simp] theorem replied_waiting : (replied h p s f r v).cmd.waiting = v.cmd.waiting := by
  rw [replied_eq]
  simp only [resume_cmd, withDue]
  rw [outcomeCounted_cmd]

theorem aqOf_replied (n : Nat) : aqOf (replied h p s f r v) n = aqOf (outcomeCounted (issuer h s) p f v) n := by
  rw [replied_eq]; rfl

theorem replied_evt : (replied h p s f r v).evt = (outcomeCounted (issuer h s) p f v).evt := by
  rw [replied_eq]; rfl

theorem replied_bus : (replied h p s f r v).bus = (outcomeCounted (issuer h s) p f v).bus := by
  rw [replied_eq]; rfl

theorem replied_ctrs : (replied h p s f r v).ctrs = (outcomeCounted (issuer h s) p f v).ctrs := by
  rw [replied_eq]; rfl

end

theorem replied_jrn {h : Host} {p : Packet} {s : State} {f : Option Finding} {r : Nat} {v : State} (hq : v.jrn.seq = s.jrn.seq) :
    (replied h p s f r v).jrn = { (outcomeCounted (issuer h s) p f v).jrn with last := s.jrn.last } := by
  rw [replied_eq]
  exact resume_jrn (by simpa [withDue] using hq)

/-- The reply's status packet is the last that falls due. -/
theorem replied_dueStatus {h : Host} {p : Packet} {s : State} {f : Option Finding} {r : Nat} {v : State}
    (hv : v.cmd.dueStatus = s.cmd.dueStatus) : (replied h p s f r v).cmd.dueStatus
      = s.cmd.dueStatus ++ [statusDue (issuer h s) p f r (outcomeCounted (issuer h s) p f v)] := by
  rw [replied_eq, ← hv]
  simp only [resume_cmd, withDue]
  rw [outcomeCounted_cmd]

/-- A reply leaves what runs. -/
theorem workOf_replied {h : Host} {p : Packet} {s : State} {f : Option Finding} {r : Nat} {v : State}
    (hv : apartAdmin v.cmd = apartAdmin s.cmd) (g : Nat) : workOf (replied h p s f r v) g = workOf s g := by
  have hrun := congrArg Cmd.running ((replied_apartAdmin h p s f r v).trans hv)
  exact congrArg (fun t : Tab Running => (tfind t g).map (·.op)) hrun

/-! ### The turn of a row -/

/-- A row is its pipeline, but for a cold start that the start monitor begins at once (R52). -/
theorem exec_adminRow {i : Instr} {h : Host} {p : Packet} {c : CmdSpec} {b : Body} {ib : ReadEnd} {s : State}
    (hr : adminRow i = some (h, p, c, b, ib))
    (hw : monitor s = false ∨ workOf (runAdmin c b h p ib s) 9 = workOf s 9) :
    exec i s = .next (runAdmin c b h p ib s) := by
  obtain ⟨-, hx⟩ | ⟨rfl, hk, rfl, rfl, rfl⟩ | ⟨rfl, hk, rfl, rfl, rfl⟩ := adminRow_cases hr
  · exact hx s
  · obtain hm | hw := hw
    · simp [exec, execModeStartCold, hk, hm]
    · simp [exec, execModeStartCold, hk, hw]
  · simp [exec, execModeStartWarm, hk]

/-- What the turn has taken, with the commands that a replay reads again, has the rest of the command processor as before. -/
@[simp] theorem turnBase_apartAdmin (c : CmdSpec) (h : Host) (p : Packet) (ib : ReadEnd) (s : State) (l : List IbCmd) :
    apartAdmin (withIb l (turnBase c h p ib s)).cmd = apartAdmin s.cmd := by
  simpa [withIb, apartAdmin] using consumeAdmin_apartAdmin h s

@[simp] theorem consumeAdmin_dueStatus (h : Host) (s : State) : (consumeAdmin h s).cmd.dueStatus = s.cmd.dueStatus := by
  rw [consumeAdmin_cmd]

@[simp] theorem turnBase_dueStatus (c : CmdSpec) (h : Host) (p : Packet) (ib : ReadEnd) (s : State) (l : List IbCmd) :
    (withIb l (turnBase c h p ib s)).cmd.dueStatus = s.cmd.dueStatus := by
  simp [withIb]

/-- The turn of a refused command, and of a dry run. -/
theorem exec_stopped {i : Instr} {s : State} {h : Host} {p : Packet} {c : CmdSpec} {b : Body} {ib : ReadEnd} {f : Option Finding}
    (HT : HasTurn i s h p c b ib) (hf : worst (findings c b (issuer h s) p ib (consumeAdmin h s)) = f)
    (hstop : f.isSome = true ∨ (dryRun p = true ∧ c.query = false)) :
    ∃ l, exec i s = .next (replied h p s f 0 (withIb l (turnBase c h p ib s))) := by
  obtain ⟨hr, hdue, hrow, hready⟩ := HT
  obtain ⟨l, hl⟩ := runAdmin_stopped hdue hrow hready hf hstop
  refine ⟨l, (exec_adminRow hr (.inr ?_)).trans (congrArg Host.Outcome.next hl)⟩
  rw [hl, workOf_replied (turnBase_apartAdmin c h p ib s l)]

/-- A command to which no fault applies carries its row's opcode. -/
theorem opcode_of_no_findings {c : CmdSpec} {b : Body} {w : Issuer} {p : Packet} {ib : ReadEnd} {s : State}
    (hf : findings c b w p ib s = []) : p.opcode.toNat = c.opcode := by
  by_contra hne
  simp [findings, hne] at hf

theorem accepted_of_turn {i : Instr} {s : State} {h : Host} {p : Packet} {c : CmdSpec} {b : Body} {ib : ReadEnd}
    (HT : HasTurn i s h p c b ib) (hf : findings c b (issuer h s) p ib (consumeAdmin h s) = []) : Accepted c b h p ib s := by
  obtain ⟨-, hdue, -, hready⟩ := HT
  exact ⟨hdue, hready, opcode_of_no_findings hf, hf⟩

/-- The rows of the queries. -/
def queryTable : List (CmdSpec × Body) := [
  (csQueQuery, bodyQueQuery), (csPortQuery, bodyPortQuery), (csFldQuery, bodyFldQuery), (csGateQuery, bodyGateQuery),
  (csSchQuery, bodySchQuery), (csStrmQuery, bodyStrmQuery), (csTimeQuery, bodyTimeQuery), (csSideQuery, bodySideQuery),
  (csFabQuery, bodyFabQuery), (csRecQuery, bodyRecQuery), (csFwQuery, bodyFwQuery), (csModeQuery, bodyModeQuery)]

theorem adminTable_queries : adminTable.filter (fun x => x.1.query) = queryTable := rfl

/-- A row that only answers: it reads no buffer, is open to every host, and leaves its turn as it is. -/
def OnlyAnswers (x : CmdSpec × Body) : Prop :=
  x.1.ibuf = none ∧ x.1.priv = false ∧ ∀ w p l s, ∃ r, x.2.act w p l s = .done s r false

theorem queryTable_onlyAnswers : ∀ x ∈ queryTable, OnlyAnswers x := by
  intro x hx
  simp only [queryTable, List.mem_cons, List.not_mem_nil, or_false] at hx
  obtain rfl | rfl | rfl | rfl | rfl | rfl | rfl | rfl | rfl | rfl | rfl | rfl := hx <;>
    exact ⟨rfl, rfl, fun _ _ _ _ => ⟨_, rfl⟩⟩

theorem query_onlyAnswers {i : Instr} {h : Host} {p : Packet} {c : CmdSpec} {b : Body} {ib : ReadEnd}
    (hr : adminRow i = some (h, p, c, b, ib)) (hq : c.query = true) : OnlyAnswers (c, b) :=
  queryTable_onlyAnswers _ (adminTable_queries ▸ List.mem_filter.mpr ⟨adminRow_mem hr, hq⟩)

/-- The turn of an accepted query. -/
theorem exec_query {i : Instr} {s : State} {h : Host} {p : Packet} {c : CmdSpec} {b : Body} {ib : ReadEnd}
    (HT : HasTurn i s h p c b ib) (hq : c.query = true) (hf : findings c b (issuer h s) p ib (consumeAdmin h s) = []) :
    ∃ r, exec i s = .next (replied h p s none r (consumeAdmin h s)) := by
  obtain ⟨hi, -, hact⟩ := query_onlyAnswers HT.1 hq
  obtain ⟨r, hr⟩ := hact (issuer h s) p [] (consumeAdmin h s)
  have hrun := runAdmin_query (accepted_of_turn HT hf) hq hi hr
  refine ⟨r, (exec_adminRow HT.1 (.inr ?_)).trans (congrArg Host.Outcome.next hrun)⟩
  rw [hrun]
  exact workOf_replied (consumeAdmin_apartAdmin h s) 9

end Sys2Proof.Machine
end

section
/-!
Refusals, dry runs and queries over every admin row (R55, R59, R62, R64, R76).
-/

namespace Sys2Proof.Machine

/-! ### The first fault (R62) -/

theorem worst_isSome {l : List Finding} (hl : l ≠ []) : ∃ f, worst l = some f :=
  Option.ne_none_iff_exists'.mp fun hw => hl (worst_none.mp hw)

/-- A command that its row does not name has that fault alone. -/
theorem findings_of_other_opcode {c : CmdSpec} {p : Packet} (hop : p.opcode.toNat ≠ c.opcode) (b : Body) (w : Issuer)
    (ib : ReadEnd) (s : State) : findings c b w p ib s = [fOpcode] := by
  simp [findings, hop]

/-- A command without permission has that fault alone (R76). -/
theorem findings_of_lacksPerm {c : CmdSpec} {w : Issuer} {p : Packet} {s : State} (hop : p.opcode.toNat = c.opcode)
    (hl : lacksPerm c w p s = true) (b : Body) (ib : ReadEnd) : findings c b w p ib s = [fDenied] := by
  simp [findings, hop, hl]

/-- Settles O49: the reply carries the first fault of the list, and the two faults that come alone make a list of one. -/
theorem firstFaultIsReported : Obligations.FirstFaultIsReported := by
  unfold Obligations.FirstFaultIsReported
  refine ⟨?first, ?opcode, ?denied, ?order⟩
  case first =>
    intro i s h p c b ib HT hne
    obtain ⟨f, hf⟩ := worst_isSome hne
    obtain ⟨hmem, hleast⟩ := worst_some hf
    obtain ⟨l, hexec⟩ := exec_stopped HT hf (.inl rfl)
    exact ⟨_, f, _, hexec, hmem, hleast, replied_dueStatus (turnBase_dueStatus c h p ib s l), rfl, rfl, rfl, rfl, rfl, rfl⟩
  case opcode => exact fun c b h p ib s hop => findings_of_other_opcode hop b _ ib s
  case denied =>
    intro c b h p ib s hop hperm
    exact findings_of_lacksPerm hop (by simpa [lacksPerm] using hperm) b ib
  case order =>
    intro o o'
    simp [Finding.before]

/-! ### Refusals and dry runs (R64) -/

theorem turnBase_of_no_dry {c : CmdSpec} {p : Packet} (hd : dryRun p = false) (h : Host) (ib : ReadEnd) (s : State) :
    turnBase c h p ib s = turnTaken c h p ib s := by
  simp [turnBase, hd]

theorem turnBase_of_dry {c : CmdSpec} {p : Packet} (hd : dryRun p = true) (hq : c.query = false) (h : Host) (ib : ReadEnd)
    (s : State) : turnBase c h p ib s = consumeAdmin h s := by
  simp [turnBase, hd, hq]

/-- R82: in service, or where nothing is refused, an outcome counts in its own half of CMD_AQ_CNT alone. -/
theorem outcomeCounted_ctrs {w : Issuer} {f : Option Finding} (hf : w.mon = false ∨ f = none) {k : Nat}
    (hk : k ≠ ckey .cmdAqCnt [w.host] (if f.isSome then 16 else 0)) (p : Packet) (s : State) :
    tget {} (outcomeCounted w p f s).ctrs k = tget {} s.ctrs k := by
  unfold outcomeCounted countStatus
  dsimp only
  (repeat' split) <;> simp_all [putAq, count, bumpW, tget_tput_ne]

/-! #### The parts of a stopped command's reply -/

section
variable (c : CmdSpec) (h : Host) (p : Packet) (ib : ReadEnd) (s : State) (f : Option Finding) (l : List IbCmd)

theorem stopped_apart : apart (replied h p s f 0 (withIb l (turnBase c h p ib s))) = apart (turnBase c h p ib s) :=
  replied_apart h p s f 0 _

theorem stopped_apartAdmin : apartAdmin (replied h p s f 0 (withIb l (turnBase c h p ib s))).cmd = apartAdmin s.cmd :=
  (replied_apartAdmin h p s f 0 _).trans (turnBase_apartAdmin c h p ib s l)

theorem stopped_waiting : (replied h p s f 0 (withIb l (turnBase c h p ib s))).cmd.waiting
    = s.cmd.waiting.eraseP (fun w => w.1 == h.val) := by
  simp [withIb, consumeAdmin_cmd]

theorem stopped_dueStatus : (replied h p s f 0 (withIb l (turnBase c h p ib s))).cmd.dueStatus = s.cmd.dueStatus
    ++ [statusDue (issuer h s) p f 0 (outcomeCounted (issuer h s) p f (withIb l (turnBase c h p ib s)))] :=
  replied_dueStatus (turnBase_dueStatus c h p ib s l)

theorem aqOf_withIb_turnBase (n : Nat) : aqOf (withIb l (turnBase c h p ib s)) n = aqOf (consumeAdmin h s) n := by
  simp [aqOf, withIb]

end

/-- The other hosts' admin queues stand. -/
theorem aqOf_stopped_other {h : Host} {n : Nat} (hn : n ≠ h.val) (c : CmdSpec) (p : Packet) (ib : ReadEnd) (s : State)
    (f : Option Finding) (l : List IbCmd) : aqOf (replied h p s f 0 (withIb l (turnBase c h p ib s))) n = aqOf s n := by
  rw [aqOf_replied, aqOf_outcomeCounted_other hn, aqOf_withIb_turnBase, aqOf_consumeAdmin_other hn]

/-- The host's own admin queue of a refused command: past it, with its status in CMD_AQ_LAST (R59, R82). -/
theorem aqOf_refused_self {p : Packet} (hd : dryRun p = false) (c : CmdSpec) (h : Host) (ib : ReadEnd) (s : State) (f : Finding)
    (l : List IbCmd) : aqOf (replied h p s (some f) 0 (withIb l (turnBase c h p ib s))) h.val
      = { aqOf s h.val with head := (aqOf s h.val).head + 1, lastStatus := f.status, lastOpcode := p.opcode } := by
  have hcount := aqOf_outcomeCounted_refused (issuer h s) hd f (withIb l (turnBase c h p ib s))
  rw [issuer_host, aqOf_withIb_turnBase, aqOf_consumeAdmin_self] at hcount
  rw [aqOf_replied, hcount]

/-- That of a dry run: past it, and nothing else (R64). -/
theorem aqOf_dry_self {p : Packet} (hd : dryRun p = true) (c : CmdSpec) (h : Host) (ib : ReadEnd) (s : State)
    (f : Option Finding) (l : List IbCmd) : aqOf (replied h p s f 0 (withIb l (turnBase c h p ib s))) h.val
      = { aqOf s h.val with head := (aqOf s h.val).head + 1 } := by
  rw [aqOf_replied, outcomeCounted_dry hd, aqOf_withIb_turnBase, aqOf_consumeAdmin_self]

/-- The journal of a stopped command that raises nothing through a set goes on as its turn left it (R383). -/
theorem stopped_jrn {h : Host} {p : Packet} {s : State} {f : Option Finding} (hf : monitor s = true ∨ dryRun p = true)
    (c : CmdSpec) (ib : ReadEnd) (l : List IbCmd) :
    (replied h p s f 0 (withIb l (turnBase c h p ib s))).jrn = { (turnBase c h p ib s).jrn with last := s.jrn.last } := by
  have hv : (withIb l (turnBase c h p ib s)).jrn.seq = s.jrn.seq := turnBase_jrn_seq c h p ib s
  rw [replied_jrn hv]
  obtain hm | hd := hf
  · rw [outcomeCounted_jrn (.inl hm)]; rfl
  · rw [outcomeCounted_dry hd]; rfl

/-- In service a refusal counts in CMD_AQ_CNT.REFUSED of its host alone (R82). -/
theorem refused_ctrs {h : Host} {s : State} (hm : monitor s = false) {k : Nat} (hk : k ≠ ckey .cmdAqCnt [h.val] 16)
    (c : CmdSpec) (p : Packet) (ib : ReadEnd) (f : Finding) (l : List IbCmd) :
    tget {} (replied h p s (some f) 0 (withIb l (turnBase c h p ib s))).ctrs k = tget {} (turnBase c h p ib s).ctrs k := by
  rw [replied_ctrs]
  exact outcomeCounted_ctrs (w := issuer h s) (f := some f) (.inl hm) hk p (withIb l (turnBase c h p ib s))

/-- In service a stopped command raises its host's events in sets of their own, and changes no other part of the journal, the event
unit or the bus (R65, R551). -/
theorem stopped_in_service {h : Host} {p : Packet} {s : State} (hm : monitor s = false) (f : Option Finding) (c : CmdSpec)
    (ib : ReadEnd) (l : List IbCmd) {t : State} (ht : t = replied h p s f 0 (withIb l (turnBase c h p ib s))) :
    t.evt = (turnBase c h p ib s).evt ∧ t.bus = (turnBase c h p ib s).bus
      ∧ apartSets t.jrn = apartSets { (turnBase c h p ib s).jrn with last := s.jrn.last }
      ∧ ∃ x, t.jrn.sets = (turnBase c h p ib s).jrn.sets ++ x ∧ ∀ y ∈ x, RaisesRefusal h.val y := by
  subst ht
  obtain ⟨hevt, hbus, hrest, x, hsets, hx⟩ :=
    outcomeCounted_in_service (w := issuer h s) hm p f (withIb l (turnBase c h p ib s))
  have hv : (withIb l (turnBase c h p ib s)).jrn.seq = s.jrn.seq := turnBase_jrn_seq c h p ib s
  rw [replied_evt, replied_bus, replied_jrn hv]
  exact ⟨hevt, hbus, congrArg (fun j : Jrn => { j with last := s.jrn.last }) hrest, x, hsets, hx⟩

/-- A dry run raises and counts nothing (R64). -/
theorem stopped_dry {p : Packet} (hd : dryRun p = true) (c : CmdSpec) (h : Host) (ib : ReadEnd) (s : State) (f : Option Finding)
    (l : List IbCmd) {t : State} (ht : t = replied h p s f 0 (withIb l (turnBase c h p ib s))) :
    t.evt = (turnBase c h p ib s).evt ∧ t.bus = (turnBase c h p ib s).bus ∧ t.ctrs = (turnBase c h p ib s).ctrs := by
  subst ht
  rw [replied_evt, replied_bus, replied_ctrs, outcomeCounted_dry hd]
  exact ⟨rfl, rfl, rfl⟩

/-! ### What a turn leaves (R57, R59, R181) -/

theorem adminPlace_que (h : Nat) (s : State) : (adminPlace h s).que = { s.que with cqs := (adminPlace h s).que.cqs } := by
  unfold adminPlace
  (repeat' split) <;> simp [putCq]

theorem consumeAdmin_que (h : Host) (s : State) : (consumeAdmin h s).que = { s.que with cqs := (consumeAdmin h s).que.cqs } :=
  adminPlace_que h.val s

/-- The read of a buffer moves channel 0 alone. -/
theorem ibChannel_other_channels {k : Nat} (hk : k ≠ 0) (c : CmdSpec) (w : Issuer) (p : Packet) (ib : ReadEnd) (s : State) :
    tget {} (ibChannel c w p ib s).dma.chans k = tget {} s.dma.chans k
      ∧ tget {} (ibChannel c w p ib s).dma.pch k = tget {} s.dma.pch k := by
  unfold ibChannel
  (repeat' split) <;> simp [pchDone, pchOver, pchError, putChan, tget_tput_ne hk]

/-- A host with a further place in its admin CQ raises nothing in its turn (R146). -/
theorem adminPlace_of_room {h : Nat} {s : State} (hroom : ∀ x, cqOf s h 0 = some x → adminOut s h + 1 < cqPlaces x) :
    adminPlace h s = s := by
  unfold adminPlace
  split
  · next x hx => simp [Nat.not_le.mpr (hroom x hx)]
  · rfl

/-- Settles O50: what the reply does to the turn, in service, under the start monitor and in a dry run; then what the turn does. -/
theorem refusedCommandLeavesState : Obligations.RefusedCommandLeavesState := by
  unfold Obligations.RefusedCommandLeavesState
  refine ⟨?service, ?monitor, ?dry, ?frame, ?room⟩
  case service =>
    rintro i s h p c b ib f u HT hm hd hf rfl
    obtain ⟨l, hexec⟩ := exec_stopped HT hf (.inl rfl)
    obtain ⟨hevt, hbus, hjrn, x, hsets, hx⟩ := stopped_in_service hm (some f) c ib l rfl
    have haq := aqOf_refused_self hd c h ib s f l
    rw [← turnBase_of_no_dry hd]
    exact ⟨_, _, x, hexec, stopped_apart c h p ib s _ l, hevt, hbus, hjrn, hsets, hx,
      fun k hk => refused_ctrs hm hk c p ib f l,
      stopped_apartAdmin c h p ib s _ l, stopped_waiting c h p ib s _ l, congrArg AdminHost.head haq,
      fun n hn => aqOf_stopped_other hn c p ib s _ l, congrArg AdminHost.lastStatus haq, congrArg AdminHost.lastOpcode haq,
      stopped_dueStatus c h p ib s _ l, rfl, rfl⟩
  case monitor =>
    rintro i s h p c b ib f u HT hm hd hf rfl
    obtain ⟨l, hexec⟩ := exec_stopped HT hf (.inl rfl)
    have haq := aqOf_refused_self hd c h ib s f l
    rw [← turnBase_of_no_dry hd]
    exact ⟨_, _, hexec, stopped_apart c h p ib s _ l, stopped_jrn (.inl hm) c ib l, stopped_apartAdmin c h p ib s _ l,
      stopped_waiting c h p ib s _ l, congrArg AdminHost.head haq, fun n hn => aqOf_stopped_other hn c p ib s _ l,
      stopped_dueStatus c h p ib s _ l, rfl, rfl⟩
  case dry =>
    rintro i s h p c b ib u HT hd hq rfl
    obtain ⟨f, hf⟩ : ∃ f, worst (findings c b (issuer h s) p ib (consumeAdmin h s)) = f := ⟨_, rfl⟩
    obtain ⟨l, hexec⟩ := exec_stopped HT hf (.inr ⟨hd, hq⟩)
    rw [hf, ← turnBase_of_dry hd hq h ib s]
    obtain ⟨hevt, hbus, hctrs⟩ := stopped_dry hd c h ib s f l rfl
    exact ⟨_, _, hexec, stopped_apart c h p ib s _ l, hevt, hbus, stopped_jrn (.inr hd) c ib l, hctrs,
      stopped_apartAdmin c h p ib s _ l, stopped_waiting c h p ib s _ l, aqOf_dry_self hd c h ib s _ l,
      fun n hn => aqOf_stopped_other hn c p ib s _ l, stopped_dueStatus c h p ib s _ l, rfl, rfl⟩
  case frame =>
    rintro c h p ib s u rfl
    have hque : (turnTaken c h p ib s).que = { s.que with cqs := (consumeAdmin h s).que.cqs } :=
      (ibChannel_que c _ p ib _).trans (consumeAdmin_que h s)
    have hchans := fun k (hk : k ≠ 0) => ibChannel_other_channels hk c (issuer h s) p ib (consumeAdmin h s)
    simp only [consumeAdmin_dma] at hchans
    refine ⟨?_, ?_, ?_, ?_, ?_, ?_, ?_, ?_, ?_, ?_, ?_, ?_, ?_, ?_, by rw [hque], by rw [hque], ?_, fun k hk => (hchans k hk).1,
      fun k hk => (hchans k hk).2⟩ <;> simp [turnTaken]
  case room =>
    rintro c h p ib s a hi hroom rfl
    rw [turnTaken_none hi, consumeAdmin, adminPlace_of_room hroom]
    rfl

/-! ### Queries (R55, R59, R76) -/

/-- Settles O52: an accepted query is its reply on the turn, and no event is raised for one that is done. -/
theorem queriesOnlyAnswer : Obligations.QueriesOnlyAnswer := by
  unfold Obligations.QueriesOnlyAnswer
  rintro i s h p c b ib u HT hq hf rfl
  obtain ⟨r, hexec⟩ := exec_query HT hq hf
  obtain ⟨hi, -, -⟩ := query_onlyAnswers HT.1 hq
  rw [turnTaken_none hi]
  refine ⟨_, _, hexec, replied_apart h p s none r _, ?evt, ?bus, ?jrn, ?ctrs, ?admin,
    replied_dueStatus (consumeAdmin_dueStatus h s), rfl, rfl, rfl, ?gen⟩
  case evt => rw [replied_evt, outcomeCounted]; split <;> rfl
  case bus => rw [replied_bus, outcomeCounted]; split <;> rfl
  case jrn => rw [replied_jrn (consumeAdmin_jrn_seq h s), outcomeCounted_jrn (.inr rfl)]
  case ctrs =>
    intro k hk
    rw [replied_ctrs]
    exact outcomeCounted_ctrs (w := issuer h s) (f := none) (.inr rfl) hk p (consumeAdmin h s)
  case admin => exact (replied_apartAdmin h p s none r _).trans (consumeAdmin_apartAdmin h s)
  case gen => simp only [statusDue, genOf]; rw [outcomeCounted_cmd, consumeAdmin_cmd]

end Sys2Proof.Machine
end

section
/-!
What leaves the command processor as it is, and what leaves its generations (R55): the operations under a command's effect.
-/

namespace Sys2Proof.Machine

/-! ### Operations that leave the command processor -/

theorem foldl_cmd {α : Type} (f : State → α → State) (h : ∀ s a, (f s a).cmd = s.cmd) (l : List α) (s : State) :
    (l.foldl f s).cmd = s.cmd := by
  induction l generalizing s with
  | nil => rfl
  | cons a l ih => rw [List.foldl_cons, ih, h]

@[simp] theorem bypDrive_cmd (s : State) : (bypDrive s).cmd = s.cmd := by rfl

@[simp] theorem toMode_cmd (m : Nat) (faulty : Bool) (s : State) : (toMode m faulty s).cmd = s.cmd := by
  unfold toMode; split <;> simp

@[simp] theorem followSides_cmd (s : State) : (followSides s).cmd = s.cmd := by
  unfold followSides; split <;> simp

@[simp] theorem accrueLpi_cmd (p : Nat) (s : State) : (accrueLpi p s).cmd = s.cmd := by
  unfold accrueLpi
  dsimp only
  (repeat' split) <;> simp

@[simp] theorem accrueRxLpi_cmd (p : Nat) (s : State) : (accrueRxLpi p s).cmd = s.cmd := by
  unfold accrueRxLpi
  dsimp only
  (repeat' split) <;> simp

@[simp] theorem accrueAll_cmd (s : State) : (accrueAll s).cmd = s.cmd := by
  simp [accrueAll, foldl_cmd]

@[simp] theorem pchDone_cmd (c n : Nat) (s : State) : (pchDone c n s).cmd = s.cmd := by rfl

@[simp] theorem freeLater_cmd (use n : Nat) (s : State) : (freeLater use n s).cmd = s.cmd := by
  unfold freeLater; split <;> simp

@[simp] theorem freeNow_cmd (use n : Nat) (s : State) : (freeNow use n s).cmd = s.cmd := by
  unfold freeNow
  (repeat' split) <;> simp

@[simp] theorem freeCommitted_cmd (s : State) : (freeCommitted s).cmd = s.cmd := by
  simp [freeCommitted, foldl_cmd]

@[simp] theorem completeOp_cmd (t status : Nat) (flags : Byte) (result : Nat) (ts : Ts) (s : State) :
    (completeOp t status flags result ts s).cmd = s.cmd := by
  unfold completeOp
  dsimp only
  (repeat' split) <;> simp

@[simp] theorem rewriteAll_cmd (s : State) : (rewriteAll s).cmd = s.cmd := by
  unfold rewriteAll
  refine foldl_cmd _ (fun s a => ?_) _ _
  dsimp only
  split <;> simp

@[simp] theorem issueRead_cmd (c : Nat) (s : State) : (issueRead c s).cmd = s.cmd := by
  unfold issueRead
  dsimp only
  (repeat' split) <;> simp

@[simp] theorem dmaTurns_cmd (l : Nat) (s : State) : (dmaTurns l s).cmd = s.cmd := by
  fun_induction dmaTurns l s <;> simp_all

@[simp] theorem dmaGo_cmd (s : State) : (dmaGo s).cmd = s.cmd := by
  unfold dmaGo; split <;> simp

@[simp] theorem decideEnqueue_cmd (n : Nat) (f : FldFrame) (s : State) : (decideEnqueue n f s).cmd = s.cmd := by rfl

@[simp] theorem badImage_cmd (n : Nat) (s : State) : (badImage n s).cmd = s.cmd := by rfl

@[simp] theorem directSend_cmd (a t : Nat) (s : State) : (directSend a t s).cmd = s.cmd := by
  unfold directSend
  (repeat' split) <;> simp

@[simp] theorem settleDirect_cmd (s : State) : (settleDirect s).cmd = s.cmd := by
  simp only [settleDirect]
  (repeat' split) <;> simp [foldl_cmd]

@[simp] theorem decideRate_cmd (a : Int) (s : State) : (decideRate a s).cmd = s.cmd := by rfl

@[simp] theorem dropSlew_cmd (s : State) : (dropSlew s).cmd = s.cmd := by
  unfold dropSlew; split <;> simp

@[simp] theorem domainSwitch_cmd (k : Nat) (s : State) : (domainSwitch k s).cmd = s.cmd := by
  unfold domainSwitch
  dsimp only
  (repeat' split) <;> simp

@[simp] theorem reselect_cmd (s : State) : (reselect s).cmd = s.cmd := by
  unfold reselect
  dsimp only
  (repeat' split) <;> simp

@[simp] theorem acquired_cmd (s : State) : (acquired s).cmd = s.cmd := by
  unfold acquired; split <;> simp

@[simp] theorem settleSlot_cmd (k : Nat) (s : State) : (settleSlot k s).cmd = s.cmd := by
  simp [settleSlot]

@[simp] theorem settlePtp_cmd (s : State) : (settlePtp s).cmd = s.cmd := by
  simp [settlePtp]

@[simp] theorem exitCommit_cmd (n : Nat) (s : State) : (exitCommit n s).cmd = s.cmd := by
  unfold exitCommit
  (repeat' split) <;> simp

@[simp] theorem commitCounters_cmd (n : Nat) (s : State) : (commitCounters n s).cmd = s.cmd := by
  simp [commitCounters]

@[simp] theorem slotEnd_cmd (s : State) : (slotEnd s).cmd = s.cmd := by
  unfold slotEnd; split <;> simp

@[simp] theorem abortResync_cmd (s : State) : (abortResync s).cmd = s.cmd := by
  simp [abortResync]

@[simp] theorem endIntr_cmd (s : State) : (endIntr s).cmd = s.cmd := by
  unfold endIntr; split <;> simp

/-! ### Operations that leave the generations -/

@[simp] theorem putWork_gens (g : Nat) (op : LongOp) (s : State) : (putWork g op s).cmd.gens = s.cmd.gens := by
  unfold putWork; split <;> simp

@[simp] theorem testOutcome_gens (status : Nat) (s : State) : (testOutcome status s).cmd.gens = s.cmd.gens := by
  unfold testOutcome; split <;> simp

@[simp] theorem activateOutcome_gens (d : SideId) (status : Nat) (s : State) :
    (activateOutcome d status s).cmd.gens = s.cmd.gens := by
  unfold activateOutcome
  (repeat' split) <;> simp

@[simp] theorem goOut_gens (d : SideId) (s : State) : (goOut d s).cmd.gens = s.cmd.gens := by
  simp [goOut]

@[simp] theorem putAq_gens (s : State) (h : Nat) (a : AdminHost) : (putAq s h a).cmd.gens = s.cmd.gens := rfl

@[simp] theorem dueStatus_gens (who : Issuer) (p : Packet) (status off result : Nat) (gen : W32) (epoch head : BitVec 16)
    (s : State) : (dueStatus who p status off result gen epoch head s).cmd.gens = s.cmd.gens := rfl

@[simp] theorem countStatus_gens (who : Issuer) (p : Packet) (f : Option Finding) (s : State) :
    (countStatus who p f s).cmd.gens = s.cmd.gens := by
  unfold countStatus
  (repeat' split) <;> simp

@[simp] theorem castleOutcome_gens (status : Nat) (d : SideId) (s : State) :
    (castleOutcome status d s).cmd.gens = s.cmd.gens := by
  unfold castleOutcome
  (repeat' split) <;> simp

@[simp] theorem commitMove_gens (n : Nat) (s : State) : (commitMove n s).cmd.gens = s.cmd.gens := by
  unfold commitMove
  dsimp only
  (repeat' split) <;> simp

@[simp] theorem soloCommit_gens (h : SideId) (s : State) : (soloCommit h s).cmd.gens = s.cmd.gens := by
  unfold soloCommit
  (repeat' split) <;> simp

@[simp] theorem endHandover_gens (h : SideId) (s : State) : (endHandover h s).cmd.gens = s.cmd.gens := by
  unfold endHandover
  (repeat' split) <;> simp

@[simp] theorem leaveState_gens (d : SideId) (status : Nat) (s : State) :
    (leaveState d status s).cmd.gens = s.cmd.gens := by
  unfold leaveState
  dsimp only
  (repeat' split) <;> simp

@[simp] theorem startTests_gens (d : SideId) (s : State) : (startTests d s).cmd.gens = s.cmd.gens := by
  simp [startTests]

@[simp] theorem leaveStep_gens (d : SideId) (s : State) : (leaveStep d s).cmd.gens = s.cmd.gens := by
  unfold leaveStep; split <;> simp

/-! ### The end of a class L command (R55, R69) -/

/-- A command counts in its own group alone. -/
theorem bumpGen_gens (p : Packet) (s : State) (k : Nat) :
    tget 0 (bumpGen p s).cmd.gens k = tget 0 s.cmd.gens k + (if k = groupOf p then 1 else 0) := by
  by_cases hk : k = groupOf p
  · subst hk; simp [bumpGen]
  · simp [bumpGen, tget_tput_ne hk, hk]

/-- A class L command that ends with ST_OK counts where it has changed state. -/
theorem endLong_gens_ok {g : Nat} {s : State} {r : Running} (hr : tfind s.cmd.running g = some r) (result k : Nat) :
    tget 0 (endLong g stOk result s).cmd.gens k
      = tget 0 s.cmd.gens k + (if r.changes = true ∧ k = groupOf r.pkt then 1 else 0) := by
  unfold endLong
  rw [hr]
  by_cases hc : r.changes = true
  · simp only [hc, decide_true, Bool.and_self, if_true, true_and]
    split
    · exact bumpGen_gens r.pkt _ k
    · rw [dueStatus_gens, countStatus_gens]; exact bumpGen_gens r.pkt _ k
  · simp only [hc, Bool.and_false, Bool.false_eq_true, if_false, false_and]
    split <;> simp

/-- One that ends with another status counts nowhere. -/
theorem endLong_gens_failed {status : Nat} (hs : status ≠ stOk) (g result : Nat) (s : State) :
    (endLong g status result s).cmd.gens = s.cmd.gens := by
  unfold endLong
  split
  · rfl
  · simp only [hs, decide_false, Bool.false_and, Bool.false_eq_true, if_false]
    split <;> simp

@[simp] theorem dropWarm_gens (s : State) : (dropWarm s).cmd.gens = s.cmd.gens := by
  unfold dropWarm
  dsimp only
  split
  · exact endLong_gens_failed (by decide) 9 0 _
  · rfl

/-! ### What the rows' effects do to the generations (R55) -/

@[simp] theorem keepPage_cmd (h q : Nat) (s : State) : (keepPage h q s).cmd = s.cmd := by
  unfold keepPage; split <;> rfl

@[simp] theorem keepCqPage_cmd (h c : Nat) (s : State) : (keepCqPage h c s).cmd = s.cmd := by
  unfold keepCqPage; split <;> rfl

/-- A row's effect begins class L work. -/
def begun : Act → Bool
  | .done .. => false
  | .start .. => true

/-- A row leaves the generations to the pipeline, and begins class L work where it is of class L. -/
def LeavesGens (x : CmdSpec × Body) : Prop :=
  ∀ w p l s, (actState (x.2.act w p l s)).cmd.gens = s.cmd.gens ∧ begun (x.2.act w p l s) = x.1.long

theorem createCq_leavesGens : LeavesGens (csCreateCq, bodyCreateCq) :=
  fun w p _ s => ⟨congrArg Cmd.gens (keepCqPage_cmd w.host (par p 0x10 2) s), rfl⟩

theorem createSq_leavesGens : LeavesGens (csCreateSq, bodyCreateSq) :=
  fun w p _ s => ⟨congrArg Cmd.gens (keepPage_cmd w.host (par p 0x10 2) s), rfl⟩

theorem deleteSq_leavesGens : LeavesGens (csDeleteSq, bodyDeleteSq) := by
  intro w p l s
  simp only [bodyDeleteSq, dropSq]
  split <;> exact ⟨rfl, rfl⟩

theorem deleteCq_leavesGens : LeavesGens (csDeleteCq, bodyDeleteCq) := by
  intro w p l s
  simp only [bodyDeleteCq, dropCq]
  split <;> exact ⟨rfl, rfl⟩

theorem setWrr_leavesGens : LeavesGens (csSetWrr, bodySetWrr) := by
  intro w p l s
  simp only [bodySetWrr]
  split <;> exact ⟨rfl, rfl⟩

theorem portEnable_leavesGens : LeavesGens (csPortEnable, bodyPortEnable) := by
  intro w p l s
  simp only [bodyPortEnable]
  split <;> exact ⟨rfl, rfl⟩

theorem domainSet_leavesGens : LeavesGens (csDomainSet, bodyDomainSet) := by
  intro w p l s
  simp only [bodyDomainSet]
  split
  · exact ⟨rfl, rfl⟩
  · exact ⟨by simp, rfl⟩

theorem timeStep_leavesGens : LeavesGens (csTimeStep, bodyTimeStep) := by
  intro w p l s
  simp only [bodyTimeStep]
  split <;> exact ⟨rfl, rfl⟩

theorem selftest_leavesGens : LeavesGens (csSelftest, bodySelftest) := by
  intro w p l s
  simp only [bodySelftest]
  split
  · exact ⟨rfl, rfl⟩
  · exact ⟨startTests_gens _ s, rfl⟩

theorem fwWrite_leavesGens : LeavesGens (csFwWrite, bodyFwWrite) :=
  fun _ p _ s => ⟨by simp [bodyFwWrite], rfl⟩

theorem fwVerify_leavesGens : LeavesGens (csFwVerify, bodyFwVerify) :=
  fun _ p _ s => ⟨leaveStep_gens (fwSide p) s, rfl⟩

theorem fwActivate_leavesGens : LeavesGens (csFwActivate, bodyFwActivate) :=
  fun _ p _ s => ⟨by simp [bodyFwActivate], rfl⟩

theorem startCold_leavesGens : LeavesGens (csModeStart, bodyStartCold) := by
  intro w p l s
  simp only [bodyStartCold]
  split <;> exact ⟨dropWarm_gens s, rfl⟩

/-- Every row does; one without a lemma of its own does so by its definition. -/
theorem adminTable_leavesGens : ∀ x ∈ adminTable, LeavesGens x := by
  simp only [adminTable, commandTable, List.cons_append, List.nil_append, List.forall_mem_cons, List.not_mem_nil, false_implies,
    implies_true, and_true]
  refine ⟨createCq_leavesGens, createSq_leavesGens, deleteSq_leavesGens, deleteCq_leavesGens, setWrr_leavesGens, ?_, ?_, ?_,
    portEnable_leavesGens, ?_, ?_, ?_, ?_, ?_, ?_, ?_, ?_, ?_, ?_, ?_, ?_, ?_, ?_, ?_, ?_, ?_, ?_, ?_, ?_,
    domainSet_leavesGens, timeStep_leavesGens, ?_, ?_, ?_, ?_, selftest_leavesGens, ?_, ?_, ?_, ?_, ?_, ?_, ?_, ?_, ?_, ?_, ?_,
    fwWrite_leavesGens, fwVerify_leavesGens, fwActivate_leavesGens, ?_, ?_, ?_, ?_, ?_, startCold_leavesGens, ?_⟩ <;>
    exact fun _ _ _ _ => ⟨rfl, rfl⟩

/-! ### The generations across a turn (R55) -/

/-- A class L command's begin leaves the generations. -/
theorem begins_gens (c : CmdSpec) (h : Host) (p : Packet) (s t : State) (op : LongOp) (ch : Bool) :
    (begins c h p s t op ch).cmd.gens = t.cmd.gens := by
  obtain ⟨l, hl⟩ := noteIb_withIb c (issuer h s) p (longEntry h p s op ch) s
    { t with cmd := { t.cmd with running := tset t.cmd.running (groupOf p) (longEntry h p s op ch) } }
  rw [begins, hl]
  rfl

/-- A reply leaves them. -/
theorem replied_gens (h : Host) (p : Packet) (s : State) (f : Option Finding) (r : Nat) (v : State) :
    (replied h p s f r v).cmd.gens = v.cmd.gens := by
  have hapart := congrArg Cmd.gens (replied_apartAdmin h p s f r v)
  exact hapart

theorem turnTaken_gens (c : CmdSpec) (h : Host) (p : Packet) (ib : ReadEnd) (s : State) :
    (turnTaken c h p ib s).cmd.gens = s.cmd.gens := by
  rw [turnTaken_cmd]
  have hapart := congrArg Cmd.gens (consumeAdmin_apartAdmin h s)
  exact hapart

/-- An accepted command leaves every generation, or counts its own group's where it ends with a change of state. -/
theorem runAdmin_accepted_gens {c : CmdSpec} {b : Body} {h : Host} {p : Packet} {ib : ReadEnd} {s : State}
    (hb : LeavesGens (c, b)) (H : Accepted c b h p ib s) (hd : dryRun p = false ∨ c.query = true) :
    (runAdmin c b h p ib s).cmd.gens = s.cmd.gens
      ∨ (c.query = false ∧ c.long = false ∧ ∀ k, tget 0 (runAdmin c b h p ib s).cmd.gens k
        = tget 0 s.cmd.gens k + (if k = groupOf p then 1 else 0)) := by
  obtain ⟨hgens, hlong⟩ := hb (issuer h s) p ((c.ibuf.bind (fun o => ibBytes p o ib)).getD []) (turnTaken c h p ib s)
  rw [turnTaken_gens] at hgens
  rw [runAdmin_act H hd]
  cases hact : b.act (issuer h s) p ((c.ibuf.bind (fun o => ibBytes p o ib)).getD []) (turnTaken c h p ib s) with
  | start t op ch =>
    rw [hact] at hgens
    exact .inl ((begins_gens c h p s t op ch).trans hgens)
  | done t r ch =>
    rw [hact] at hgens hlong
    have hreply := replied_gens h p s none r
    dsimp only [actState, begun] at hgens hlong ⊢
    cases hch : ch && !c.query with
    | false => exact .inl ((hreply t).trans hgens)
    | true =>
      have hq : c.query = false := by simp_all
      refine .inr ⟨hq, hlong.symm, fun k => ?_⟩
      rw [← hgens]
      exact (congrArg (tget 0 · k) (hreply (bumpGen p t))).trans (bumpGen_gens p t k)

/-- A turn either stops at its reply, refused or dry, or its command is accepted and acts. -/
theorem stopped_or_accepted {i : Instr} {s : State} {h : Host} {p : Packet} {c : CmdSpec} {b : Body} {ib : ReadEnd}
    (HT : HasTurn i s h p c b ib) :
    (∃ f l, exec i s = .next (replied h p s f 0 (withIb l (turnBase c h p ib s))))
      ∨ (Accepted c b h p ib s ∧ (dryRun p = false ∨ c.query = true)) := by
  cases hf : worst (findings c b (issuer h s) p ib (consumeAdmin h s)) with
  | some f => exact .inl ⟨_, exec_stopped HT hf (.inl rfl)⟩
  | none =>
    by_cases hdry : dryRun p = true ∧ c.query = false
    · exact .inl ⟨_, exec_stopped HT hf (.inr hdry)⟩
    · exact .inr ⟨accepted_of_turn HT (worst_none.mp hf), by cases hp : dryRun p <;> simp_all⟩

/-- Settles O51: the replies and the rows leave the generations, and the one count of the pipeline is that of a command that changes
state and ends with ST_OK. -/
theorem generationCounts : Obligations.GenerationCounts := by
  unfold Obligations.GenerationCounts
  refine ⟨?turn, fun g k result s r hr => endLong_gens_ok hr result k,
    fun g k status result s hs => congrArg (tget 0 · k) (endLong_gens_failed hs g result s)⟩
  intro i s h p c b ib g HT hm
  obtain ⟨f, l, hexec⟩ | ⟨H, hd⟩ := stopped_or_accepted HT
  · have hgens := congrArg Cmd.gens (stopped_apartAdmin c h p ib s f l)
    exact ⟨_, hexec, .inl (congrArg (tget 0 · g) hgens)⟩
  · have ⟨_, _, _, hok⟩ := H
    refine ⟨_, exec_adminRow HT.1 (.inl hm), ?_⟩
    obtain hgens | ⟨hq, hlong, hgens⟩ := runAdmin_accepted_gens (adminTable_leavesGens _ (adminRow_mem HT.1)) H hd
    · exact .inl (congrArg (tget 0 · g) hgens)
    · by_cases hg : g = groupOf p
      · exact .inr ⟨hg, by rw [hgens g, if_pos hg], hq, hlong, by simp_all, hok⟩
      · exact .inl (by rw [hgens g, if_neg hg, add_zero])

end Sys2Proof.Machine
end

section
/-!
A host's permission, and its queues (R76): who may change state, and which queues a queue command can touch.
-/

namespace Sys2Proof.Machine

/-! ### Permission (R76, R77) -/

/-- A host without its group's bit lacks the permission for every command but a query. -/
theorem lacksPerm_of_no_bit {c : CmdSpec} {h : Host} {p : Packet} {s : State} (hq : c.query = false)
    (hbit : regFld s .cmdPerm [h.val] (groupOf p) 1 = 0) : lacksPerm c (issuer h s) p (consumeAdmin h s) = true := by
  have hregs : regFld (consumeAdmin h s) .cmdPerm [h.val] (groupOf p) 1 = 0 := by
    rw [← hbit, regFld, regFld, regVal, regVal, consumeAdmin_regs]
  simp [lacksPerm, hq, hregs]

/-- Without permission the command's buffer is not read (R57, R76). -/
theorem turnBase_of_lacksPerm {c : CmdSpec} {h : Host} {p : Packet} {s : State}
    (hl : lacksPerm c (issuer h s) p (consumeAdmin h s) = true) (ib : ReadEnd) : turnBase c h p ib s = consumeAdmin h s := by
  simp only [turnBase, turnTaken, ibChannel, hl, Bool.or_true, if_true]
  (repeat' split) <;> rfl

/-- A row open to every host refuses no query for want of permission. -/
theorem lacksPerm_of_open_query {c : CmdSpec} (hq : c.query = true) (hp : c.priv = false) (w : Issuer) (p : Packet) (s : State) :
    lacksPerm c w p s = false := by
  simp [lacksPerm, hq, hp]

/-! ### A query is never refused with ST_DENIED (R76) -/

/-- None of these faults is ST_DENIED. -/
def NeverDenied (l : List Finding) : Prop := ∀ f ∈ l, f.status ≠ stDenied

theorem neverDenied_nil : NeverDenied [] := fun _ hf => absurd hf List.not_mem_nil

theorem NeverDenied.append {l m : List Finding} (hl : NeverDenied l) (hm : NeverDenied m) : NeverDenied (l ++ m) :=
  List.forall_mem_append.mpr ⟨hl, hm⟩

theorem neverDenied_when {f : Finding} (hf : f.status ≠ stDenied) (g : Bool) : NeverDenied (when g f) := by
  cases g with
  | false => exact neverDenied_nil
  | true => exact fun x hx => List.mem_singleton.mp hx ▸ hf

theorem neverDenied_flatMap {α : Type} {l : List α} {f : α → List Finding} (hf : ∀ a, NeverDenied (f a)) :
    NeverDenied (l.flatMap f) := by
  intro x hx
  obtain ⟨a, -, hxa⟩ := List.mem_flatMap.mp hx
  exact hf a x hxa

/-- A malformed packet is refused with ST_BAD_PARAM or ST_RANGE. -/
theorem formFindings_neverDenied (c : CmdSpec) (p : Packet) : NeverDenied (formFindings c p) := by
  have hparam : ∀ (g : Bool) (o : Nat), NeverDenied (when g (fParam o)) := fun g o => neverDenied_when (by simp) g
  have hrange : ∀ (g : Bool) (o : Nat), NeverDenied (when g (fRange o)) := fun g o => neverDenied_when (by simp) g
  have hfields := fun (l : List (Nat × Nat)) (g : Nat × Nat → Bool) =>
    neverDenied_flatMap (l := l) fun x => hparam (g x) x.1
  have hsized := fun (l : List (Nat × Nat × Nat)) (g : Nat × Nat × Nat → Bool) =>
    neverDenied_flatMap (l := l) fun x => hparam (g x) x.1
  exact (((((((((hparam _ _).append (hparam _ _)).append (hparam _ _)).append (hparam _ _)).append (hparam _ _)).append
    (hfields _ _)).append (hsized _ _)).append (hsized _ _)).append (hfields _ _)).append
    (neverDenied_flatMap fun x => hrange _ x.1)

/-- The rows of the queries check at most that a field lies in its range. -/
theorem queryTable_check_neverDenied : ∀ x ∈ queryTable, ∀ w p l s, NeverDenied (x.2.check w p l s) := by
  intro x hx w p l s
  simp only [queryTable, List.mem_cons, List.not_mem_nil, or_false] at hx
  obtain rfl | rfl | rfl | rfl | rfl | rfl | rfl | rfl | rfl | rfl | rfl | rfl := hx
  case inr.inr.inr.inr.inr.inl => exact neverDenied_when (by simp) _
  all_goals exact neverDenied_nil

theorem query_findings_neverDenied {c : CmdSpec} {b : Body} (hx : (c, b) ∈ queryTable) (w : Issuer) (p : Packet) (ib : ReadEnd)
    (s : State) : NeverDenied (findings c b w p ib s) := by
  obtain ⟨hi, hp, -⟩ := queryTable_onlyAnswers _ hx
  dsimp only at hi hp
  obtain ⟨-, hq⟩ : (c, b) ∈ adminTable ∧ c.query = true := List.mem_filter.mp (adminTable_queries.symm ▸ hx)
  have hwhen : ∀ (g : Bool) {f : Finding}, f.status ≠ stDenied → NeverDenied (when g f) := fun g _ hf => neverDenied_when hf g
  unfold findings
  simp only [lacksPerm_of_open_query hq hp, hi]
  split
  · intro f hf
    rw [List.mem_singleton.mp hf]
    simp
  · exact ((((formFindings_neverDenied c p).append (hwhen _ (by simp))).append (hwhen _ (by simp))).append
      (hwhen _ (by simp))).append (queryTable_check_neverDenied _ hx w p [] s)

/-! ### The queues of one host -/

/-- The queues of the host `n` are those of before. -/
def SameQueuesOf (n : Nat) (s t : State) : Prop := ∀ q, q < 1024 → sqOf t n q = sqOf s n q ∧ cqOf t n q = cqOf s n q

theorem SameQueuesOf.trans {n : Nat} {s t u : State} (h1 : SameQueuesOf n s t) (h2 : SameQueuesOf n t u) : SameQueuesOf n s u :=
  fun q hq => ⟨(h2 q hq).1.trans (h1 q hq).1, (h2 q hq).2.trans (h1 q hq).2⟩

/-- Only the two tables hold them. -/
theorem sameQueuesOf_of_tables {s t : State} (hs : t.que.sqs = s.que.sqs) (hc : t.que.cqs = s.que.cqs) (n : Nat) :
    SameQueuesOf n s t := by
  intro q _
  simp [sqOf, cqOf, hs, hc]

theorem sameQueuesOf_of_que {s t : State} (hq : t.que = s.que) (n : Nat) : SameQueuesOf n s t :=
  sameQueuesOf_of_tables (congrArg Que.sqs hq) (congrArg Que.cqs hq) n

/-- Queues of different hosts have different keys. -/
theorem qkey_ne {n h q k : Nat} (hn : n ≠ h) (hq : q < 1024) (hk : k < 1024) : qkey n q ≠ qkey h k := by
  simp only [qkey]; omega

theorem sameQueuesOf_putSq {n h k : Nat} (hn : n ≠ h) (hk : k < 1024) (s : State) (x : Sq) : SameQueuesOf n s (putSq s h k x) := by
  intro q hq
  simp [sqOf, cqOf, putSq, tfind_tset_ne (qkey_ne hn hq hk)]

theorem sameQueuesOf_putCq {n h k : Nat} (hn : n ≠ h) (hk : k < 1024) (s : State) (x : Cq) : SameQueuesOf n s (putCq s h k x) := by
  intro q hq
  simp [sqOf, cqOf, putCq, tfind_tset_ne (qkey_ne hn hq hk)]

/-- What the rim keeps of an SQ is not the SQ. -/
theorem sameQueuesOf_keepPage (n h k : Nat) (s : State) : SameQueuesOf n s (keepPage h k s) := by
  refine sameQueuesOf_of_tables ?_ ?_ n <;> unfold keepPage <;> split <;> rfl

theorem sameQueuesOf_keepCqPage (n h k : Nat) (s : State) : SameQueuesOf n s (keepCqPage h k s) := by
  refine sameQueuesOf_of_tables ?_ ?_ n <;> unfold keepCqPage <;> split <;> rfl

theorem sameQueuesOf_consumeAdmin {n : Nat} {h : Host} (hn : n ≠ h.val) (s : State) : SameQueuesOf n s (consumeAdmin h s) := by
  have hplace : SameQueuesOf n s (adminPlace h.val s) := by
    unfold adminPlace
    (repeat' split)
    · exact (sameQueuesOf_putCq hn (by omega) s _).trans (sameQueuesOf_of_que (raiseAct_que _ _) n)
    · exact sameQueuesOf_of_que rfl n
    · exact sameQueuesOf_of_que rfl n
  exact hplace.trans (sameQueuesOf_of_que rfl n)

/-! ### The queue commands (R76) -/

/-- A row's effect touches the issuing host's queues alone, where its fields lie in their ranges. -/
def OwnQueuesOnly (x : CmdSpec × Body) : Prop :=
  ∀ (w : Issuer) (p : Packet) (l : List Byte) (s : State) (n : Nat), n ≠ w.host →
    (∀ r ∈ x.1.ranges, par p r.1 r.2.1 ≤ r.2.2.2) → SameQueuesOf n s (actState (x.2.act w p l s))

/-- The rows of group 0x01. -/
def queueTable : List (CmdSpec × Body) := [(csCreateCq, bodyCreateCq), (csCreateSq, bodyCreateSq), (csDeleteSq, bodyDeleteSq),
  (csDeleteCq, bodyDeleteCq), (csSetWrr, bodySetWrr), (csSetQuota, bodySetQuota), (csQueQuery, bodyQueQuery)]

theorem adminTable_queues : adminTable.filter (fun x => x.1.opcode / 256 - 1 == 0) = queueTable := rfl

/-- A queue number that lies in its field's range is one of the host's. -/
theorem queueId_lt {c : CmdSpec} {p : Packet} (hc : (0x10, 2, 1, 1023) ∈ c.ranges)
    (hr : ∀ r ∈ c.ranges, par p r.1 r.2.1 ≤ r.2.2.2) : par p 0x10 2 < 1024 :=
  Nat.lt_succ_of_le (hr _ hc)

theorem createCq_ownQueuesOnly : OwnQueuesOnly (csCreateCq, bodyCreateCq) := fun _ _ _ _ n hn hr =>
  ((sameQueuesOf_keepCqPage n _ _ _).trans (sameQueuesOf_putCq hn (queueId_lt (by decide) hr) _ _)).trans
    (sameQueuesOf_of_que (pushSet_que _ _) n)

theorem createSq_ownQueuesOnly : OwnQueuesOnly (csCreateSq, bodyCreateSq) := fun _ _ _ _ n hn hr =>
  ((sameQueuesOf_keepPage n _ _ _).trans (sameQueuesOf_putSq hn (queueId_lt (by decide) hr) _ _)).trans
    (sameQueuesOf_of_que (pushSet_que _ _) n)

theorem deleteSq_ownQueuesOnly : OwnQueuesOnly (csDeleteSq, bodyDeleteSq) := by
  intro w p l s n hn hr
  simp only [bodyDeleteSq, actState_done, dropSq]
  split
  · exact (sameQueuesOf_putSq hn (queueId_lt (by decide) hr) _ _).trans (sameQueuesOf_of_que (pushSet_que _ _) n)
  · exact sameQueuesOf_of_que rfl n

theorem deleteCq_ownQueuesOnly : OwnQueuesOnly (csDeleteCq, bodyDeleteCq) := by
  intro w p l s n hn hr
  simp only [bodyDeleteCq, actState_done, dropCq]
  split
  · exact (sameQueuesOf_putCq hn (queueId_lt (by decide) hr) _ _).trans (sameQueuesOf_of_que (pushSet_que _ _) n)
  · exact sameQueuesOf_of_que rfl n

theorem setWrr_ownQueuesOnly : OwnQueuesOnly (csSetWrr, bodySetWrr) := by
  intro w p l s n hn hr
  simp only [bodySetWrr]
  split
  · exact sameQueuesOf_of_que rfl n
  · exact sameQueuesOf_putSq hn (queueId_lt (by decide) hr) _ _

theorem queueTable_ownQueuesOnly : ∀ x ∈ queueTable, OwnQueuesOnly x := by
  simp only [queueTable, List.forall_mem_cons, List.not_mem_nil, false_implies, implies_true, and_true]
  exact ⟨createCq_ownQueuesOnly, createSq_ownQueuesOnly, deleteSq_ownQueuesOnly, deleteCq_ownQueuesOnly, setWrr_ownQueuesOnly,
    fun _ _ _ _ n _ _ => sameQueuesOf_of_tables rfl rfl n, fun _ _ _ _ n _ _ => sameQueuesOf_of_que rfl n⟩

/-! ### A turn's queues -/

/-- Where no fault applies, every field lies in its range. -/
theorem ranges_of_no_findings {c : CmdSpec} {b : Body} {w : Issuer} {p : Packet} {ib : ReadEnd} {s : State}
    (hf : findings c b w p ib s = []) : ∀ r ∈ c.ranges, par p r.1 r.2.1 ≤ r.2.2.2 := by
  have hop := opcode_of_no_findings hf
  unfold findings at hf
  split at hf
  · exact absurd hop ‹_›
  · split at hf
    · simp at hf
    · simp only [formFindings, List.append_eq_nil_iff, List.flatMap_eq_nil_iff] at hf
      obtain ⟨⟨⟨⟨⟨-, hranges⟩, -⟩, -⟩, -⟩, -⟩ := hf
      intro r hr
      exact not_lt.mp fun hgt => by simpa [when, hgt] using hranges r hr

/-- A reply leaves the queues. -/
theorem replied_que (h : Host) (p : Packet) (s : State) (f : Option Finding) (r : Nat) (v : State) :
    (replied h p s f r v).que = v.que := by
  have hapart := congrArg State.que (replied_apart h p s f r v)
  exact hapart

theorem begins_que (c : CmdSpec) (h : Host) (p : Packet) (s t : State) (op : LongOp) (ch : Bool) :
    (begins c h p s t op ch).que = t.que := by
  obtain ⟨l, hl⟩ := noteIb_withIb c (issuer h s) p (longEntry h p s op ch) s
    { t with cmd := { t.cmd with running := tset t.cmd.running (groupOf p) (longEntry h p s op ch) } }
  rw [begins, hl]
  rfl

/-- An accepted command has the queues that its effect leaves. -/
theorem runAdmin_accepted_que {c : CmdSpec} {b : Body} {h : Host} {p : Packet} {ib : ReadEnd} {s : State}
    (H : Accepted c b h p ib s) (hd : dryRun p = false ∨ c.query = true) : (runAdmin c b h p ib s).que
      = (actState (b.act (issuer h s) p ((c.ibuf.bind (fun o => ibBytes p o ib)).getD []) (turnTaken c h p ib s))).que := by
  rw [runAdmin_act H hd]
  cases b.act (issuer h s) p ((c.ibuf.bind (fun o => ibBytes p o ib)).getD []) (turnTaken c h p ib s) with
  | start t op ch => exact begins_que c h p s t op ch
  | done t r ch =>
    dsimp only [actState]
    refine (replied_que h p s none r _).trans ?_
    split <;> rfl

theorem turnTaken_que (c : CmdSpec) (h : Host) (p : Packet) (ib : ReadEnd) (s : State) :
    (turnTaken c h p ib s).que = (consumeAdmin h s).que := ibChannel_que c _ p ib _

theorem turnBase_que (c : CmdSpec) (h : Host) (p : Packet) (ib : ReadEnd) (s : State) :
    (turnBase c h p ib s).que = (consumeAdmin h s).que := by
  unfold turnBase
  split
  · rfl
  · exact turnTaken_que c h p ib s

/-- Only MODE_START looks at its packet before the shared pipeline. -/
theorem exec_commandRow {i : Instr} {h : Host} {p : Packet} {c : CmdSpec} {b : Body} {ib : ReadEnd}
    (hr : adminRow i = some (h, p, c, b, ib)) (hc : c ≠ csModeStart) (s : State) : exec i s = .next (runAdmin c b h p ib s) := by
  obtain ⟨-, hx⟩ | ⟨-, -, rfl, -⟩ | ⟨-, -, rfl, -⟩ := adminRow_cases hr
  · exact hx s
  · exact absurd rfl hc
  · exact absurd rfl hc

/-- Settles O53: without its bit a command has ST_DENIED alone; no check of a query gives it; and a queue command's effect touches the
issuer's keys. -/
theorem hostNeedsPermissionAndOwnsQueues : Obligations.HostNeedsPermissionAndOwnsQueues := by
  unfold Obligations.HostNeedsPermissionAndOwnsQueues
  refine ⟨?denied, ?query, ?queues⟩
  case denied =>
    intro i s h p c b ib HT hop hq hbit
    have hl := lacksPerm_of_no_bit hq hbit
    have hf : worst (findings c b (issuer h s) p ib (consumeAdmin h s)) = some fDenied := by
      rw [findings_of_lacksPerm hop hl]; rfl
    obtain ⟨l, hexec⟩ := exec_stopped HT hf (.inl rfl)
    refine ⟨_, _, hexec, ?_, stopped_apartAdmin c h p ib s _ l, stopped_dueStatus c h p ib s _ l, rfl, rfl⟩
    rw [stopped_apart, turnBase_of_lacksPerm hl]
  case query =>
    intro i s h p c b ib HT hop hq
    have hx : (c, b) ∈ queryTable := adminTable_queries ▸ List.mem_filter.mpr ⟨adminRow_mem HT.1, hq⟩
    cases hf : worst (findings c b (issuer h s) p ib (consumeAdmin h s)) with
    | some f =>
      obtain ⟨l, hexec⟩ := exec_stopped HT hf (.inl rfl)
      exact ⟨_, _, hexec, stopped_dueStatus c h p ib s _ l, rfl,
        query_findings_neverDenied hx _ p ib _ f (worst_some hf).1⟩
    | none =>
      obtain ⟨r, hexec⟩ := exec_query HT hq (worst_none.mp hf)
      exact ⟨_, _, hexec, replied_dueStatus (consumeAdmin_dueStatus h s), rfl, by simp [statusDue]⟩
  case queues =>
    intro i s h n p c b ib q HT hg hn hq
    have hturn := sameQueuesOf_consumeAdmin (n := n.val) (h := h) (fun hv => hn (Fin.ext hv)) s
    obtain ⟨f, l, hexec⟩ | ⟨H, hd⟩ := stopped_or_accepted HT
    · have hque : (replied h p s f 0 (withIb l (turnBase c h p ib s))).que = (consumeAdmin h s).que :=
        (replied_que h p s f 0 _).trans (turnBase_que c h p ib s)
      exact ⟨_, hexec, (hturn.trans (sameQueuesOf_of_que hque n.val)) q hq⟩
    · have ⟨_, _, hop, hok⟩ := H
      have hx : (c, b) ∈ queueTable := adminTable_queues ▸
        List.mem_filter.mpr ⟨adminRow_mem HT.1, by simpa [groupOf, hop] using hg⟩
      have hc : c ≠ csModeStart := by
        rintro rfl
        rw [groupOf, hop] at hg
        exact absurd hg (by decide)
      have hact := queueTable_ownQueuesOnly _ hx (issuer h s) p ((c.ibuf.bind (fun o => ibBytes p o ib)).getD [])
        (turnTaken c h p ib s) n.val (fun hv => hn (Fin.ext hv)) (ranges_of_no_findings hok)
      have hsame := (hturn.trans (sameQueuesOf_of_que (turnTaken_que c h p ib s) n.val)).trans
        (hact.trans (sameQueuesOf_of_que (runAdmin_accepted_que H hd) n.val))
      exact ⟨_, exec_commandRow HT.1 hc s, hsame q hq⟩

end Sys2Proof.Machine
end

section
/-!
Commands reach the rim through numbered sets (R63, R65): the turn of a command of groups 0x01 to 0x05, 0x07 and 0x08.
-/

namespace Sys2Proof.Machine

/-! ### What the side decides alone -/

/-- The state without what a side changes at once: the journal, the command processor, the queues, flows, streams, channels and domain
slots, the counts, and the fabric's two flags of the side. -/
def rimPart (s : State) : State :=
  { s with jrn := {}, cmd := {}, que := {}, sch := {}, strm := {}, dma := {}, ptp := {}, ctrs := [], free := 0
           fab := { s.fab with idAge := 0, topoDue := false } }

/-- The Move that runs and its numbered sets. -/
def setPart (s : State) : Nat × Nat × List RimSet := (s.jrn.move, s.jrn.setNo, s.jrn.sets)

/-- From `s` to `t` the rim stands, and what is decided for it are sets of this Move under new numbers (R65). -/
structure SideOnly (s t : State) : Prop where
  rim : rimPart t = rimPart s
  move : t.jrn.move = s.jrn.move
  setNo : s.jrn.setNo ≤ t.jrn.setNo
  sets : ∃ x, t.jrn.sets = s.jrn.sets ++ x ∧ ∀ y ∈ x, y.move = s.jrn.move ∧ s.jrn.setNo < y.num

theorem sideOnly_of_parts {s t : State} (hr : rimPart t = rimPart s) (hs : setPart t = setPart s) : SideOnly s t := by
  obtain ⟨hmove, hno, hsets⟩ : t.jrn.move = s.jrn.move ∧ t.jrn.setNo = s.jrn.setNo ∧ t.jrn.sets = s.jrn.sets := by
    simpa [setPart] using hs
  exact ⟨hr, hmove, hno.ge, [], by simp [hsets], by simp⟩

theorem SideOnly.refl (s : State) : SideOnly s s := sideOnly_of_parts rfl rfl

theorem SideOnly.trans {s t u : State} (h1 : SideOnly s t) (h2 : SideOnly t u) : SideOnly s u := by
  obtain ⟨hr1, hm1, hn1, x, hs1, hx⟩ := h1
  obtain ⟨hr2, hm2, hn2, y, hs2, hy⟩ := h2
  refine ⟨hr2.trans hr1, hm2.trans hm1, hn1.trans hn2, x ++ y, by rw [hs2, hs1, List.append_assoc], fun z hz => ?_⟩
  obtain hz | hz := List.mem_append.mp hz
  · exact hx z hz
  · exact ⟨(hy z hz).1.trans hm1, hn1.trans_lt (hy z hz).2⟩

/-- A decided set takes the next number. -/
theorem sideOnly_pushSet (w : List RimWrite) (s : State) : SideOnly s (pushSet w s) :=
  ⟨rfl, rfl, Nat.le_succ _, [_], rfl, fun _ hy => List.mem_singleton.mp hy ▸ ⟨rfl, Nat.lt_succ_self _⟩⟩

theorem SideOnly.push {s t : State} (h : SideOnly s t) (w : List RimWrite) : SideOnly s (pushSet w t) :=
  h.trans (sideOnly_pushSet w t)

/-- So does an event that a side decides; the start monitor's would be raised at once (R551). -/
theorem sideOnly_raiseAct {s : State} (hm : monitor s = false) (src : Nat) : SideOnly s (raiseAct src s) := by
  simp only [raiseAct, hm]
  exact sideOnly_pushSet _ s

/-! ### The turn itself -/

theorem sideOnly_adminPlace {s : State} (hm : monitor s = false) (h : Nat) : SideOnly s (adminPlace h s) := by
  unfold adminPlace
  split
  · split
    · exact (sideOnly_of_parts (by rfl) (by rfl)).trans (sideOnly_raiseAct (by exact hm) _)
    · exact .refl s
  · exact .refl s

theorem sideOnly_consumeAdmin {s : State} (hm : monitor s = false) (h : Host) : SideOnly s (consumeAdmin h s) :=
  (sideOnly_adminPlace hm h.val).trans (sideOnly_of_parts rfl rfl)

theorem sideOnly_ibChannel (c : CmdSpec) (w : Issuer) (p : Packet) (ib : ReadEnd) (s : State) : SideOnly s (ibChannel c w p ib s) := by
  unfold ibChannel
  split
  · split
    · exact .refl s
    · split
      · exact sideOnly_of_parts rfl rfl
      · exact (sideOnly_of_parts (by rfl) (by rfl)).trans (sideOnly_pushSet _ _)
  · exact .refl s

theorem sideOnly_turnTaken {s : State} (hm : monitor s = false) (c : CmdSpec) (h : Host) (p : Packet) (ib : ReadEnd) :
    SideOnly s (turnTaken c h p ib s) := (sideOnly_consumeAdmin hm h).trans (sideOnly_ibChannel c _ p ib _)

theorem sideOnly_turnBase {s : State} (hm : monitor s = false) (c : CmdSpec) (h : Host) (p : Packet) (ib : ReadEnd) :
    SideOnly s (turnBase c h p ib s) := by
  unfold turnBase
  split
  · exact sideOnly_consumeAdmin hm h
  · exact sideOnly_turnTaken hm c h p ib

/-- In service a refusal's events are sets (R82, R551). -/
theorem sideOnly_outcomeCounted {w : Issuer} (hm : w.mon = false) (p : Packet) (f : Option Finding) (s : State) :
    SideOnly s (outcomeCounted w p f s) := by
  unfold outcomeCounted countStatus
  split
  · exact .refl s
  · cases f with
    | none => exact sideOnly_of_parts rfl rfl
    | some f =>
      simp only [hm, Bool.false_eq_true, if_false]
      split
      · exact ((sideOnly_of_parts (by rfl) (by rfl)).push _).push _
      · exact (sideOnly_of_parts (by rfl) (by rfl)).push _

theorem sideOnly_replied {h : Host} {s : State} (hm : monitor s = false) (p : Packet) (f : Option Finding) (r : Nat) (v : State) :
    SideOnly v (replied h p s f r v) := by
  rw [replied_eq]
  exact (sideOnly_outcomeCounted hm p f v).trans (sideOnly_of_parts rfl rfl)

theorem sideOnly_begins (c : CmdSpec) (h : Host) (p : Packet) (s t : State) (op : LongOp) (ch : Bool) :
    SideOnly t (begins c h p s t op ch) := by
  obtain ⟨l, hl⟩ := noteIb_withIb c (issuer h s) p (longEntry h p s op ch) s
    { t with cmd := { t.cmd with running := tset t.cmd.running (groupOf p) (longEntry h p s op ch) } }
  rw [begins, hl]
  exact sideOnly_of_parts rfl rfl

/-! ### Network time's slots (R98 to R104) -/

theorem sideOnly_putSlot (s : State) (k : Nat) (x : DomSlot) : SideOnly s (putSlot s k x) := by
  unfold putSlot
  split <;> exact sideOnly_of_parts rfl rfl

theorem sideOnly_dropSlew (s : State) : SideOnly s (dropSlew s) := by
  unfold dropSlew
  split
  · exact (sideOnly_of_parts (by rfl) (by rfl)).trans (sideOnly_pushSet _ _)
  · exact .refl s

theorem sideOnly_domainSwitch (k : Nat) (s : State) : SideOnly s (domainSwitch k s) := by
  have hswitch : SideOnly s (raiseS evDomainSwitch { s with ptp := { s.ptp with sel := Fin.ofNat 2 k } }) :=
    (sideOnly_of_parts (by rfl) (by rfl)).trans (sideOnly_pushSet _ _)
  unfold domainSwitch
  generalize (if (slotOf s k).state = 4 then (0 : Int) else (slotOf s k).offset) = off
  dsimp only
  split
  · exact (hswitch.trans (sideOnly_of_parts (by rfl) (by rfl))).trans (sideOnly_pushSet _ _)
  · split
    · exact hswitch.trans (sideOnly_dropSlew _)
    · exact (hswitch.trans (sideOnly_dropSlew _)).push _

/-- The first half of a selection: the chosen slot is taken, with a switch where it is locked. -/
def takeSlot (k : Nat) (s : State) : State :=
  if k = s.ptp.sel.val then s
  else if slotLocked (slotOf s k) then domainSwitch k s
  else { s with ptp := { s.ptp with sel := Fin.ofNat 2 k } }

/-- The second: holdover follows, and its beginning is an event. -/
def noteHoldover (s : State) : State :=
  let free := !slotLocked s.ptp.slot0 && !slotLocked s.ptp.slot1
  let t := { s with ptp := { s.ptp with holdover := free } }
  if free && !s.ptp.holdover then raiseS evHoldover t else t

theorem reselect_eq (s : State) : reselect s = noteHoldover (takeSlot (chosenSlot s) s) := rfl

theorem sideOnly_takeSlot (k : Nat) (s : State) : SideOnly s (takeSlot k s) := by
  unfold takeSlot
  split
  · exact .refl s
  · split
    · exact sideOnly_domainSwitch k s
    · exact sideOnly_of_parts rfl rfl

theorem sideOnly_noteHoldover (s : State) : SideOnly s (noteHoldover s) := by
  unfold noteHoldover
  dsimp only
  split
  · exact (sideOnly_of_parts (by rfl) (by rfl)).trans (sideOnly_pushSet _ _)
  · exact sideOnly_of_parts rfl rfl

theorem sideOnly_reselect (s : State) : SideOnly s (reselect s) :=
  reselect_eq s ▸ (sideOnly_takeSlot _ s).trans (sideOnly_noteHoldover _)

theorem sideOnly_acquired (s : State) : SideOnly s (acquired s) := by
  unfold acquired
  split
  · exact sideOnly_pushSet _ s
  · exact .refl s

theorem sideOnly_settlePtp (s : State) : SideOnly s (settlePtp s) :=
  (((sideOnly_putSlot s 0 _).trans (sideOnly_putSlot _ 1 _)).trans (sideOnly_reselect _)).trans (sideOnly_acquired _)

/-! ### The rows (R78) -/

/-- A row's effect changes the side alone. -/
def SideOnlyRow (x : CmdSpec × Body) : Prop := ∀ w p l s, SideOnly s (actState (x.2.act w p l s))

theorem sideOnly_keepPage (h q : Nat) (s : State) : SideOnly s (keepPage h q s) := by
  unfold keepPage
  split <;> exact sideOnly_of_parts rfl rfl

theorem sideOnly_keepCqPage (h c : Nat) (s : State) : SideOnly s (keepCqPage h c s) := by
  unfold keepCqPage
  split <;> exact sideOnly_of_parts rfl rfl

theorem createCq_sideOnly : SideOnlyRow (csCreateCq, bodyCreateCq) := fun w p _ s =>
  ((sideOnly_keepCqPage w.host (par p 0x10 2) s).trans (sideOnly_of_parts (by rfl) (by rfl))).trans (sideOnly_pushSet _ _)

theorem createSq_sideOnly : SideOnlyRow (csCreateSq, bodyCreateSq) := fun w p _ s =>
  ((sideOnly_keepPage w.host (par p 0x10 2) s).trans (sideOnly_of_parts (by rfl) (by rfl))).trans (sideOnly_pushSet _ _)

theorem deleteSq_sideOnly : SideOnlyRow (csDeleteSq, bodyDeleteSq) := by
  intro w p l s
  simp only [bodyDeleteSq, actState_done, dropSq]
  split
  · exact (sideOnly_of_parts (by rfl) (by rfl)).push _
  · exact .refl s

theorem deleteCq_sideOnly : SideOnlyRow (csDeleteCq, bodyDeleteCq) := by
  intro w p l s
  simp only [bodyDeleteCq, actState_done, dropCq]
  split
  · exact (sideOnly_of_parts (by rfl) (by rfl)).push _
  · exact .refl s

theorem setWrr_sideOnly : SideOnlyRow (csSetWrr, bodySetWrr) := by
  intro w p l s
  simp only [bodySetWrr]
  split <;> exact sideOnly_of_parts rfl rfl

theorem portEnable_sideOnly : SideOnlyRow (csPortEnable, bodyPortEnable) := by
  intro w p l s
  simp only [bodyPortEnable]
  split
  · exact .refl s
  · exact sideOnly_pushSet _ s

theorem domainSet_sideOnly : SideOnlyRow (csDomainSet, bodyDomainSet) := by
  intro w p l s
  simp only [bodyDomainSet]
  split
  · exact .refl s
  · exact (sideOnly_putSlot s _ _).trans (sideOnly_settlePtp _)

theorem timeStep_sideOnly : SideOnlyRow (csTimeStep, bodyTimeStep) := by
  intro w p l s
  simp only [bodyTimeStep]
  split
  · exact .refl s
  · exact sideOnly_pushSet _ s

theorem fabSet_sideOnly : SideOnlyRow (csFabSet, bodyFabSet) :=
  fun _ _ _ _ => (sideOnly_of_parts (by rfl) (by rfl)).trans (sideOnly_pushSet _ _)

theorem note_sideOnly : SideOnlyRow (csNote, bodyNote) :=
  fun _ _ _ _ => (sideOnly_of_parts (by rfl) (by rfl)).trans (sideOnly_pushSet _ _)

/-- The rows of groups 0x01 to 0x05, 0x07 and 0x08. -/
def sideTable : List (CmdSpec × Body) := [
  (csCreateCq, bodyCreateCq), (csCreateSq, bodyCreateSq), (csDeleteSq, bodyDeleteSq), (csDeleteCq, bodyDeleteCq),
  (csSetWrr, bodySetWrr), (csSetQuota, bodySetQuota), (csQueQuery, bodyQueQuery), (csPortSet, bodyPortSet),
  (csPortEnable, bodyPortEnable), (csPortFilterSet, bodyPortFilterSet), (csPortEeeSet, bodyPortEeeSet),
  (csPortRecal, bodyPortRecal), (csPortQuery, bodyPortQuery), (csFldPortSet, bodyFldPortSet), (csFldAggLoad, bodyAggLoad),
  (csFldQuery, bodyFldQuery), (csTapeLoad, bodyTapeLoad), (csClassSet, bodyClassSet), (csCloseMode, bodyCloseMode),
  (csFlowSet, bodyFlowSet), (csFlowDisable, bodyFlowDisable), (csGateQuery, bodyGateQuery), (csSchQuery, bodySchQuery),
  (csTapeCancel, bodyTapeCancel), (csIdLoad, bodyIdLoad), (csMeterSet, bodyMeterSet), (csSeqgenSet, bodySeqgenSet),
  (csSeqrecSet, bodySeqrecSet), (csStrmQuery, bodyStrmQuery), (csDomainSet, bodyDomainSet), (csTimeStep, bodyTimeStep),
  (csRateSet, bodyRateSet), (csPpsSet, bodyPpsSet), (csTimeQuery, bodyTimeQuery), (csFabSet, bodyFabSet),
  (csRouteLoad, bodyRouteLoad), (csBypassSet, bodyBypassSet), (csFabQuery, bodyFabQuery), (csNote, bodyNote),
  (csChallenge, bodyChallenge), (csRecClear, bodyRecClear), (csRecQuery, bodyRecQuery)]

theorem adminTable_sides : adminTable.filter (fun x => [0, 1, 2, 3, 4, 6, 7].contains (x.1.opcode / 256 - 1)) = sideTable := rfl

/-- Every such row does; one without a lemma of its own changes tables of the side, or nothing, by its definition. -/
theorem sideTable_sideOnly : ∀ x ∈ sideTable, SideOnlyRow x := by
  simp only [sideTable, List.forall_mem_cons, List.not_mem_nil, false_implies, implies_true, and_true]
  refine ⟨createCq_sideOnly, createSq_sideOnly, deleteSq_sideOnly, deleteCq_sideOnly, setWrr_sideOnly, ?_, ?_,
    fun _ _ _ _ => sideOnly_pushSet _ _, portEnable_sideOnly, fun _ _ _ _ => sideOnly_pushSet _ _,
    fun _ _ _ _ => sideOnly_pushSet _ _, fun _ _ _ _ => sideOnly_pushSet _ _, ?_, fun _ _ _ _ => sideOnly_pushSet _ _, ?_, ?_,
    ?_, fun _ _ _ _ => sideOnly_pushSet _ _, fun _ _ _ _ => sideOnly_pushSet _ _, ?_, ?_, ?_, ?_,
    fun _ _ _ _ => sideOnly_pushSet _ _, ?_, ?_, ?_, ?_, ?_, domainSet_sideOnly, timeStep_sideOnly,
    fun _ _ _ _ => sideOnly_pushSet _ _, fun _ _ _ _ => sideOnly_pushSet _ _, ?_, fabSet_sideOnly, ?_,
    fun _ _ _ _ => sideOnly_pushSet _ _, ?_, note_sideOnly, ?_, ?_, ?_⟩ <;>
    exact fun _ _ _ _ => sideOnly_of_parts rfl rfl

/-! ### Every command of these groups -/

/-- In service the turn of a command of these groups changes the side alone. -/
theorem sideOnly_exec {i : Instr} {s : State} {h : Host} {p : Packet} {c : CmdSpec} {b : Body} {ib : ReadEnd}
    (HT : HasTurn i s h p c b ib) (hm : monitor s = false) (hg : groupOf p ∈ [0, 1, 2, 3, 4, 6, 7]) :
    ∃ t, exec i s = .next t ∧ SideOnly s t := by
  obtain ⟨f, l, hexec⟩ | ⟨H, hd⟩ := stopped_or_accepted HT
  · refine ⟨_, hexec, ((sideOnly_turnBase hm c h p ib).trans ?_).trans (sideOnly_replied hm p f 0 _)⟩
    exact sideOnly_of_parts rfl rfl
  · refine ⟨_, exec_adminRow HT.1 (.inl hm), (sideOnly_turnTaken hm c h p ib).trans ?_⟩
    have ⟨_, _, hop, _⟩ := H
    have hx : (c, b) ∈ sideTable := adminTable_sides ▸
      List.mem_filter.mpr ⟨adminRow_mem HT.1, by simpa [groupOf, hop] using hg⟩
    have hact := sideTable_sideOnly _ hx (issuer h s) p ((c.ibuf.bind (fun o => ibBytes p o ib)).getD []) (turnTaken c h p ib s)
    rw [runAdmin_act H hd]
    cases hb : b.act (issuer h s) p ((c.ibuf.bind (fun o => ibBytes p o ib)).getD []) (turnTaken c h p ib s) with
    | start t op ch =>
      rw [hb] at hact
      exact hact.trans (sideOnly_begins c h p s t op ch)
    | done t r ch =>
      rw [hb] at hact
      refine (hact.trans ?_).trans (sideOnly_replied hm p none r _)
      dsimp only [actState]
      split
      · exact sideOnly_of_parts rfl rfl
      · exact .refl t

/-- Settles O54: what the rim holds is in the part of the state that such a turn leaves. -/
theorem commandsReachRimThroughSets : Obligations.CommandsReachRimThroughSets := by
  unfold Obligations.CommandsReachRimThroughSets
  intro i s h p c b ib HT hm hg
  obtain ⟨t, hexec, hrim, -, -, x, hsets, hx⟩ := sideOnly_exec HT hm hg
  have field : ∀ {α : Type} (f : State → α), f (rimPart t) = f (rimPart s) := fun f => congrArg f hrim
  exact ⟨t, x, hexec, hsets, hx, field State.gate, field State.port, field State.regs, field State.evt, field State.pcie,
    field State.bus, field State.sides, field State.glb, field State.flashW, field State.flashB, field State.time,
    field State.recd, field State.fld, field fun s => s.fab.routes, field fun s => s.fab.open_⟩

end Sys2Proof.Machine
end

section
/-!
What entering Safe-Hold and raising an event keep (R455, R456, R485): the status bits of sources raised before, the time base, the
clocks' locks, the alarms, and the pulses of the sides.
-/

namespace Sys2Proof.Machine

/-! ### The status bit of a raised source (R485) -/

@[simp] theorem msgDue_fw (h v : Nat) (b : Bool) (s : State) : (msgDue h v b s).1.evt.fw = s.evt.fw := by
  unfold msgDue
  dsimp only
  (repeat' split) <;> rfl

@[simp] theorem trigRaw_fw (h v : Nat) (b : Bool) (s : State) : (trigRaw h v b s).1.evt.fw = s.evt.fw := by
  unfold trigRaw
  dsimp only
  (repeat' split) <;> simp [putVec]

@[simp] theorem trigHosts_fw (src : Nat) (l : List Nat) (s : State) : (trigHosts src l s).1.evt.fw = s.evt.fw := by
  induction l generalizing s with
  | nil => rfl
  | cons n ns ih => simp only [trigHosts, ih]; split <;> simp

@[simp] theorem setBits_fw (src : Nat) (s : State) : (setBits src s).1.evt.fw = s.evt.fw ||| evtBit src := rfl

@[simp] theorem raiseBlocked_fw (s : State) : (raiseBlocked s).evt.fw = s.evt.fw ||| evtBit 254 := by
  simp [raiseBlocked]

/-- A raise sets the source's bit, and beside it that of EVT_MSIX_BLOCKED at most. -/
theorem raise_fw (src : Nat) (s : State) : ∃ b, (raise src s).evt.fw = s.evt.fw ||| evtBit src ||| b := by
  simp only [raise]
  split
  · next h => exact ⟨0#256, by simp [h]⟩
  · split
    · exact ⟨evtBit 254, by simp⟩
    · exact ⟨0#256, by simp⟩

theorem or_and_ne_zero_left {w : Nat} {x b : BitVec w} (y : BitVec w) (h : x &&& b ≠ 0) : (x ||| y) &&& b ≠ 0 := by
  intro hz
  rw [BitVec.and_comm, BitVec.and_or_distrib_left] at hz
  exact h ((BitVec.and_comm x b).trans (BitVec.or_eq_zero_iff.mp hz).1)

theorem raise_sets_bit {src : Nat} (h : evtBit src ≠ 0) (s : State) : (raise src s).evt.fw &&& evtBit src ≠ 0 := by
  obtain ⟨b, hb⟩ := raise_fw src s
  rw [hb, BitVec.or_comm s.evt.fw]
  exact or_and_ne_zero_left b (or_and_ne_zero_left _ (by rwa [BitVec.and_self]))

/-- A set status bit stays set under a raise. -/
theorem raise_keeps_bit {b : BitVec 256} {s : State} (src : Nat) (h : s.evt.fw &&& b ≠ 0) : (raise src s).evt.fw &&& b ≠ 0 := by
  obtain ⟨x, hx⟩ := raise_fw src s
  rw [hx]
  exact or_and_ne_zero_left x (or_and_ne_zero_left _ h)

/-! ### The ports in Safe-Hold (R288) -/

/-- The state without what ports give up when they turn off: their own records, gates, adjacencies, counts, and sets that tell. -/
def besidePorts (s : State) : State := { s with port := [], gate := [], fab := {}, jrn := {}, ctrs := [] }

theorem foldl_besidePorts {α : Type} (f : State → α → State) (h : ∀ s a, besidePorts (f s a) = besidePorts s) (l : List α)
    (s : State) : besidePorts (l.foldl f s) = besidePorts s := by
  induction l generalizing s with
  | nil => rfl
  | cons a l ih => rw [List.foldl_cons, ih, h]

theorem accrueLpi_besidePorts (p : Nat) (s : State) : besidePorts (accrueLpi p s) = besidePorts s := by
  unfold accrueLpi
  dsimp only
  split <;> rfl

theorem accrueRxLpi_besidePorts (p : Nat) (s : State) : besidePorts (accrueRxLpi p s) = besidePorts s := by
  unfold accrueRxLpi
  dsimp only
  split <;> rfl

theorem leaveLpi_besidePorts (p : Nat) (s : State) : besidePorts (leaveLpi p s) = besidePorts s := by
  unfold leaveLpi
  split
  · exact accrueLpi_besidePorts p s
  · rfl

theorem dropLanes_besidePorts (p : Nat) (s : State) : besidePorts (dropLanes p s) = besidePorts s := by
  dsimp only [dropLanes]
  exact foldl_besidePorts _ (fun _ _ => by rfl) _ _

theorem adjLost_besidePorts (p : Nat) (s : State) : besidePorts (adjLost p s) = besidePorts s := by
  unfold adjLost
  dsimp only
  split <;> rfl

theorem dropLink_besidePorts (p : Nat) (lock : Bool) (s : State) : besidePorts (dropLink p lock s) = besidePorts s := by
  unfold dropLink
  exact (adjLost_besidePorts p _).trans ((dropLanes_besidePorts p _).trans
    ((accrueRxLpi_besidePorts p _).trans (leaveLpi_besidePorts p s)))

theorem settleOff_besidePorts (p : Nat) (s : State) : besidePorts (settleOff p s) = besidePorts s := by
  unfold settleOff
  dsimp only
  split
  · exact dropLink_besidePorts p _ s
  · split <;> rfl

theorem safePorts_besidePorts (s : State) (on : Bool) : besidePorts (safePorts s on) = besidePorts s :=
  foldl_besidePorts _ (fun s p => by
    split
    · exact settleOff_besidePorts p _
    · rfl) _ _

@[simp] theorem safePorts_time (s : State) (on : Bool) : (safePorts s on).time = s.time := by
  have h := congrArg State.time (safePorts_besidePorts s on)
  exact h
@[simp] theorem safePorts_glb (s : State) (on : Bool) : (safePorts s on).glb = s.glb := by
  have h := congrArg State.glb (safePorts_besidePorts s on)
  exact h
@[simp] theorem safePorts_evt (s : State) (on : Bool) : (safePorts s on).evt = s.evt := by
  have h := congrArg State.evt (safePorts_besidePorts s on)
  exact h
@[simp] theorem safePorts_sides (s : State) (on : Bool) : (safePorts s on).sides = s.sides := by
  have h := congrArg State.sides (safePorts_besidePorts s on)
  exact h

@[simp] theorem safeFields_time (s : State) (on : Bool) : (safeFields s on).time = s.time := rfl
@[simp] theorem safeFields_glb (s : State) (on : Bool) : (safeFields s on).glb = s.glb := rfl
@[simp] theorem safeFields_evt (s : State) (on : Bool) : (safeFields s on).evt = s.evt := rfl
@[simp] theorem safeFields_sides (s : State) (on : Bool) : (safeFields s on).sides = s.sides := rfl

/-! ### The end of a self-test (R378, R458) -/

/-- The state without the command processor, whose running commands learn the outcome. -/
def besideCmd (s : State) : State := { s with cmd := {} }

theorem putWork_besideCmd (g : Nat) (op : LongOp) (s : State) : besideCmd (putWork g op s) = besideCmd s := by
  unfold putWork; split <;> rfl

theorem testOutcome_besideCmd (status : Nat) (s : State) : besideCmd (testOutcome status s) = besideCmd s := by
  unfold testOutcome
  split
  · exact putWork_besideCmd _ _ s
  · rfl

theorem activateOutcome_besideCmd (d : SideId) (status : Nat) (s : State) :
    besideCmd (activateOutcome d status s) = besideCmd s := by
  unfold activateOutcome
  split
  · split
    · exact putWork_besideCmd _ _ s
    · rfl
  · rfl

/-- A side in self-test becomes OUT when the part enters Safe-Hold. -/
def endTest (d : SideId) (s : State) : State :=
  if (sideOf s d).state = 6 then
    goOut d (testOutcome stResetAbort { s with sides := { s.sides with stRunning := false } })
  else s

theorem stopTest_eq (s : State) : stopTest s = endTest .black (endTest .white s) := rfl

/-- A side's record when it has become OUT. -/
def outRec (r : SideRec) : SideRec := { r with state := 2, alive := false, press := false, ready := false, mustLoop := false }

theorem updSide_besideCmd (d : SideId) (f : SideRec → SideRec) (s : State) :
    besideCmd (updSide d f s) = updSide d f (besideCmd s) := by
  cases d <;> rfl

/-- The end of a test: the side is OUT, no test runs, and the command learns it. -/
theorem endTest_besideCmd (d : SideId) (s : State) :
    besideCmd (endTest d s) = if (sideOf s d).state = 6 then
      updSide d outRec (besideCmd { s with sides := { s.sides with stRunning := false } }) else besideCmd s := by
  unfold endTest
  split
  · unfold goOut
    rw [activateOutcome_besideCmd, updSide_besideCmd, testOutcome_besideCmd]
    rfl
  · rfl

@[simp] theorem endTest_time (d : SideId) (s : State) : (endTest d s).time = s.time := by
  refine (congrArg State.time (endTest_besideCmd d s) :).trans ?_
  split
  · exact updSide_time d outRec _
  · rfl

@[simp] theorem endTest_glb (d : SideId) (s : State) : (endTest d s).glb = s.glb := by
  refine (congrArg State.glb (endTest_besideCmd d s) :).trans ?_
  split
  · exact updSide_glb d outRec _
  · rfl

@[simp] theorem endTest_evt (d : SideId) (s : State) : (endTest d s).evt = s.evt := by
  refine (congrArg State.evt (endTest_besideCmd d s) :).trans ?_
  split
  · exact updSide_evt d outRec _
  · rfl

theorem endTest_sideOf_other (d : SideId) (s : State) : sideOf (endTest d s) (other d) = sideOf s (other d) := by
  refine (congrArg (sideOf · (other d)) (endTest_besideCmd d s) :).trans ?_
  split
  · exact sideOf_putSide_other _ d _
  · rfl

/-- The end of a test leaves the pulses, where a side in self-test has none left to stop. -/
theorem endTest_alive {d : SideId} {s : State} (h : (sideOf s d).state = 6 → (sideOf s d).alive = false) :
    (sideOf (endTest d s) d).alive = (sideOf s d).alive := by
  refine (congrArg (fun t => (sideOf t d).alive) (endTest_besideCmd d s) :).trans ?_
  split
  · next hst => exact (congrArg SideRec.alive (sideOf_putSide_self _ d _)).trans (h hst).symm
  · rfl

@[simp] theorem stopTest_time (s : State) : (stopTest s).time = s.time := by simp [stopTest_eq]
@[simp] theorem stopTest_glb (s : State) : (stopTest s).glb = s.glb := by simp [stopTest_eq]
@[simp] theorem stopTest_evt (s : State) : (stopTest s).evt = s.evt := by simp [stopTest_eq]

theorem sideOf_congr {s t : State} (h : t.sides = s.sides) (d : SideId) : sideOf t d = sideOf s d := by
  cases d <;> simp [sideOf, h]

theorem stopTest_alive {d : SideId} {s : State} (h : (sideOf s d).state = 6 → (sideOf s d).alive = false) :
    (sideOf (stopTest s) d).alive = (sideOf s d).alive := by
  rw [stopTest_eq]
  cases d
  case white => exact (congrArg SideRec.alive (endTest_sideOf_other .black (endTest .white s))).trans (endTest_alive h)
  case black =>
    have hblack : sideOf (endTest .white s) .black = sideOf s .black := endTest_sideOf_other .white s
    exact (endTest_alive (by rwa [hblack])).trans (congrArg SideRec.alive hblack)

/-! ### A mode change (R437) -/

@[simp] theorem bypDrive_time (s : State) : (bypDrive s).time = s.time := rfl
@[simp] theorem bypDrive_evt (s : State) : (bypDrive s).evt = s.evt := rfl
@[simp] theorem bypDrive_sides (s : State) : (bypDrive s).sides = s.sides := rfl

@[simp] theorem toMode_time (m : Nat) (f : Bool) (s : State) : (toMode m f s).time = s.time := by
  unfold toMode; split <;> simp

@[simp] theorem toMode_sides (m : Nat) (f : Bool) (s : State) : (toMode m f s).sides = s.sides := by
  unfold toMode; split <;> simp

/-- A mode change moves the fields of the mode alone in the global state. -/
theorem toMode_glb (m : Nat) (f : Bool) (s : State) :
    ∃ p n c a, (toMode m f s).glb = { s.glb with prev := p, mode := n, castleMode := c, acqFrom := a } := by
  unfold toMode
  split
  · exact ⟨_, _, _, _, rfl⟩
  · exact ⟨_, _, _, _, by rw [bypDrive_glb, offer_glb, raise_glb]⟩

theorem toMode_keeps_bit {b : BitVec 256} {s : State} (m : Nat) (f : Bool) (h : s.evt.fw &&& b ≠ 0) :
    (toMode m f s).evt.fw &&& b ≠ 0 := by
  unfold toMode
  split
  · exact h
  · rw [bypDrive_evt, offer_evt]
    exact raise_keeps_bit 0 h

/-! ### Entering Safe-Hold (R455, R456) -/

@[simp] theorem goSafe_time (f : Bool) (s : State) : (goSafe f s).time = s.time := by simp [goSafe]

theorem goSafe_sides (f : Bool) (s : State) : ∃ g, (goSafe f s).sides = (stopTest { s with glb := g }).sides :=
  ⟨_, by simp [goSafe]; rfl⟩

/-- Entering Safe-Hold moves the mode's fields, and adds the HOLD_N cause to those that stand. -/
theorem goSafe_glb (f : Bool) (s : State) : ∃ p n c a k, (goSafe f s).glb = { s.glb with
    prev := p, mode := n, castleMode := c, acqFrom := a, holdReq := false, safeCause := s.glb.safeCause ||| k } := by
  obtain ⟨p, n, c, a, h⟩ := toMode_glb 11 f (raise 3 (stopTest { s with glb := { s.glb with
    safeCause := if s.glb.holdN then s.glb.safeCause else s.glb.safeCause ||| 1, holdReq := false } }))
  refine ⟨p, n, c, a, if s.glb.holdN then 0 else 1, ?_⟩
  simp only [goSafe, safeFields_glb, safePorts_glb, h, raise_glb, stopTest_glb]
  split <;> simp

theorem goSafe_keeps_bit {b : BitVec 256} {s : State} (f : Bool) (h : s.evt.fw &&& b ≠ 0) : (goSafe f s).evt.fw &&& b ≠ 0 := by
  simp only [goSafe, safeFields_evt, safePorts_evt]
  exact toMode_keeps_bit 11 f (raise_keeps_bit 3 (by rwa [stopTest_evt]))

/-- A cause of Safe-Hold is noted, with the alarm of a fault. -/
def causeNoted (cause : Nat) (fault : Bool) (s : State) : State :=
  let t := { s with glb := { s.glb with safeCause := s.glb.safeCause ||| BitVec.ofNat 5 (2 ^ cause) } }
  if fault then setAlarm 3 t else t

theorem enterSafe_eq (cause : Nat) (fault : Bool) (s : State) : enterSafe cause fault s =
    if 3 ≤ (causeNoted cause fault s).glb.mode then goSafe fault (causeNoted cause fault s) else causeNoted cause fault s := rfl

@[simp] theorem causeNoted_time (cause : Nat) (fault : Bool) (s : State) : (causeNoted cause fault s).time = s.time := by
  unfold causeNoted; dsimp only; split <;> rfl
@[simp] theorem causeNoted_evt (cause : Nat) (fault : Bool) (s : State) : (causeNoted cause fault s).evt = s.evt := by
  unfold causeNoted; dsimp only; split <;> rfl
@[simp] theorem causeNoted_sides (cause : Nat) (fault : Bool) (s : State) : (causeNoted cause fault s).sides = s.sides := by
  unfold causeNoted; dsimp only; split <;> rfl

theorem causeNoted_glb (cause : Nat) (fault : Bool) (s : State) : ∃ x, (causeNoted cause fault s).glb =
    { s.glb with safeCause := s.glb.safeCause ||| BitVec.ofNat 5 (2 ^ cause), alarm := s.glb.alarm ||| x } := by
  cases fault
  · exact ⟨0, by simp [causeNoted]⟩
  · exact ⟨_, rfl⟩

@[simp] theorem enterSafe_time (cause : Nat) (fault : Bool) (s : State) : (enterSafe cause fault s).time = s.time := by
  rw [enterSafe_eq]; split <;> simp

/-- The cause stands beside those of before, no alarm goes, and of the rest the mode's fields alone move: every clock keeps its lock. -/
theorem enterSafe_glb (cause : Nat) (fault : Bool) (s : State) : ∃ p n c a q k x, (enterSafe cause fault s).glb =
    { s.glb with prev := p, mode := n, castleMode := c, acqFrom := a, holdReq := q
                 safeCause := s.glb.safeCause ||| BitVec.ofNat 5 (2 ^ cause) ||| k, alarm := s.glb.alarm ||| x } := by
  obtain ⟨x, hx⟩ := causeNoted_glb cause fault s
  rw [enterSafe_eq]
  split
  · obtain ⟨p, n, c, a, k, h⟩ := goSafe_glb fault (causeNoted cause fault s)
    exact ⟨p, n, c, a, false, k, x, by rw [h, hx]⟩
  · exact ⟨s.glb.prev, s.glb.mode, s.glb.castleMode, s.glb.acqFrom, s.glb.holdReq, 0, x, by simp [hx]⟩

theorem enterSafe_keeps_bit {b : BitVec 256} {s : State} (cause : Nat) (fault : Bool) (h : s.evt.fw &&& b ≠ 0) :
    (enterSafe cause fault s).evt.fw &&& b ≠ 0 := by
  have hnoted : (causeNoted cause fault s).evt.fw &&& b ≠ 0 := by rwa [causeNoted_evt]
  rw [enterSafe_eq]
  split
  · exact goSafe_keeps_bit fault hnoted
  · exact hnoted

/-- Entering Safe-Hold leaves a side's pulse, where a side in self-test has none left to stop. -/
theorem enterSafe_alive {d : SideId} {s : State} (cause : Nat) (fault : Bool)
    (h : (sideOf s d).state = 6 → (sideOf s d).alive = false) :
    (sideOf (enterSafe cause fault s) d).alive = (sideOf s d).alive := by
  have hnoted : sideOf (causeNoted cause fault s) d = sideOf s d := sideOf_congr (causeNoted_sides cause fault s) d
  rw [enterSafe_eq]
  split
  · obtain ⟨g, hg⟩ := goSafe_sides fault (causeNoted cause fault s)
    have hstart : sideOf { causeNoted cause fault s with glb := g } d = sideOf s d := hnoted
    rw [sideOf_congr hg, stopTest_alive (by rwa [hstart]), hstart]
  · rw [hnoted]

end Sys2Proof.Machine
end

section
/-!
The time base (R85 to R104): the three copies and their vote, what a tick and a step move, the PPS rows and the saved times.
-/

namespace Sys2Proof.Machine

/-! ### The vote (R86) -/

theorem vote_agree (v : BitVec 96) : vote v v v = some (v, false) := by simp [vote]

theorem vote_a_differs {a v : BitVec 96} (h : a ≠ v) : vote a v v = some (v, true) := by simp [vote, h]

theorem vote_b_differs {b v : BitVec 96} (h : b ≠ v) : vote v b v = some (v, true) := by simp [vote, h.symm]

theorem vote_c_differs {c v : BitVec 96} (h : c ≠ v) : vote v v c = some (v, true) := by simp [vote, h.symm]

theorem vote_none {a b c : BitVec 96} (hab : a ≠ b) (hac : a ≠ c) (hbc : b ≠ c) : vote a b c = none := by
  simp [vote, hab, hac, hbc]

/-! ### One tick (R85, R89) -/

/-- Operating time alone may move beside a tick's own changes. -/
theorem opTick_eq (s : State) : ∃ n, opTick s = { s with time := { s.time with optime := n } } := by
  unfold opTick
  split
  · exact ⟨_, rfl⟩
  · exact ⟨s.time.optime, rfl⟩

/-- The time base after a tick's advance of the copies `a`, `b` and `c`; `due` says that a whole second was
reached, `fail` that a vote has once found no majority. -/
def advanced (a b c : BitVec 96) (due fail : Bool) (t : Time) : Time :=
  let inc := BitVec.ofNat 96 (tickAdvance t).1
  { t with copyA := a + inc, copyB := b + inc, copyC := c + inc, elapsed := t.elapsed + inc, residue := (tickAdvance t).2
           tick := t.tick + 1, ppsDue := due, tmrFail := fail }

/-- The state after that advance, a whole ms of it counted. -/
def ticked (a b c : BitVec 96) (due fail : Bool) (s : State) : State :=
  opTick { s with time := advanced a b c due fail s.time }

/-- A tick moves the time base alone, and of it nothing but its advance and operating time. -/
theorem ticked_eq (a b c : BitVec 96) (due fail : Bool) (s : State) : ∃ n,
    ticked a b c due fail s = { s with time := { advanced a b c due fail s.time with optime := n } } :=
  opTick_eq _

/-- What a tick moves whatever the vote says (R85): `u` is the time base after a tick from `t`. -/
def Advances (t u : Time) : Prop :=
  u.tick = t.tick + 1 ∧ u.elapsed = t.elapsed + BitVec.ofNat 96 (tickAdvance t).1 ∧ u.residue = (tickAdvance t).2
    ∧ u.epoch = t.epoch ∧ u.adj = t.adj

theorem ticked_advances (a b c : BitVec 96) (due fail : Bool) (s : State) :
    Advances s.time (ticked a b c due fail s).time := by
  obtain ⟨n, hn⟩ := ticked_eq a b c due fail s
  rw [hn]
  exact ⟨rfl, rfl, rfl, rfl, rfl⟩

section
variable {a b c v : BitVec 96} {s : State} (hp : s.glb.porst = true)
include hp

/-- R86: with a majority the three copies go on from it; a differing one is counted and told. -/
theorem exec_timeTick_of_majority {d : Bool} (hv : vote (s.time.copyA ^^^ a) (s.time.copyB ^^^ b) (s.time.copyC ^^^ c) = some (v, d)) :
    exec (.timeTick a b c) s =
      let t := ticked v v v (reaches v (tickAdvance s.time).1) s.time.tmrFail s
      .next (if d then raise evTmrFix (count .timeTmrCnt [] 0 1 t) else t) := by
  simp only [exec, execTimeTick, hp, hv]
  rfl

/-- R86: with no two equal each copy goes on by itself; the first time the alarm and the event tell it, and Safe-Hold follows. -/
theorem exec_timeTick_of_no_majority (hv : vote (s.time.copyA ^^^ a) (s.time.copyB ^^^ b) (s.time.copyC ^^^ c) = none) :
    exec (.timeTick a b c) s =
      let t := ticked (s.time.copyA ^^^ a) (s.time.copyB ^^^ b) (s.time.copyC ^^^ c) false true s
      .next (if s.time.tmrFail then t else enterSafe 3 true (setAlarm 1 (raise evTmrFail t))) := by
  simp only [exec, execTimeTick, hp, hv]
  rfl

/-- From every state and under every upset, network time's tick, elapsed time and remainder go on as R85 has it. -/
theorem exec_timeTick_advances (a b c : BitVec 96) : ∃ t, exec (.timeTick a b c) s = .next t ∧ Advances s.time t.time := by
  cases hv : vote (s.time.copyA ^^^ a) (s.time.copyB ^^^ b) (s.time.copyC ^^^ c) with
  | some r =>
    refine ⟨_, exec_timeTick_of_majority hp hv, ?_⟩
    split
    · rw [raise_time, count_time]; exact ticked_advances ..
    · exact ticked_advances ..
  | none =>
    refine ⟨_, exec_timeTick_of_no_majority hp hv, ?_⟩
    split
    · exact ticked_advances ..
    · rw [enterSafe_time, setAlarm_time, raise_time]; exact ticked_advances ..

/-- A copy that the vote replaces: all three go on from the majority, and TIME_TMR_FIX tells it. -/
theorem exec_timeTick_fixes (hv : vote (s.time.copyA ^^^ a) (s.time.copyB ^^^ b) (s.time.copyC ^^^ c) = some (v, true)) :
    ∃ t, exec (.timeTick a b c) s = .next t ∧ t.time.copyA = t.time.copyB ∧ t.time.copyA = t.time.copyC
      ∧ t.time.copyA = v + BitVec.ofNat 96 (tickAdvance s.time).1 ∧ t.evt.fw &&& evtBit evTmrFix ≠ 0 := by
  obtain ⟨n, hn⟩ := ticked_eq v v v (reaches v (tickAdvance s.time).1) s.time.tmrFail s
  have hexec := exec_timeTick_of_majority hp hv
  simp only [if_true, hn] at hexec
  exact ⟨_, hexec, by simp [advanced], by simp [advanced], by simp [advanced], raise_sets_bit (by decide) _⟩

/-- The first tick without a majority: the failure is noted, TIME_TMR_FAIL told, and the cause and the alarm stand. -/
theorem exec_timeTick_fails (hf : s.time.tmrFail = false)
    (hv : vote (s.time.copyA ^^^ a) (s.time.copyB ^^^ b) (s.time.copyC ^^^ c) = none) :
    ∃ t, exec (.timeTick a b c) s = .next t ∧ t.time.tmrFail = true ∧ t.glb.safeCause.getLsbD 3 = true
      ∧ t.glb.alarm.getLsbD 1 = true ∧ t.evt.fw &&& evtBit evTmrFail ≠ 0 := by
  have hexec := exec_timeTick_of_no_majority hp hv
  simp only [hf, Bool.false_eq_true, if_false] at hexec
  generalize hx : (ticked (s.time.copyA ^^^ a) (s.time.copyB ^^^ b) (s.time.copyC ^^^ c) false true s) = x at hexec
  have hfail : x.time.tmrFail = true := by
    obtain ⟨n, hn⟩ := ticked_eq (s.time.copyA ^^^ a) (s.time.copyB ^^^ b) (s.time.copyC ^^^ c) false true s
    rw [← hx, hn]; rfl
  obtain ⟨_, _, _, _, _, _, _, hglb⟩ := enterSafe_glb 3 true (setAlarm 1 (raise evTmrFail x))
  refine ⟨_, hexec, by simpa using hfail, ?_, ?_, enterSafe_keeps_bit 3 true (raise_sets_bit (by decide) x)⟩
  · rw [hglb]; simp
  · rw [hglb]; simp [setAlarm]

end

/-- R85: three equal copies advance together. -/
theorem exec_timeTick_of_equal {s : State} (hp : s.glb.porst = true) (hab : s.time.copyA = s.time.copyB)
    (hac : s.time.copyA = s.time.copyC) : exec (.timeTick 0 0 0) s = .next (ticked s.time.copyA s.time.copyA s.time.copyA
      (reaches s.time.copyA (tickAdvance s.time).1) s.time.tmrFail s) := by
  have hv : vote (s.time.copyA ^^^ 0) (s.time.copyB ^^^ 0) (s.time.copyC ^^^ 0) = some (s.time.copyA, false) := by
    simp only [← hab, ← hac, BitVec.ofNat_eq_ofNat, BitVec.xor_zero, vote_agree]
  exact exec_timeTick_of_majority hp hv

theorem exec_timeTick_in_reset {s : State} (hp : s.glb.porst = false) (a b c : BitVec 96) : exec (.timeTick a b c) s = .next s := by
  simp [exec, execTimeTick, hp]

/-- Settles O31: three equal copies advance; any tick's own changes stand whatever the vote says; one differing copy is put right; no
majority fails. -/
theorem timeTickAdvances : Obligations.TimeTickAdvances := by
  unfold Obligations.TimeTickAdvances
  refine ⟨?equal, ?any, ?differs, ?fails, fun a b c s hp => exec_timeTick_in_reset hp a b c⟩
  case equal =>
    rintro s u v hp hab hac rfl rfl
    exact exec_timeTick_of_equal hp hab hac
  case any => exact fun a b c s hp => exec_timeTick_advances hp a b c
  case differs =>
    intro d s hp hab hac hd
    have hne : s.time.copyA ^^^ d ≠ s.time.copyA := by simpa using hd
    refine ⟨exec_timeTick_fixes hp ?_, exec_timeTick_fixes hp ?_, exec_timeTick_fixes hp ?_⟩ <;>
      simp only [← hab, ← hac, BitVec.ofNat_eq_ofNat, BitVec.xor_zero]
    · exact vote_a_differs hne
    · exact vote_b_differs hne
    · exact vote_c_differs hne
  case fails => exact fun a b c s hp hf hab hac hbc => exec_timeTick_fails hp hf (vote_none hab hac hbc)

/-! ### Steps and rates at a whole microsecond (R98 to R104) -/

theorem exec_stepApply_of_due {s : State} (hc : s.sides.castling = none) (ht : s.time.tick % 500 = 0) :
    exec .stepApply s = .next (s.time.rates.foldl (fun s r => applyRate r s) (s.time.steps.foldl (fun s o => applyStep o s)
      { s with time := { s.time with steps := [], rates := [] } })) := by
  simp [exec, execStepApply, hc, ht]

theorem exec_stepApply_waits {s : State} (h : s.sides.castling ≠ none ∨ s.time.tick % 500 ≠ 0) : exec .stepApply s = .next s := by
  rcases h with hc | ht
  · simp [exec, execStepApply, Option.isSome_iff_ne_none.mpr hc]
  · simp [exec, execStepApply, ht]

@[simp] theorem applyStep_que (off : Int) (s : State) : (applyStep off s).que = s.que := by simp [applyStep]
@[simp] theorem applyStep_glb (off : Int) (s : State) : (applyStep off s).glb = s.glb := by simp [applyStep]

/-- R98, R99: one amount for the three copies, one epoch more, and the rest of the time base but the PPS edge that falls due stays. -/
theorem applyStep_time (off : Int) (s : State) : ∃ due, (applyStep off s).time = { s.time with
    copyA := s.time.copyA + BitVec.ofInt 96 (off * 2 ^ 32), copyB := s.time.copyB + BitVec.ofInt 96 (off * 2 ^ 32)
    copyC := s.time.copyC + BitVec.ofInt 96 (off * 2 ^ 32), epoch := s.time.epoch + 1, ppsDue := due } :=
  ⟨_, by simp only [applyStep, timeRecord_time, raise_time]; rfl⟩

/-- R100: of a frame on the wire, a stamp that lies ahead takes the step and the new epoch. -/
theorem applyStep_gate (off : Int) (s : State) : (applyStep off s).gate = s.gate.map (fun g => (g.1, { g.2 with
    wire := g.2.wire.map (restamp { s with time := { s.time with epoch := s.time.epoch + 1 } } off)
    cut := g.2.cut.map (restamp { s with time := { s.time with epoch := s.time.epoch + 1 } } off) })) := by
  simp only [applyStep, timeRecord_gate, raise_gate]
  rfl

theorem applyStep_tells (off : Int) (s : State) : (applyStep off s).evt.fw &&& evtBit evStepDone ≠ 0 := by
  simp only [applyStep, timeRecord_evt]
  exact raise_sets_bit (by decide) _

/-- Settles O33: with one step due, STEP_APPLY is that step. -/
theorem stepMovesAllCopies : Obligations.StepMovesAllCopies := by
  unfold Obligations.StepMovesAllCopies
  intro s off hc ht hs hr
  have hexec := exec_stepApply_of_due hc ht
  rw [hs, hr] at hexec
  obtain ⟨due, htime⟩ := applyStep_time off { s with time := { s.time with steps := [], rates := [] } }
  refine ⟨_, hexec, ?_⟩
  simp only [List.foldl_cons, List.foldl_nil, htime, true_and]
  exact ⟨applyStep_tells off _, applyStep_que off _, applyStep_glb off _, applyStep_gate off _⟩

/-! ### PPS and the saved times (R90, R103, R403) -/

theorem exec_ppsOutPulse_of_due {s : State} (ho : s.time.ppsOut = true) (hd : s.time.ppsDue = true) :
    exec .ppsOutPulse s = .next { s with time := { s.time with
      ppsPulses := s.time.ppsPulses + 1, ppsDue := false, ppsUntil := s.time.tick + s.time.ppsWidth * 500 } } := by
  simp [exec, execPpsOutPulse, ho, hd]

theorem exec_ppsOutPulse_idle {s : State} (h : s.time.ppsOut = false ∨ s.time.ppsDue = false) :
    exec .ppsOutPulse s = .next s := by
  rcases h with h | h <;> simp [exec, execPpsOutPulse, h]

theorem exec_ppsInEdge_of_enabled {s : State} (hi : s.time.ppsIn = true) :
    exec .ppsInEdge s = .next (raise evPpsIn (count .timePpsInEpoch [] 31 1
      { s with time := { s.time with ppsCapture := BitVec.ofNat 64 (netNs s), ppsEpoch := s.time.epoch } })) := by
  simp [exec, execPpsInEdge, hi]

theorem exec_optimeSave_of_due {s : State} (hv : s.recd.volatile = false) (hp : s.glb.porst = true) (hr : s.recd.ready = true)
    (hd : s.time.optimeSaved + 1000 ≤ s.time.optime) :
    exec .optimeSave s = .next { s with time := { s.time with optimeSaved := s.time.optime } } := by
  simp [exec, execOptimeSave, hv, hp, hr, Nat.not_lt.mpr hd]

theorem exec_journalSummaryWrite_of_ready {s : State} (hr : s.recd.ready = true) :
    exec .journalSummaryWrite s = .next (writeSummary (flushStands s) s) := by
  simp [exec, execJournalSummaryWrite, hr]

/-- Settles O32: the tick of equal copies moves the time base alone; the other rows by their guards. -/
theorem stepAndPpsComplete : Obligations.StepAndPpsComplete := by
  unfold Obligations.StepAndPpsComplete
  refine ⟨?tick, fun s hc ht => exec_stepApply_of_due hc ht, fun s h => exec_stepApply_waits h,
    fun s ho hd => exec_ppsOutPulse_of_due ho hd, fun s h => exec_ppsOutPulse_idle h, fun s hi => exec_ppsInEdge_of_enabled hi,
    fun s hv hp hr hd => exec_optimeSave_of_due hv hp hr hd, fun s hr => exec_journalSummaryWrite_of_ready hr⟩
  case tick =>
    intro s n r hp hab hac hadv
    obtain ⟨o, ho⟩ := ticked_eq s.time.copyA s.time.copyA s.time.copyA (reaches s.time.copyA (tickAdvance s.time).1)
      s.time.tmrFail s
    refine ⟨_, exec_timeTick_of_equal hp hab hac, ?_⟩
    rw [ho]
    simp [advanced, hadv]

end Sys2Proof.Machine
end

section
/-!
gPTP and the references (R88, R91 to R96, R110, R113, R511 to R515): each row under the guards it has, then what the loss of both
references stops.
-/

namespace Sys2Proof.Machine

/-! ### Sync and the slots (R91 to R96) -/

theorem takeSync_of_slave {f : SyncFacts} {s : State} (hr : (slotOf s f.slot.val).role ≠ 0)
    (hs : hasSlave (settleSlot f.slot.val (syncInterval f.slot.val s)) f.slot.val = true) :
    takeSync f s =
      let u := settleSlot f.slot.val (syncInterval f.slot.val s)
      let x := measured u (slotOf u f.slot.val) f.offset f.rate
      servo f.slot.val f.offset f.adj
        (settlePtp (putSlot u f.slot.val { x with regain := x.regain || losing f.slot.val f.offset u })) := by
  simp [takeSync, hr, hs]

theorem exec_syncRx_of_consuming {s : State} (hc : consuming s = true) (f : SyncFacts) :
    exec (.syncRx f) s = .next (takeSync f s) := by
  simp [exec, execSyncRx, hc]

/-- R113: while no side consumes, a received message waits with the time of its reception. -/
theorem keepPtp_of_held {s : State} (hn : nobodyHolds s = false) (x : PtpIn) :
    keepPtp x s = { s with ptp := { s.ptp with rxWait := s.ptp.rxWait ++ [(x, stampNow s)] } } := by
  simp [keepPtp, hn]

theorem exec_syncRx_kept {s : State} (hc : consuming s = false) (f : SyncFacts) :
    exec (.syncRx f) s = .next (keepPtp (.sync f) s) := by
  simp [exec, execSyncRx, hc]

theorem exec_syncReceiptTimeout_of_due {k : Fin 2} {s : State} (hc : consuming s = true)
    (hst : (slotOf s k.val).state = 1 ∨ (slotOf s k.val).state = 2)
    (hd : (slotOf s k.val).heard + receiptNs s k.val ≤ elapsed s) :
    exec (.syncReceiptTimeout k) s
      = .next (settlePtp (syncInterval k.val (putSlot s k.val { slotOf s k.val with state := 3, good := 0 }))) := by
  simp [exec, execSyncReceiptTimeout, hc, hst, hd]

theorem exec_slewEnd_of_consuming {s : State} (hc : consuming s = true) : exec .slewEnd s = .next (dropSlew s) := by
  simp [exec, execSlewEnd, hc]

theorem dropSlew_of_slewing {s : State} (h : s.ptp.slewing = true) :
    dropSlew s = decideRate s.ptp.base { s with ptp := { s.ptp with slewing := false, slewOff := 0 } } := by
  simp [dropSlew, h]

theorem dropSlew_of_steady {s : State} (h : s.ptp.slewing = false) : dropSlew s = s := by
  simp [dropSlew, h]

theorem exec_prefSlotReturn_of_due {s : State} (hc : consuming s = true) (hk : s.ptp.sel.val ≠ prefSlot s)
    (hl : slotLocked (slotOf s (prefSlot s)) = true) (hd : (slotOf s (prefSlot s)).lockedAt + 1000000000 ≤ elapsed s) :
    exec .prefSlotReturn s = .next (acquired (domainSwitch (prefSlot s) s)) := by
  simp [exec, execPrefSlotReturn, hc, hk, hl, hd]

/-! ### Sent messages and the link delay (R23, R91) -/

theorem byGate_of_open {d : SideId} {s : State} (h : mayWrite d s = true) (f : State → State) : byGate d f s = f s := by
  simp [byGate, h]

theorem byGate_of_shut {d : SideId} {s : State} (h : mayWrite d s = false) (f : State → State) : byGate d f s = gatedWrite d s := by
  simp [byGate, h]

theorem exec_syncTransmit_of_due {d : SideId} {k : Fin 2} {s : State} (hw : mayWrite d s = true) (hc : consuming s = true)
    (hr : (slotOf s k.val).role ≠ 0) (hi : intervalPast (syncNs s k.val) (slotOf s k.val).sentAt s = true) (n : BitVec 16) :
    exec (.syncTransmit k n d) s = .next (sendPtp 0 k.val n.toNat 1
      (settlePtp (syncInterval k.val (putSlot s k.val { slotOf s k.val with sentAt := some (elapsed s) })))) := by
  simp [exec, execSyncTransmit, byGate_of_open hw, hc, hr, hi]

theorem exec_pdelayReqTransmit_of_due {d : SideId} {k : Fin 2} {p : Port} {s : State} (hw : mayWrite d s = true)
    (hc : consuming s = true) (hr : (slotOf s k.val).role ≠ 0) (hst : ptpPortState s p.val k.val ≠ 0)
    (hi : intervalPast (pdelayNs s k.val) (delayOf s p.val k.val).sentAt s = true) (n : BitVec 16) :
    exec (.pdelayReqTransmit k p n d) s = .next (stagePtp p.val 2 k.val n.toNat none
      (putDelay s p.val k.val { delayOf s p.val k.val with sentAt := some (elapsed s) })) := by
  simp [exec, execPdelayReqTransmit, byGate_of_open hw, hc, hr, hst, hi]

theorem exec_syncTransmit_gated {d : SideId} {s : State} (hw : mayWrite d s = false) (k : Fin 2) (n : BitVec 16) :
    exec (.syncTransmit k n d) s = .next (gatedWrite d s) :=
  congrArg Host.Outcome.next (byGate_of_shut hw _)

theorem exec_pdelayReqTransmit_gated {d : SideId} {s : State} (hw : mayWrite d s = false) (k : Fin 2) (p : Port) (n : BitVec 16) :
    exec (.pdelayReqTransmit k p n d) s = .next (gatedWrite d s) :=
  congrArg Host.Outcome.next (byGate_of_shut hw _)

theorem exec_pdelayRx_of_consuming {s : State} (hc : consuming s = true) (m : PtpMsg) :
    exec (.pdelayRx m) s = .next (takePdelay m (rxStamp s m.port.val) s) := by
  simp [exec, execPdelayRx, hc]

theorem exec_pdelayRx_kept {s : State} (hc : consuming s = false) (m : PtpMsg) :
    exec (.pdelayRx m) s = .next (keepPtp (.pdelay m (rxStamp s m.port.val)) s) := by
  simp [exec, execPdelayRx, hc]

section
variable {m : PtpMsg} {s : State} (hr : (slotOf s m.slot.val).role ≠ 0) (hst : ptpPortState s m.port.val m.slot.val ≠ 0)
include hr hst

theorem takePdelay_request (hm : m.messageType = 2) (ts : Ts) :
    takePdelay m ts s = stagePtp m.port.val 3 m.slot.val m.sequenceId.toNat (some ts) s := by
  simp [takePdelay, hr, hst, hm]

theorem takePdelay_response (hm : m.messageType = 3 ∨ m.messageType = 10) (ts : Ts) : takePdelay m ts s = takeResponse m ts s := by
  rcases hm with hm | hm <;> simp [takePdelay, hr, hst, hm]

end

/-! ### The 1 ms tick (R311, R390) -/

theorem exec_msTimeEvent_of_powered {s : State} (hp : s.glb.porst = true) : exec .msTimeEvent s
    = .next (if consuming (timeRecord .ms s) then settleDuePtp (frerCheck (timeRecord .ms s)) else timeRecord .ms s) := by
  simp only [exec, execMsTimeEvent, hp]
  rfl

/-! ### The references (R88, R511 to R515) -/

@[simp] theorem putRef_porst (r : Nat) (here qual : Bool) (s : State) : (putRef r here qual s).glb.porst = s.glb.porst := by
  unfold putRef; split <;> rfl

@[simp] theorem putRef_relHeld (r : Nat) (here qual : Bool) (s : State) : (putRef r here qual s).glb.relHeld = s.glb.relHeld := by
  unfold putRef; split <;> rfl

theorem exec_refLost_switches {r : Fin 2} {s : State} (hp : s.glb.porst = true) (hm : mustSwitch (putRef r.val false false s) = true) :
    exec (.refLost r) s = .next (switchRef (putRef r.val false false s)) := by
  simp [exec, execRefLost, hp, hm]

theorem exec_refLost_stays {r : Fin 2} {s : State} (hm : mustSwitch (putRef r.val false false s) = false) :
    exec (.refLost r) s = .next (putRef r.val false false s) := by
  simp [exec, execRefLost, hm]

/-- REFCLK0 serves again under GLB_CLK_CFG.REVERT while REFCLK1 is in use (R512). -/
def reverts (r : Fin 2) (qual : Bool) (s : State) : Bool :=
  qual && r = 0 && s.glb.refSel && regFld s .glbClkCfg [] 0 1 = 1

/-- With no release of PORST_N waiting, a reference that comes brings back the locks after the switch that it may make. -/
theorem exec_refQualified_of_powered {r : Fin 2} {qual : Bool} {s : State} (hp : s.glb.porst = true) (hh : s.glb.relHeld = false) :
    exec (.refQualified r qual) s =
      let u := putRef r.val true qual s
      .next (regainLocks (if mustSwitch u || reverts r qual u then switchRef u else u)) := by
  simp only [exec, execRefQualified, putRef_relHeld, putRef_porst, hp, hh]
  rfl

theorem exec_refQualified_releases {r : Fin 2} {qual : Bool} {s : State} (hh : s.glb.relHeld = true) :
    exec (.refQualified r qual) s = .next (releasePorst (putRef r.val true qual s)) := by
  simp [exec, execRefQualified, hh]

/-- A side's pulse stops with its clocks, in the states that have one (R352, R353). -/
def pulseStopped (r : SideRec) : SideRec := if pulses r then { r with alive := false, healthy := false } else r

theorem pulseStopped_alive (r : SideRec) : (pulseStopped r).alive = (r.alive && !pulses r) := by
  unfold pulseStopped
  split
  · next h => simp [h]
  · next h => simp [h]

/-- A side in self-test has a pulse to stop. -/
theorem pulseStopped_of_selftest {r : SideRec} (h : (pulseStopped r).state = 6) : (pulseStopped r).alive = false := by
  have hst : r.state = 6 := by
    rw [← h]; unfold pulseStopped; split <;> rfl
  rw [pulseStopped_alive]
  simp [pulses, hst]

/-- Both references are gone for good: no island clock is locked, and both sides' pulses stop (R513). -/
def clocksStopped (s : State) : State :=
  updSide .black pulseStopped (updSide .white pulseStopped { s with glb := { s.glb with
    noClock := true, lockTime := false, lockField := false, lockBuf := false, lockHost := false
    lockCoreW := false, lockSchW := false, lockCoreB := false, lockSchB := false } })

theorem exec_refHoldExpiry_of_lost {s : State} (h0 : s.glb.ref0 = false) (h1 : s.glb.ref1 = false) (hp : s.glb.porst = true) :
    exec .refHoldExpiry s = .next (rimUnlock (clocksStopped s)) := by
  have hlost : ¬(s.glb.ref0 || s.glb.ref1 || !s.glb.porst) = true := by simp [h0, h1, hp]
  exact congrArg Host.Outcome.next (if_neg hlost)

/-- R47, R455: an unlocked rim clock is a cause of Safe-Hold and of ALARM_N, and leaves every lock as it is. -/
theorem rimUnlock_glb (s : State) : (rimUnlock s).glb.safeCause.getLsbD 4 = true ∧ (rimUnlock s).glb.alarm.getLsbD 0 = true
    ∧ (rimUnlock s).glb.lockTime = s.glb.lockTime ∧ (rimUnlock s).glb.lockHost = s.glb.lockHost := by
  obtain ⟨_, _, _, _, _, _, _, hglb⟩ := enterSafe_glb 4 true (raise evClkRimUnlock (setAlarm 0 s))
  unfold rimUnlock
  rw [hglb]
  simp [setAlarm]

theorem rimUnlock_alive {d : SideId} {s : State} (h : (sideOf s d).state = 6 → (sideOf s d).alive = false) :
    (sideOf (rimUnlock s) d).alive = (sideOf s d).alive := by
  have hs : sideOf (raise evClkRimUnlock (setAlarm 0 s)) d = sideOf s d := sideOf_congr (by simp) d
  exact (enterSafe_alive 4 true (by rwa [hs])).trans (by rw [hs])

/-- R513: the pulse of each side that has one stops, and Safe-Hold's end of a self-test stops none besides. -/
theorem rimUnlock_clocksStopped_alive (d : SideId) (s : State) :
    (sideOf (rimUnlock (clocksStopped s)) d).alive = ((sideOf s d).alive && !pulses (sideOf s d)) := by
  have hside : sideOf (clocksStopped s) d = pulseStopped (sideOf s d) := by cases d <;> rfl
  rw [rimUnlock_alive (by rw [hside]; exact pulseStopped_of_selftest), hside, pulseStopped_alive]

/-! ### The transmit timestamp queue (R110) -/

theorem txtsPop_of_reader {r : Reader} {p : Nat} {s u : State} {e : TxTs} (hr : regFld s .timeTxtsCfg [p] 0 3 = whoOf r)
    (he : popTxts p s = (u, e)) :
    txtsPop r p s = (latchPut r (regAddr .timeTxtsPop3 [p]) e.ref.toNat
      (latchPut r (regAddr .timeTxtsPop2 [p]) (e.epoch.toNat + e.tsf.toNat * 2 ^ 16)
        (latchPut r (regAddr .timeTxtsPop1 [p]) (e.ns.toNat / 2 ^ 32) u)), w32 e.ns.toNat) := by
  simp [txtsPop, hr, he]

theorem txtsPop_of_other {r : Reader} {p : Nat} {s : State} (hr : regFld s .timeTxtsCfg [p] 0 3 ≠ whoOf r) :
    txtsPop r p s = (s, 0) := by
  simp [txtsPop, hr]

theorem exec_txtsPop0Read {r : Reader} {p : Port} {s u : State} {v : W32} (h : txtsPop r p.val s = (u, v)) :
    exec (.txtsPop0Read r p) s = .next (putRead r v u) := by
  simp [exec, execTxtsPop0Read, h]

/-! ### The obligation -/

/-- Settles O34: every row under its guards; the loss of both references stops each pulse once, Safe-Hold's end of a self-test
included. -/
theorem gptpEventsComplete : Obligations.GptpEventsComplete := by
  unfold Obligations.GptpEventsComplete
  refine ⟨?sync, ?syncKept, ?syncTx, ?pdelayTx, ?gated, ?request, ?response, ?pdelayKept, ?timeout, ?slew, ?steady, ?pref, ?ms,
    ?lostSwitch, ?lostStay, ?qualSwitch, ?qualStay, ?release, ?expiry, fun _ _ _ => rfl, ?pop, ?popOther⟩
  case sync =>
    rintro f s u v x hc hr rfl hs rfl rfl
    exact (exec_syncRx_of_consuming hc f).trans (congrArg Host.Outcome.next (takeSync_of_slave hr hs))
  case syncKept =>
    exact fun f s hc hn => (exec_syncRx_kept hc f).trans (congrArg Host.Outcome.next (keepPtp_of_held hn _))
  case syncTx => exact fun d k n s hw hc hr hi => exec_syncTransmit_of_due hw hc hr hi n
  case pdelayTx => exact fun d k p n s hw hc hr hst hi => exec_pdelayReqTransmit_of_due hw hc hr hst hi n
  case gated => exact fun d k p n s hw => ⟨exec_syncTransmit_gated hw k n, exec_pdelayReqTransmit_gated hw k p n⟩
  case request =>
    exact fun m s hc hm hr hst =>
      (exec_pdelayRx_of_consuming hc m).trans (congrArg Host.Outcome.next (takePdelay_request hr hst hm _))
  case response =>
    exact fun m s hc hm hr hst =>
      (exec_pdelayRx_of_consuming hc m).trans (congrArg Host.Outcome.next (takePdelay_response hr hst hm _))
  case pdelayKept =>
    exact fun m s hc hn => (exec_pdelayRx_kept hc m).trans (congrArg Host.Outcome.next (keepPtp_of_held hn _))
  case timeout => exact fun k s hc hst hd => exec_syncReceiptTimeout_of_due hc hst hd
  case slew =>
    exact fun s hc hs => (exec_slewEnd_of_consuming hc).trans (congrArg Host.Outcome.next (dropSlew_of_slewing hs))
  case steady =>
    exact fun s hc hs => (exec_slewEnd_of_consuming hc).trans (congrArg Host.Outcome.next (dropSlew_of_steady hs))
  case pref => exact fun s hc hk hl hd => exec_prefSlotReturn_of_due hc hk hl hd
  case ms => exact fun s hp => exec_msTimeEvent_of_powered hp
  case lostSwitch =>
    rintro r s u hp rfl hm
    exact exec_refLost_switches hp hm
  case lostStay =>
    rintro r s u rfl hm
    exact exec_refLost_stays hm
  case qualSwitch =>
    rintro r qual s u hp hh rfl hm
    have hswitch : (mustSwitch (putRef r.val true qual s) || reverts r qual (putRef r.val true qual s)) = true := by
      simpa [reverts, and_assoc] using hm
    rw [exec_refQualified_of_powered hp hh]
    simp only [hswitch, if_true]
  case qualStay =>
    rintro r qual s u hp hh rfl hm hq
    have hreverts : reverts r qual (putRef r.val true qual s) = false := by
      rcases hq with hq | hq | hq <;> simp [reverts, hq]
    rw [exec_refQualified_of_powered hp hh]
    simp only [hm, hreverts, Bool.or_self, Bool.false_eq_true, if_false]
  case release => exact fun r qual s hh => exec_refQualified_releases hh
  case expiry =>
    intro s h0 h1 hp
    obtain ⟨hcause, halarm, htime, hhost⟩ := rimUnlock_glb (clocksStopped s)
    exact ⟨_, exec_refHoldExpiry_of_lost h0 h1 hp, rimUnlock_clocksStopped_alive .white s, rimUnlock_clocksStopped_alive .black s,
      htime, hhost, hcause, halarm⟩
  case pop => exact fun r p s u e hr he => exec_txtsPop0Read (txtsPop_of_reader hr he)
  case popOther => exact fun r p s hr => exec_txtsPop0Read (txtsPop_of_other hr)

end Sys2Proof.Machine
end

section
/-!
The start of submission entries (R130 to R148, R151, R366, R383, R553). What `startable` says of an SQ, then what a start does: an
entry with no fault runs, one with a fault fails, and one whose fetch faulted completes on any row; each as of the entry's own
time.
-/

namespace Sys2Proof.Machine

/-! ### The entry at the head of an SQ -/

@[simp] theorem asOf_que (e : Taken) (s : State) : (asOf e s).que = s.que := by unfold asOf; split <;> rfl

@[simp] theorem sqOf_asOf (e : Taken) (s : State) (h q : Nat) : sqOf (asOf e s) h q = sqOf s h q := by simp [sqOf]

@[simp] theorem portOf_updOp (t : Nat) (f : Op → Op) (s : State) (p : Nat) : portOf (updOp t f s) p = portOf s p := by
  unfold updOp; split <;> rfl

/-- What may start is the first entry of its SQ. -/
theorem startable_head {s : State} {h q t : Nat} {x : Sq} {e : Taken} (hs : startable s h q t = some (x, e)) :
    sqOf s h q = some x ∧ ∃ es, x.entries = e :: es := by
  unfold startable at hs
  split at hs
  · cases hs
  next y hy =>
    split at hs
    · cases hs
    next d es hes =>
      split at hs
      · cases hs; exact ⟨hy, es, hes⟩
      · cases hs

theorem inlineReady_of_startable {s : State} {h q t : Nat} {x : Sq} {e : Taken} (hs : startable s h q t = some (x, e))
    (hfree : sqeFlen e.bytes ≤ sharedFree s) : inlineReady s x = true := by
  obtain ⟨-, es, hes⟩ := startable_head hs
  simp [inlineReady, hes, hfree]

/-! ### A start and its outcomes -/

section
variable {h : Host} {q : QId} {t : OpTag} {s w : State} {x : Sq} {e : Taken} {mine : List Byte → Bool} {kind : OpKind}
  {extra : State → List Byte → List Finding} {ready : State → Sq → Bool} {run : Nat → Taken → State → State} {ty : Nat}

theorem head_of_startable (hs : startable (asOf e w) h.val q.val t.val = some (x, e)) :
    (sqOf w h.val q.val).bind (fun x => x.entries.head?) = some e := by
  obtain ⟨hx, es, hes⟩ := startable_head hs
  rw [sqOf_asOf] at hx
  simp [hx, hes]

/-- R366, R383: the entry is decided as of its own time. -/
theorem startRow_of_startable (hs : startable (asOf e w) h.val q.val t.val = some (x, e)) :
    startRow h q t mine kind extra ready run w = goOn e w (startNow h q t mine kind extra ready run (asOf e w)) := by
  simp only [startRow, head_of_startable hs]

theorem headNow_of_startable (hs : startable (asOf e w) h.val q.val t.val = some (x, e)) : headNow h q w = asOf e w := by
  simp only [headNow, head_of_startable hs]

/-- R136: the first entry, when it is of the row's type and its conditions hold, fails with its first fault. -/
theorem startNow_fails {f : Finding} (hs : EntryFails h q t s x e (extra s e.bytes) f) (hty : sqeType e.bytes = ty)
    (hd : 0 < ty ∧ ty ≤ 6) (hm : mine e.bytes = true) (hr : ready s x = true) :
    startNow h q t mine kind extra ready run s = failOp t.val f.status (entryTaken h q t s x e kind (extra s e.bytes)) := by
  obtain ⟨hst, hf, hw⟩ := hs
  have hdefined : ¬(sqeType e.bytes = 0 ∨ 6 < sqeType e.bytes) := by omega
  simp only [entryFindings] at hw
  simp [-List.append_assoc, startNow, hst, hf, hdefined, hm, hr, hw, entryTaken]

/-- R137 to R139: the first entry, when it is of the row's type, its conditions hold and no fault applies, is carried out. -/
theorem startNow_runs (hs : EntryStarts h q t s x e (extra s e.bytes)) (hty : sqeType e.bytes = ty) (hd : 0 < ty ∧ ty ≤ 6)
    (hm : mine e.bytes = true) (hr : ready s x = true) :
    startNow h q t mine kind extra ready run s = run t.val e (entryTaken h q t s x e kind (extra s e.bytes)) := by
  obtain ⟨hst, hf, hnone⟩ := hs
  have hdefined : ¬(sqeType e.bytes = 0 ∨ 6 < sqeType e.bytes) := by omega
  have hw := worst_none.mpr hnone
  simp only [entryFindings] at hw
  simp [-List.append_assoc, startNow, hst, hf, hdefined, hm, hr, hw, entryTaken]

/-- The operation of a slot whose fetch faulted: nothing of its bytes is known (R553). -/
def faultedOp (h : Host) (q : QId) (e : Taken) (s : State) : Op :=
  { opFor s h.val q.val { e with bytes := [] } .fence with slot := e.first }

/-- R553: a slot whose fetch faulted completes on any row. -/
theorem startNow_faulted {fe : FetchErr} (hs : startable s h.val q.val t.val = some (x, e)) (hf : e.fault = some fe) :
    startNow h q t mine kind extra ready run s
      = completeOp t.val (if fe = .busError then stBusError else stIntegrity) 0 0 noTs
          (takeTag h.val q.val t.val x x.entries.tail (faultedOp h q e s) s) := by
  cases fe <;> simp [startNow, hs, hf, faultedOp]

theorem startRow_fails {f : Finding} (hs : EntryFails h q t (asOf e w) x e (extra (asOf e w) e.bytes) f)
    (hty : sqeType e.bytes = ty) (hm : mine e.bytes = true) (hr : ready (asOf e w) x = true)
    (hd : 0 < ty ∧ ty ≤ 6 := by decide) :
    startRow h q t mine kind extra ready run w
      = goOn e w (failOp t.val f.status (entryTaken h q t (asOf e w) x e kind (extra (asOf e w) e.bytes))) := by
  rw [startRow_of_startable hs.1, startNow_fails hs hty hd hm hr]

theorem startRow_runs (hs : EntryStarts h q t (asOf e w) x e (extra (asOf e w) e.bytes)) (hty : sqeType e.bytes = ty)
    (hm : mine e.bytes = true) (hr : ready (asOf e w) x = true) (hd : 0 < ty ∧ ty ≤ 6 := by decide) :
    startRow h q t mine kind extra ready run w
      = goOn e w (run t.val e (entryTaken h q t (asOf e w) x e kind (extra (asOf e w) e.bytes))) := by
  rw [startRow_of_startable hs.1, startNow_runs hs hty hd hm hr]

theorem startRow_faulted {fe : FetchErr} (hs : startable (asOf e w) h.val q.val t.val = some (x, e)) (hf : e.fault = some fe) :
    startRow h q t mine kind extra ready run w
      = goOn e w (completeOp t.val (if fe = .busError then stBusError else stIntegrity) 0 0 noTs
          (takeTag h.val q.val t.val x x.entries.tail (faultedOp h q e (asOf e w)) (asOf e w))) := by
  rw [startRow_of_startable hs, startNow_faulted hs hf]

/-! ### AGG_BUILD -/

/-- A fault of the row is none where no fault applies. -/
theorem scatterRefused_of_starts {src : ReadEnd}
    (hs : EntryStarts h q t (asOf e w) x e (scatterFindings h.val src (asOf e w) e.bytes)) (f : Finding) :
    scatterRefused h q t src f w = none := by
  obtain ⟨hst, -, hnone⟩ := hs
  have hown : scatterFindings h.val src (asOf e w) e.bytes = [] := by
    simp only [entryFindings, List.append_eq_nil_iff] at hnone
    exact hnone.1.2
  simp [scatterRefused, headNow_of_startable hst, hst, hown]

/-- AGG_BUILD_SCATTER of a source that was read, where no fault applies: its function takes the bytes that LEN names, as a
scatter or as a direct send (R342, R344). -/
theorem exec_aggBuildScatter_of_starts {l : List Byte} {u : State}
    (hs : EntryStarts h q t (asOf e w) x e (scatterFindings h.val (.data l) (asOf e w) e.bytes)) (hty : sqeType e.bytes = tyAgg)
    (hmode : sqeMode e.bytes = 1) (hready : scatterReady h.val (asOf e w) x = true)
    (hu : u = entryTaken h q t (asOf e w) x e .scatter (scatterFindings h.val (.data l) (asOf e w) e.bytes)) :
    exec (.aggBuildScatter h q t (.data l)) w = .next (goOn e w (if (aggOf u (sqeAggId e.bytes)).kind = 2
      then scatterRun (sqeAggId e.bytes) (l.take (sqeLen e.bytes)) (some t.val) (updOp t.val (fun o => { o with stage := .queued }) u)
      else directSend (sqeAggId e.bytes) t.val (updOp t.val (fun o => { o with
        payload := l.take (sqeLen e.bytes), target := agTarget (aggOf u (sqeAggId e.bytes)).body, flow := sqeAggId e.bytes,
        held := 0 }) u))) := by
  have hheader : headerRefused h q t (.data l) w = none := by simp only [headerRefused, scatterRefused_of_starts hs, Option.map_none]
  subst hu
  simp only [exec, execAggBuildScatter, hheader, sourceFault]
  rw [startRow_runs hs hty (by simp [hty, hmode]) hready]

theorem scatterReady_of_running (hmode : s.glb.mode ≠ 11) (hchan : (chanOf s 3).halted = false) (hlink : hostOk s h.val = true) :
    scatterReady h.val s x = true := by
  simp [scatterReady, readReady, hmode, hchan, hlink]

end

/-! ### The obligations -/

/-- Settles O19: each row is a start of the SQ's first entry; its conditions beyond the entry's turn are those of its type. -/
theorem entryStartsComplete : Obligations.EntryStartsComplete := by
  unfold Obligations.EntryStartsComplete
  refine ⟨?frame, ?post, ?inline, ?stream, ?xfer, ?gather, ?scatter, ?direct, ?fence, ?flush⟩
  case frame =>
    rintro h q t w s x e rfl hs hty hrx
    exact congrArg Host.Outcome.next (startRow_runs hs hty (by simp [hty, hrx]) rfl)
  case post =>
    rintro h q t w s x e u y rfl hs hty hrx rfl hy
    refine congrArg Host.Outcome.next ((startRow_runs hs hty (by simp [isRxPost, hty, hrx]) rfl).trans ?_)
    simp only [hy]
  case inline =>
    rintro h q t w s x e u rfl hs hty hfree rfl
    exact congrArg Host.Outcome.next
      (startRow_runs hs hty (by simp [hty]) (inlineReady_of_startable hs.1 hfree))
  case stream =>
    rintro h q t w s x e l rfl hs hty hlink
    refine congrArg Host.Outcome.next ((startRow_runs hs hty (by simp [hty]) hlink).trans ?_)
    simp only [portOf_updOp]
  case xfer =>
    rintro h q t w s x e rfl hs hty
    exact congrArg Host.Outcome.next (startRow_runs hs hty (by simp [hty]) rfl)
  case gather =>
    rintro h q t w s x e u b rfl hs hty hmode hready rfl rfl
    exact congrArg Host.Outcome.next (startRow_runs hs hty (by simp [hty, hmode]) hready)
  case scatter =>
    rintro h q t w s x e l u rfl hs hty hmode hserves hchan hlink hu hkind
    rw [exec_aggBuildScatter_of_starts hs hty hmode (scatterReady_of_running hserves hchan hlink) hu, if_pos hkind]
  case direct =>
    rintro h q t w s x e l u rfl hs hty hmode hserves hchan hlink hu hkind
    rw [exec_aggBuildScatter_of_starts hs hty hmode (scatterReady_of_running hserves hchan hlink) hu, if_neg hkind]
  case fence =>
    rintro h q t w s x e rfl hs hty hflush hlive
    exact congrArg Host.Outcome.next (startRow_runs hs hty (by simp [hty, hflush]) (by simp [allDone, hlive]))
  case flush =>
    rintro h q t w s x e u y rfl hs hty hflush hposted rfl hy
    refine congrArg Host.Outcome.next
      ((startRow_runs hs hty (by simp [hty, hflush]) (by simpa [allButPosted] using hposted)).trans ?_)
    simp only [hy]

/-- Settles O20: each row finds the first fault of its own type's checks before it carries anything out. -/
theorem faultyEntryCompletes : Obligations.FaultyEntryCompletes := by
  unfold Obligations.FaultyEntryCompletes
  refine ⟨?frame, ?post, ?inline, ?stream, ?xfer⟩
  case frame =>
    rintro h q t w s x e f rfl hs hty hrx
    exact congrArg Host.Outcome.next (startRow_fails hs hty (by simp [hty, hrx]) rfl)
  case post =>
    rintro h q t w s x e f rfl hs hty hrx
    exact congrArg Host.Outcome.next (startRow_fails hs hty (by simp [isRxPost, hty, hrx]) rfl)
  case inline =>
    rintro h q t w s x e f rfl hs hty hfree
    exact congrArg Host.Outcome.next
      (startRow_fails hs hty (by simp [hty]) (inlineReady_of_startable hs.1 hfree))
  case stream =>
    rintro h q t w s x e f r rfl hs hty hlink
    exact congrArg Host.Outcome.next (startRow_fails hs hty (by simp [hty]) hlink)
  case xfer =>
    rintro h q t w s x e f rfl hs hty
    exact congrArg Host.Outcome.next (startRow_fails hs hty (by simp [hty]) rfl)

/-- Settles O21: the fault of the fetch is met before the row's own type is. -/
theorem faultedFetchCompletes : Obligations.FaultedFetchCompletes := by
  unfold Obligations.FaultedFetchCompletes
  rintro h q t w s x e fe rfl hs hf
  exact ⟨_, congrArg Host.Outcome.next (startRow_faulted hs hf), congrArg Host.Outcome.next (startRow_faulted hs hf),
    faultedOp h q e (asOf e w), rfl, rfl, rfl, by simp [faultedOp, opFor, hf]⟩

end Sys2Proof.Machine
end

section
/-!
Doorbells, pushes, releases, the ring fetch, acceptance and the completion queues (R120 to R155, R553): what each row does in
the states of its own path, then the PHASE bit and the bytes that stand on the bus (R122, R147, R59).
-/

namespace Sys2Proof.Machine

/-! ### Doorbells (R124, R125) -/

theorem dist_eq_zero {a b : Idx} : dist a b = 0 ↔ a = b := by
  unfold dist; bv_omega

theorem writeDb_full {s : State} (hfull : s.jrn.full = true) (h q : Nat) (aligned : Bool) (v : W32) :
    writeDb h q aligned v s = s := by
  simp [writeDb, hfull]

theorem writeDb_partial (h q : Nat) (v : W32) (s : State) : writeDb h q false v s = s := by simp [writeDb]

theorem writeDb_absent {s : State} {h q : Nat} (hx : pageOf s h q = none) (aligned : Bool) (v : W32) :
    writeDb h q aligned v s = s := by
  simp [writeDb, hx]

theorem writeDb_same {s : State} {h q : Nat} {x : Sq} {v : W32} (hx : pageOf s h q = some x) (hv : v.setWidth 16 = x.pi) :
    writeDb h q true v s = s := by
  have hok : dbOk x x.pi = true := by simp [dbOk, dist_eq_zero.mpr rfl]
  simp [writeDb, hx, hv, hok]

theorem writeDb_taken {s : State} {h q : Nat} {x : Sq} {v : W32} (hx : pageOf s h q = some x) (hfull : s.jrn.full = false)
    (hok : dbOk x (v.setWidth 16) = true) (hv : v.setWidth 16 ≠ x.pi) :
    writeDb h q true v s
      = record (.doorbell h q (v.setWidth 16).toNat) (putPage s h q { x with pi := v.setWidth 16, stalled := false }) := by
  simp [writeDb, hx, hfull, hok, hv]

theorem writeDb_refused {s : State} {h q : Nat} {x : Sq} {v : W32} (hx : pageOf s h q = some x) (hfull : s.jrn.full = false)
    (hok : dbOk x (v.setWidth 16) = false) :
    writeDb h q true v s = raise (evDbErr h) (count .queHostErr [h] 16 1 s) := by
  simp [writeDb, hx, hfull, hok]

/-- R125, in the sum that has no truncated difference: a new PI is taken when the slots rung with it fit in the ring. -/
theorem dbOk_iff {x : Sq} {v : Idx} (hv : v ≠ x.pi) :
    dbOk x v = true ↔ dist v x.pi + dist x.pi (x.ai + 1) ≤ 2 ^ x.sizeLog2 := by
  have hpos : dist v x.pi ≠ 0 := fun hz => hv (dist_eq_zero.mp hz)
  rw [dbOk, decide_eq_true_iff, sqUsed, ringSize]
  omega

/-- Settles O22. -/
theorem doorbellComplete : Obligations.DoorbellComplete := by
  unfold Obligations.DoorbellComplete
  refine ⟨?taken, ?same, ?refused, ?cut, ?absent, ?full⟩
  case taken =>
    exact fun h q s x v hx hd hv hfull => congrArg Host.Outcome.next (writeDb_taken hx hfull ((dbOk_iff hv).mpr hd) hv)
  case same => exact fun h q s x v hx hv => congrArg Host.Outcome.next (writeDb_same hx hv)
  case refused =>
    intro h q s x v hx hd hv hfull
    have hok : dbOk x (v.setWidth 16) = false := by
      rw [← Bool.not_eq_true, dbOk_iff hv]; omega
    exact ⟨_, congrArg Host.Outcome.next (writeDb_refused hx hfull hok), rfl, by simp⟩
  case cut => exact fun h q s v => congrArg Host.Outcome.next (writeDb_partial h.val q.val v s)
  case absent => exact fun h q s b v hx => congrArg Host.Outcome.next (writeDb_absent hx b v)
  case full => exact fun h q s b v hfull => congrArg Host.Outcome.next (writeDb_full hfull h.val q.val b v)

/-! ### Pushes (R126) -/

section
variable {s : State} {h q : Nat} {x : Sq} {off : Nat} {b : List Byte}

/-- A write from SLOT0 opens a push at PI. -/
theorem writePush_opens (hfull : s.jrn.full = false) (hx : pageOf s h q = some x) (hoff : off = 0) (hpos : 0 < b.length)
    (hlen : b.length ≤ 256) (hslots : b.length % 64 = 0) (hidle : ∀ p, x.push = some p → p.buf = []) :
    writePush h q off b s
      = pushSlots h q (slotsOf (b.length / 64) b) (putPage s h q { x with push := some { base := x.pi } }) := by
  have hsome : b.length / 64 ≠ 0 := by omega
  have hfits : ¬ 4 < b.length / 64 := by omega
  cases hp : x.push with
  | none => simp [writePush, hfull, hx, hoff, hslots, hsome, hfits, hp]
  | some p => simp [writePush, hfull, hx, hoff, hslots, hsome, hfits, hp, hidle p hp]

/-- A write from the slot after the last one written goes on with the push. -/
theorem writePush_continues {p : PushSt} (hfull : s.jrn.full = false) (hx : pageOf s h q = some x) (hp : x.push = some p)
    (hoff : off = 64 * p.next) (hnext : 0 < p.next) (hpos : 0 < b.length) (hslots : b.length % 64 = 0)
    (hfits : p.next + b.length / 64 ≤ 4) : writePush h q off b s = pushSlots h q (slotsOf (b.length / 64) b) s := by
  have hsome : b.length / 64 ≠ 0 := by omega
  have hslot : off / 64 = p.next := by omega
  have halign : off % 64 = 0 := by omega
  simp [writePush, hfull, hx, hp, hslot, halign, hslots, hsome, Nat.not_lt.mpr hfits, Nat.ne_of_gt hnext]

/-- A write that covers part of a slot is a push error (log entry 86). -/
theorem writePush_misaligned (hfull : s.jrn.full = false) (hx : pageOf s h q = some x) (hoff : off % 64 ≠ 0) :
    writePush h q off b s = pushError h q x s := by
  simp [writePush, hfull, hx, hoff]

end

/-! ### Releases (R129) -/

section
variable {s : State} {h q : Nat} {x : Sq} {y : Cq} {v : W32}

theorem boundCq_of_pages (hx : pageOf s h q = some x) (hy : cqPageOf s h x.cqid = some y) : boundCq s h q = some (x.cqid, y) := by
  simp [boundCq, hx, hy]

theorem writeCi_releases (hfull : s.jrn.full = false) (hx : pageOf s h q = some x) (hy : cqPageOf s h x.cqid = some y)
    (hv : dist (v.setWidth 16) y.ci ≤ dist y.wi y.ci) :
    writeCi h q true v s = freeItems h x.cqid (y.slots.take (dist (v.setWidth 16) y.ci))
      (record (.cqCi h x.cqid (v.setWidth 16).toNat) (putCqPage s h x.cqid
        { y with ci := v.setWidth 16, slots := y.slots.drop (dist (v.setWidth 16) y.ci) })) := by
  simp [writeCi, hfull, boundCq_of_pages hx hy, hv]

theorem writeCi_refused (hfull : s.jrn.full = false) (hx : pageOf s h q = some x) (hy : cqPageOf s h x.cqid = some y)
    (hv : dist y.wi y.ci < dist (v.setWidth 16) y.ci) :
    writeCi h q true v s = raise (evCiErr h) (count .queHostCiErr [h] 0 1 s) := by
  simp [writeCi, hfull, boundCq_of_pages hx hy, Nat.not_le.mpr hv]

end

/-! ### The ring fetch (R143, R153, R553) -/

section
variable {h : Host} {q : QId} {s : State} {x : Sq} {t : FetchTurn}

/-- A command packet is fetched alone, and admin turns alternate with the others. -/
theorem exec_ringFetchTurn_admin (hx : sqOf s h.val 0 = some x) (hlink : hostOk s h.val = true)
    (hc : (consuming s || monitor s) = true) (hrung : 1 ≤ dist x.pi x.taken) (hidle : x.turn = none)
    (hpending : adminPending s h.val = true) (hturn : tget false s.que.adminTurn h.val = false) :
    exec (.ringFetchTurn h 0 1) s = .next (noteTurn h.val true (startTurn h.val 0 1 x s)) := by
  rcases (Bool.or_eq_true ..).mp hc with hc | hc <;>
    simp [exec, execRingFetchTurn, hx, hlink, hc, hrung, hidle, hpending, hturn]

/-- The round of a host's I/O SQs stands at the SQ that has taken its turn. -/
theorem exec_ringFetchTurn_io {n k : Nat} (hx : sqOf s h.val q.val = some x) (hq : q.val ≠ 0) (hlink : hostOk s h.val = true)
    (hc : consuming s = true) (hpos : 1 ≤ n) (hrung : n ≤ dist x.pi x.taken) (hburst : n ≤ 5 * x.burst) (hidle : x.turn = none)
    (hnext : nextTurn s h.val = some (k, q.val))
    (hadmin : adminPending s h.val = true → tget false s.que.adminTurn h.val = true) :
    exec (.ringFetchTurn h q n) s = .next { noteTurn h.val false (startTurn h.val q.val n x s) with
      que := { (noteTurn h.val false (startTurn h.val q.val n x s)).que with
        round := tset (noteTurn h.val false (startTurn h.val q.val n x s)).que.round h.val (k * 1024 + q.val) } } := by
  have hfree : (adminPending s h.val && !tget false s.que.adminTurn h.val) = false := by
    cases hp : adminPending s h.val
    · rfl
    · simp [hadmin hp]
  simp [exec, execRingFetchTurn, hx, hq, hlink, hc, hpos, hrung, Nat.not_lt.mpr hburst, hidle, hnext, hfree]

theorem exec_ringFetchComplete_of_turn {b : List Byte} (hx : sqOf s h.val q.val = some x) (ht : x.turn = some t)
    (hlen : b.length = 64 * (if t.got then t.second else t.slots)) :
    exec (.ringFetchComplete h q b) s = .next (takeEntries h.val q.val x t.first
      (parseTurn q.val t.left t.first x.pi (t.buf ++ b)).1 (parseTurn q.val t.left t.first x.pi (t.buf ++ b)).2
      (if t.got || t.second = 0 then none else
        some (afterFirst t (parseTurn q.val t.left t.first x.pi (t.buf ++ b)).1
          (parseTurn q.val t.left t.first x.pi (t.buf ++ b)).2 b)) s) := by
  simp [exec, execRingFetchComplete, hx, ht, hlen]

/-- The first read of a turn, or its one read, faults: its slots become entries, and the second read of two goes on alone. -/
theorem exec_ringFetchFault_first {e : FetchErr} (hx : sqOf s h.val q.val = some x) (ht : x.turn = some t) (hgot : t.got = false)
    (hbuf : t.buf = []) :
    exec (.ringFetchFault h q e) s = .next (putSq (noteFault h.val q.val t.first t.slots s) h.val q.val { x with
      turn := if t.second = 0 then none else some { t with first := t.first + BitVec.ofNat 16 t.slots, slots := t.second, second := 0 }
      entries := x.entries ++ (faultSlots e t.first t.slots).map (takenNow s), taken := t.first + BitVec.ofNat 16 t.slots }) := by
  simp [exec, execRingFetchFault, hx, ht, hgot, hbuf]

/-- The second read of a turn faults: the slots of the entry that it cuts fault with it (log entry 78). -/
theorem exec_ringFetchFault_second {e : FetchErr} (hx : sqOf s h.val q.val = some x) (ht : x.turn = some t) (hgot : t.got = true)
    (hleft : 0 < t.left) :
    exec (.ringFetchFault h q e) s = .next (putSq
      (noteFault h.val q.val (t.first + BitVec.ofNat 16 (t.buf.length / 64)) t.second s) h.val q.val
      { x with turn := none, entries := x.entries ++ (faultSlots e t.first (t.buf.length / 64 + t.second)).map (takenNow s),
               taken := t.first + BitVec.ofNat 16 (t.buf.length / 64) + BitVec.ofNat 16 t.second }) := by
  simp [exec, execRingFetchFault, hx, ht, hgot, Nat.ne_of_gt hleft]

/-- A turn that takes nothing more leaves the slots of its faulted second read to a later one (log entry 78). -/
theorem exec_ringFetchFault_spent {e : FetchErr} (hx : sqOf s h.val q.val = some x) (ht : x.turn = some t) (hgot : t.got = true)
    (hleft : t.left = 0) :
    exec (.ringFetchFault h q e) s = .next (putSq
      (noteFault h.val q.val (t.first + BitVec.ofNat 16 (t.buf.length / 64)) t.second s) h.val q.val { x with turn := none }) := by
  simp [exec, execRingFetchFault, hx, ht, hgot, hleft]

end

/-! ### Acceptance (R140, R141) -/

section
variable {h : Host} {s : State} {x : Sq} {e : Taken} {es : List Taken}

theorem exec_entryAccept_io {q : QId} (hacks : acksHold s q.val = true) (hx : sqOf s h.val q.val = some x) (hq : q.val ≠ 0)
    (he : acceptFirst (netNs s) x.entries = some (e, es)) (hlane : e.lane = none) :
    exec (.entryAccept h q) s
      = .next (putSq s h.val q.val { x with ai := e.first + BitVec.ofNat 16 (e.nslots - 1), entries := es }) := by
  simp [exec, execEntryAccept, hacks, hx, hq, he, hlane]

theorem exec_entryAccept_admin {t : State} (hacks : acksHold s 0 = true) (hx : sqOf s h.val 0 = some x)
    (he : acceptFirst (netNs s) x.entries = some (e, es)) (hf : e.fault = none)
    (ht : t = putSq s h.val 0 { x with ai := e.first + BitVec.ofNat 16 (e.nslots - 1), entries := x.entries.tail }) :
    exec (.entryAccept h 0) s
      = .next { t with cmd := { t.cmd with waiting := t.cmd.waiting ++ [(h.val, packetOf e.bytes, e.stamp)] } } := by
  subst ht
  simp [exec, execEntryAccept, hacks, hx, he, hf]

end

/-! ### Completion queues (R147 to R153) -/

section
variable {h : Host} {c : QId} {s : State} {b : SideId}

theorem exec_cqeWrite_of_due {d : DueCqe} {rest : List DueCqe} (hw : mayWrite b s = true) (hr : mayReport s h.val = true)
    (hd : takeFirst (fun d : DueCqe => d.host == h.val && d.cq == c.val) s.jrn.dueCqe = some (d, rest))
    (hc : committed s d.move = true) :
    exec (.cqeWrite h c b) s = .next (writeItem h.val c.val { body := .cqe d.cqe, tag := some d.tag, noIrq := d.noIrq }
      { s with jrn := { s.jrn with dueCqe := rest } }) := by
  simp [exec, execCqeWrite, hw, hr, hd, hc]

theorem exec_cqOverflowMove_of_room {x : Cq} {i : CqItem} {r : List CqItem} (hx : cqOf s h.val c.val = some x)
    (ho : x.ovf = i :: r) (hw : mayWrite b s = true) (hr : mayReport s h.val = true) (hroom : ringFull x = false)
    (hchan : (chanOf s 1).halted = false) :
    exec (.cqOverflowMove h c b) s = .next (if c.val = 0
      then settleAq h.val (pchDone 1 32 (writeSlot h.val c.val { x with ovf := r } i s))
      else pchDone 1 32 (writeSlot h.val c.val { x with ovf := r } i s)) := by
  simp [exec, execCqOverflowMove, hw, hx, ho, hr, hroom, hchan]

theorem exec_cqeWrite_gated (hw : mayWrite b s = false) : exec (.cqeWrite h c b) s = .next (gatedWrite b s) := by
  simp [exec, execCqeWrite, hw]

theorem exec_cqOverflowMove_gated (hw : mayWrite b s = false) : exec (.cqOverflowMove h c b) s = .next (gatedWrite b s) := by
  simp [exec, execCqOverflowMove, hw]

end

/-- Settles O23: each row on its own paths. -/
theorem ringEventsComplete : Obligations.RingEventsComplete := by
  unfold Obligations.RingEventsComplete
  refine ⟨?opens, ?continues, ?misaligned, ?releases, ?ciRefused, ?adminTurn, ?ioTurn, ?last, ?firstOfTwo, ?faultOnly, ?faultFirst,
    ?faultSecond, ?faultSpent, ?accept, ?acceptAdmin, ?cqe, ?move, ?moveAdmin, ?gated⟩
  case opens =>
    exact fun h q s x off b hfull hx hlt hoff hpos hlen hslots hidle =>
      congrArg Host.Outcome.next (writePush_opens hfull hx (by omega) hpos hlen hslots hidle)
  case continues =>
    exact fun h q s x p off b hfull hx hp hoff hnext hpos hslots hfits =>
      congrArg Host.Outcome.next (writePush_continues hfull hx hp hoff hnext hpos hslots hfits)
  case misaligned => exact fun h q s x off b hfull hx hoff => congrArg Host.Outcome.next (writePush_misaligned hfull hx hoff)
  case releases => exact fun h q s x y v hfull hx hy hv => congrArg Host.Outcome.next (writeCi_releases hfull hx hy hv)
  case ciRefused => exact fun h q s x y v hfull hx hy hv => congrArg Host.Outcome.next (writeCi_refused hfull hx hy hv)
  case adminTurn =>
    exact fun h s x hx hlink hc hrung hidle hpending hturn => exec_ringFetchTurn_admin hx hlink hc hrung hidle hpending hturn
  case ioTurn =>
    rintro h q n s x k u hx hq hlink hc hpos hrung hburst hidle hnext hadmin rfl
    exact exec_ringFetchTurn_io hx hq hlink hc hpos hrung hburst hidle hnext hadmin
  case last =>
    rintro h q b s x t r hx ht hlen rfl hlast
    have hdone : (t.got || t.second = 0) = true := by simpa using hlast
    rw [exec_ringFetchComplete_of_turn hx ht hlen, if_pos hdone]
  case firstOfTwo =>
    rintro h q b s x t r hx ht hgot hsecond hlen rfl
    have hmore : ¬(t.got || t.second = 0) = true := by simp [hgot, Nat.ne_of_gt hsecond]
    rw [exec_ringFetchComplete_of_turn hx ht (by simpa [hgot] using hlen), if_neg hmore]
  case faultOnly =>
    intro h q e s x t hx ht hgot hsecond hbuf
    rw [exec_ringFetchFault_first hx ht hgot hbuf, if_pos hsecond]
  case faultFirst =>
    intro h q e s x t hx ht hgot hsecond hbuf
    rw [exec_ringFetchFault_first hx ht hgot hbuf, if_neg (Nat.ne_of_gt hsecond)]
  case faultSecond =>
    rintro h q e s x t k hx ht hgot hleft rfl
    exact exec_ringFetchFault_second hx ht hgot hleft
  case faultSpent => exact fun h q e s x t hx ht hgot hleft => exec_ringFetchFault_spent hx ht hgot hleft
  case accept => exact fun h q s x e es hacks hx hq he hlane => exec_entryAccept_io hacks hx hq he hlane
  case acceptAdmin => exact fun h s x e es t hacks hx he hf ht => exec_entryAccept_admin hacks hx he hf ht
  case cqe => exact fun h c s d rest b hw hr hd hc => exec_cqeWrite_of_due hw hr hd hc
  case move =>
    intro h c s x i r b hx ho hw hr hroom hchan hc
    rw [exec_cqOverflowMove_of_room hx ho hw hr hroom hchan, if_neg hc]
  case moveAdmin =>
    intro h s x i r b hx ho hw hr hroom hchan
    exact exec_cqOverflowMove_of_room (c := 0) hx ho hw hr hroom hchan
  case gated => exact fun h c s b hw => ⟨exec_cqeWrite_gated hw, exec_cqOverflowMove_gated hw⟩

/-! ### PHASE (R122) -/

/-- One round of the ring later PHASE is the other, also where the index wraps. -/
theorem phaseOf_add_ring {n : Nat} (i : Idx) (hn : n ≤ 15) : phaseOf n (i + BitVec.ofNat 16 (2 ^ n)) = 1 - phaseOf n i := by
  have hsize : 2 ^ n % 2 ^ 16 = 2 ^ n := Nat.mod_eq_of_lt (Nat.pow_lt_pow_right (by omega) (by omega))
  have hbit : (i + BitVec.ofNat 16 (2 ^ n)).toNat.testBit n = !i.toNat.testBit n := by
    rw [BitVec.toNat_add, BitVec.toNat_ofNat, hsize, Nat.testBit_mod_two_pow, Nat.add_comm, Nat.testBit_two_pow_add_eq]
    simp [Nat.lt_succ_of_le hn]
  rw [phaseOf, phaseOf, bitN, bitN, hbit]
  cases i.toNat.testBit n <;> rfl

/-- Within a round PHASE stays. -/
theorem phaseOf_add_one {n : Nat} {i : Idx} (hn : n ≤ 15) (hlast : i.toNat % 2 ^ n ≠ 2 ^ n - 1) :
    phaseOf n (i + 1) = phaseOf n i := by
  have hlt : i.toNat % 2 ^ n < 2 ^ n := Nat.mod_lt _ (Nat.two_pow_pos n)
  have hdiv : ¬ 2 ^ n ∣ i.toNat + 1 := fun hd => by
    have hone : 1 % 2 ^ n = 1 := Nat.mod_eq_of_lt (by omega)
    have hnext : (i.toNat + 1) % 2 ^ n = i.toNat % 2 ^ n + 1 % 2 ^ n := Nat.add_mod_of_add_mod_lt (by omega)
    have hzero := Nat.mod_eq_zero_of_dvd hd
    omega
  have hbit : (i + 1).toNat.testBit n = i.toNat.testBit n := by
    rw [BitVec.toNat_add, Nat.testBit_mod_two_pow]
    simp [Nat.lt_succ_of_le hn, Nat.testBit_eq_decide_div_mod_eq, Nat.succ_div_of_not_dvd hdiv]
  rw [phaseOf, phaseOf, bitN, bitN, hbit]

theorem phaseOf_lt_two (n : Nat) (i : Idx) : phaseOf n i < 2 := by unfold phaseOf; split <;> decide

@[simp] theorem leBytes_length (n k : Nat) : (leBytes n k).length = k := by
  induction k generalizing n with
  | zero => rfl
  | succ k ih => simp [leBytes, ih]

@[simp] theorem cqeBytes_length (c : Cqe) (n : Nat) : (cqeBytes c n).length = 32 := by simp [cqeBytes]

@[simp] theorem statusBytes_length (p : StatusPkt) (n : Nat) : (statusBytes p n).length = 32 := by simp [statusBytes]

/-- PHASE is bit 0 of a CQE's FLAGS (R147). -/
theorem cqeBytes_phase (c : Cqe) (n : Nat) (i : Idx) : byteAt (cqeBytes c (phaseOf n i)) 0x0B % 2 = phaseOf n i := by
  have hflags : byteAt (cqeBytes c (phaseOf n i)) 0x0B = (c.flags.toNat / 2 * 2 + phaseOf n i) % 256 := by
    simp [byteAt, cqeBytes, leBytes]
  have hphase := phaseOf_lt_two n i
  omega

/-- PHASE is a byte of its own in a status packet (R59). -/
theorem statusBytes_phase (p : StatusPkt) (n : Nat) (i : Idx) : byteAt (statusBytes p (phaseOf n i)) 0x07 = phaseOf n i := by
  have hbyte : byteAt (statusBytes p (phaseOf n i)) 0x07 = phaseOf n i % 256 := by
    simp [byteAt, statusBytes, leBytes]
  have hphase := phaseOf_lt_two n i
  omega

/-! ### What stands on the bus -/

theorem msgDue_bus (h v : Nat) (b : Bool) (s : State) : s.bus <+: (msgDue h v b s).1.bus := by
  unfold msgDue
  dsimp only
  split
  · exact ⟨[], List.append_nil _⟩
  · split
    · exact ⟨[], List.append_nil _⟩
    · exact ⟨_, rfl⟩

theorem trigRaw_bus (h v : Nat) (b : Bool) (s : State) : s.bus <+: (trigRaw h v b s).1.bus := by
  unfold trigRaw
  dsimp only
  split
  · exact msgDue_bus h v b s
  · split
    · refine List.IsPrefix.trans ?_ (msgDue_bus ..)
      rw [putVec_bus]
    · exact ⟨[], List.append_nil _⟩

theorem trigHosts_bus (src : Nat) (l : List Nat) (s : State) : s.bus <+: (trigHosts src l s).1.bus := by
  induction l generalizing s with
  | nil => exact ⟨[], List.append_nil _⟩
  | cons n ns ih =>
    simp only [trigHosts]
    refine List.IsPrefix.trans ?_ (ih _)
    split
    · exact trigRaw_bus ..
    · exact ⟨[], List.append_nil _⟩

theorem raiseBlocked_bus (s : State) : s.bus <+: (raiseBlocked s).bus := trigHosts_bus 254 (setBits 254 s).2 (setBits 254 s).1

/-- A trigger adds its messages behind what stands on the bus. -/
theorem trigger_bus (h v : Nat) (s : State) : s.bus <+: (trigger h v s).bus := by
  simp only [trigger]
  split
  · exact (trigRaw_bus h v true s).trans (raiseBlocked_bus _)
  · exact trigRaw_bus h v true s

@[simp] theorem noteWritten_bus (i : CqItem) (s : State) : (noteWritten i s).bus = s.bus := by
  unfold noteWritten
  (repeat' split) <;> rfl

/-- A slot's bytes follow what stands on the bus, and its message comes after them (R150). -/
theorem writeSlot_bus (h c : Nat) (x : Cq) (i : CqItem) (s : State) :
    s.bus ++ [.cqe h (cqSlotAddr x x.wi) (itemBytes i.body (phaseOf x.sizeLog2 x.wi)) {}] <+: (writeSlot h c x i s).bus := by
  simp only [writeSlot]
  split
  · refine List.IsPrefix.trans ?_ (trigger_bus ..)
    simp
  · simp

theorem writeItem_of_room {s : State} {h c : Nat} {x : Cq} (hx : cqOf s h c = some x) (hovf : x.ovf = []) (hroom : ringFull x = false)
    (i : CqItem) : writeItem h c i s = writeSlot h c x i s := by
  simp [writeItem, hx, hovf, hroom]

@[simp] theorem dropSq_bus (h q : Nat) (s : State) : (dropSq h q s).bus = s.bus := by unfold dropSq; split <;> rfl

@[simp] theorem dropCq_bus (h c : Nat) (s : State) : (dropCq h c s).bus = s.bus := by unfold dropCq; split <;> rfl

@[simp] theorem settleAq_bus (h : Nat) (s : State) : (settleAq h s).bus = s.bus := by
  simp only [settleAq]
  (repeat' split) <;> simp

/-- An item written into a ring with room stands on the bus, right behind what stood there. -/
theorem writeItem_puts_slot {s : State} {h c : Nat} {x : Cq} (hx : cqOf s h c = some x) (hovf : x.ovf = [])
    (hroom : ringFull x = false) (i : CqItem) :
    ∃ l, (writeItem h c i s).bus = s.bus ++ .cqe h (cqSlotAddr x x.wi) (itemBytes i.body (phaseOf x.sizeLog2 x.wi)) {} :: l := by
  obtain ⟨l, hl⟩ := writeSlot_bus h c x i s
  exact ⟨l, by simp [writeItem_of_room hx hovf hroom i, ← hl]⟩

/-- Settles O55: the CQE and the status packet carry the PHASE of the slot that they are written into, and `phaseOf` turns once a
round. -/
theorem phaseBit : Obligations.PhaseBit := by
  unfold Obligations.PhaseBit
  refine ⟨?cqe, ?status, fun n i hn => phaseOf_add_ring i hn, fun n i hn hlast => phaseOf_add_one hn hlast⟩
  case cqe =>
    intro e h c s x d rest hw hr hd hc hx hovf hroom
    obtain ⟨l, hl⟩ := writeItem_puts_slot (s := { s with jrn := { s.jrn with dueCqe := rest } }) hx hovf hroom
      { body := .cqe d.cqe, tag := some d.tag, noIrq := d.noIrq }
    exact ⟨_, _, l, exec_cqeWrite_of_due hw hr hd hc, hl, cqeBytes_length .., cqeBytes_phase ..⟩
  case status =>
    intro e h s x d rest hlink hd hw hx hovf hroom
    obtain ⟨l, hl⟩ := writeItem_puts_slot (s := { s with cmd := { s.cmd with dueStatus := rest } }) hx hovf hroom
      { body := .status d.pkt, noIrq := d.pkt.noIrq }
    exact ⟨_, _, l, exec_statusPacketWrite hlink hd hw, (settleAq_bus ..).trans hl, statusBytes_length .., statusBytes_phase ..⟩

end Sys2Proof.Machine
end

section
/-!
The DMA rows (R161 to R186, R552): how a pool channel takes its operation, what each other row does in the states of its own
path, and what a stopped pool holds.
-/

namespace Sys2Proof.Machine

/-! ### A pool channel takes an operation (R162, R163, R166, R168) -/

/-- The channel as an operation's chain finds it: a one-descriptor chain, nothing read and nothing written yet. -/
def clearedFor (o : Op) (t : Nat) (x : ChanSt) : ChanSt :=
  { x with host := o.host, tag := t, head := o.addr, nextAddr := o.addr.toNat, nextHost := o.host, descs := [], cur := 0
           offs := [], buf := [], pos := 0, read := none, wrote := [], flushes := [], count := 1, phase := .data }

/-- How an operation starts on its cleared channel: a DMA_XFER with its walk, a receive buffer, FRAME or stream with its copy,
which ends at once on a bad range or with nothing to write. -/
def startedFor (o : Op) (y : ChanSt) : ChanSt :=
  match o.kind with
  | .xfer => { y with kind := .xfer, phase := .walk, count := o.len }
  | .rxBuf =>
    let write := { y with kind := .rxWrite }
    if copyBad o then chanEnd write 3 0 else if rxTotal o = 0 then chanEnd write 0 0 else write
  | _ =>
    let copy := { y with kind := .txCopy }
    if copyBad o then chanEnd copy 3 0 else copy

/-- R162: the operation whose turn it is goes on the free channel, and the prefetch engine has its turns. -/
theorem exec_dmaPoolChannelAssign_of_turn {t : OpTag} {c : Chan} {s : State} {o : Op} (ho : opOf s t.val = some o)
    (hd : dispatching s = true) (hc : 8 ≤ c.val) (hfree : chanBusy (chanOf s c.val) = false) (hwaits : chanWaits s o = true)
    (hturn : chanTurn s o = true) :
    exec (.dmaPoolChannelAssign t c) s = .next (dmaGo (putChan (putOp s t.val { o with stage := .onChan c.val }) c.val
      (startedFor o (clearedFor o t.val (chanOf s c.val))))) := by
  simp only [exec, execDmaPoolChannelAssign, ho, hd, hc, hfree, hwaits, hturn, startedFor]
  cases o.kind <;> rfl

section
variable {o : Op} (y : ChanSt)

theorem startedFor_xfer (hk : o.kind = .xfer) : startedFor o y = { y with kind := .xfer, phase := .walk, count := o.len } := by
  simp [startedFor, hk]

/-- R166: a range past the end of host memory ends the copy before it moves anything. -/
theorem startedFor_bad (hk : o.kind ≠ .xfer) (hbad : copyBad o = true) :
    startedFor o y = chanEnd { y with kind := if o.kind = .rxBuf then .rxWrite else .txCopy } 3 0 := by
  cases hkind : o.kind <;> simp_all [startedFor]

theorem startedFor_rxBuf (hk : o.kind = .rxBuf) (hbad : copyBad o = false) (hsome : rxTotal o ≠ 0) :
    startedFor o y = { y with kind := .rxWrite } := by
  simp [startedFor, hk, hbad, hsome]

theorem startedFor_rxBuf_nothing (hk : o.kind = .rxBuf) (hbad : copyBad o = false) (hnone : rxTotal o = 0) :
    startedFor o y = { chanEnd y 0 0 with kind := .rxWrite } := by
  simp [startedFor, hk, hbad, hnone, chanEnd]

theorem startedFor_transmit (hk : o.kind = .stream ∨ o.kind = .frame) (hbad : copyBad o = false) :
    startedFor o y = { y with kind := .txCopy } := by
  rcases hk with hk | hk <;> simp [startedFor, hk, hbad]

end

/-- Settles O24: one lemma says what the row does, and `startedFor` decides between the kinds. -/
theorem channelAssignComplete : Obligations.ChannelAssignComplete := by
  unfold Obligations.ChannelAssignComplete
  rintro t c s _ o y ho hd hc hfree hwaits hturn hy rfl
  obtain rfl : y = clearedFor o t.val (chanOf s c.val) := hy
  rw [exec_dmaPoolChannelAssign_of_turn ho hd hc hfree hwaits hturn]
  refine ⟨fun hk => ?_, fun hk hbad => ?_, fun hk hbad hsome => ?_, fun hk hbad hnone => ?_, fun hk hbad => ?_⟩
  · rw [startedFor_xfer _ hk]
  · rw [startedFor_bad _ hk hbad]
  · rw [startedFor_rxBuf _ hk hbad hsome]
  · rw [startedFor_rxBuf_nothing _ hk hbad hnone]
  · rw [startedFor_transmit _ hk hbad]

/-! ### The pool's stop (R182) -/

@[simp] theorem putChan_dma_stopped (s : State) (c : Nat) (x : ChanSt) : (putChan s c x).dma.stopped = s.dma.stopped := rfl

/-- The prefetch engine has no turn in a stopped pool. -/
theorem dmaGo_of_stopped {s : State} (hstop : s.dma.stopped = true) : dmaGo s = s := by simp [dmaGo, hstop]

/-- The stop of the pool of `s` holds on in `t`: the queues, the Scoresheets, the bus, the counters, the latched fault and every
channel but `c` stand as they did. -/
structure PoolHeld (c : Nat) (s t : State) : Prop where
  que : t.que = s.que
  jrn : t.jrn = s.jrn
  bus : t.bus = s.bus
  ctrs : t.ctrs = s.ctrs
  stopped : t.dma.stopped = true
  err : t.dma.err = s.dma.err
  chans : ∀ k, k ≠ c → chanOf t k = chanOf s k

theorem PoolHeld.refl {s : State} (hstop : s.dma.stopped = true) (c : Nat) : PoolHeld c s s :=
  ⟨rfl, rfl, rfl, rfl, hstop, rfl, fun _ _ => rfl⟩

theorem PoolHeld.putChan {s : State} (hstop : s.dma.stopped = true) (c : Nat) (x : ChanSt) : PoolHeld c s (putChan s c x) :=
  ⟨rfl, rfl, rfl, rfl, hstop, rfl, fun _ hk => chanOf_putChan_ne s x hk⟩

/-- A further error in a stopped pool marks MULTI and its candidate. -/
theorem PoolHeld.poolError {s : State} (hstop : s.dma.stopped = true) (c code : Nat) (addr : BitVec 64) :
    PoolHeld c s (poolError c code addr s) := by
  have hput := PoolHeld.putChan hstop c { chanOf s c with read := none }
  simp only [Machine.poolError, hstop, if_true]
  cases bufferWrite (chanOf s c) code with
  | true => exact ⟨rfl, rfl, rfl, rfl, hstop, rfl, fun _ _ => rfl⟩
  | false => exact ⟨rfl, rfl, rfl, rfl, hstop, rfl, hput.chans⟩

/-- Data that arrive in a stopped pool are kept on their channel. -/
theorem PoolHeld.arrive {s : State} (hstop : s.dma.stopped = true) (c : Nat) (b : List Byte) : PoolHeld c s (arrive c b s) := by
  cases hr : (chanOf s c).read with
  | none => simpa [Machine.arrive, hr] using PoolHeld.refl hstop c
  | some r => simpa [Machine.arrive, hr, hstop] using PoolHeld.putChan hstop c _

theorem exec_dmaChainEnd_of_stopped (c : Chan) {s : State} (hstop : s.dma.stopped = true) :
    exec (.dmaChainEnd c) s = .next s := by
  simp [exec, execDmaChainEnd, hstop]

theorem exec_dmaReadCompletion_of_stopped (c : Chan) (b : List Byte) {s : State} (hstop : s.dma.stopped = true) :
    ∃ t, exec (.dmaReadCompletion c b) s = .next t ∧ PoolHeld c.val s t := by
  refine ⟨_, rfl, ?_⟩
  split
  · exact PoolHeld.arrive hstop c.val b
  · exact PoolHeld.refl hstop c.val

theorem exec_dmaBarrierFlushComplete_of_stopped (c : Chan) (ok : Bool) {s : State} (hstop : s.dma.stopped = true) :
    ∃ t, exec (.dmaBarrierFlushComplete c ok) s = .next t ∧ PoolHeld c.val s t := by
  refine ⟨_, rfl, ?_⟩
  dsimp only
  split
  · cases ok with
    | true =>
      rw [if_pos rfl, dmaGo_of_stopped (by simpa using hstop)]
      exact PoolHeld.putChan hstop c.val _
    | false => exact PoolHeld.poolError hstop c.val ..
  · exact PoolHeld.refl hstop c.val

/-- Settles O26. -/
theorem poolStopHoldsChannels : Obligations.PoolStopHoldsChannels := by
  unfold Obligations.PoolStopHoldsChannels
  intro c b ok s hstop
  refine ⟨exec_dmaChainEnd_of_stopped c hstop, fun i hi => ?_⟩
  have hheld : ∃ t, exec i s = .next t ∧ PoolHeld c.val s t := by
    rcases hi with rfl | rfl
    · exact exec_dmaReadCompletion_of_stopped c b hstop
    · exact exec_dmaBarrierFlushComplete_of_stopped c ok hstop
  obtain ⟨t, hexec, hque, hjrn, hbus, hctrs, hstopped, herr, hchans⟩ := hheld
  exact ⟨t, hexec, hque, hjrn, hbus, hctrs, hstopped, herr, hchans⟩

/-! ### Data and ends (R163, R168, R171, R179) -/

section
variable {c : Chan} {s : State}

/-- Data that reach a read in a running pool advance it, and the prefetch engine has its turns. -/
theorem arrive_of_running {c : Nat} {q : ReadReq} (b : List Byte) (hread : (chanOf s c).read = some q)
    (hrun : s.dma.stopped = false) :
    arrive c b s = dmaGo (takeRead c (putChan s c { chanOf s c with read := some { q with
      got := q.got ++ (if q.space = 0 then b else List.replicate (rawLen q) 0).take (rawLen q - q.got.length) } })) := by
  simp [arrive, hread, hrun]

theorem exec_dmaReadCompletion_of_pool (b : List Byte) (hd : dispatching s = true) (hc : 8 ≤ c.val)
    (hflush : (chanOf s c.val).phase ≠ .flush) (hstream : streamChan s (chanOf s c.val) = false) :
    exec (.dmaReadCompletion c b) s = .next (arrive c.val b s) := by
  simp [exec, execDmaReadCompletion, hd, hc, hflush, hstream]

theorem exec_dmaChainEnd_of_ended (hd : dispatching s = true) (hrun : s.dma.stopped = false)
    (hbusy : chanBusy (chanOf s c.val) = true) (hc : 8 ≤ c.val) (hended : (chanOf s c.val).phase = .ended) :
    exec (.dmaChainEnd c) s
      = .next (dmaGo (endOp (chanOf s c.val).tag (chanOf s c.val) (freeChan c.val s))) := by
  simp [exec, execDmaChainEnd, hd, hrun, hbusy, hc, hended]

theorem exec_dmaBarrierFlushComplete_ok {q : ReadReq} (hd : dispatching s = true) (hflush : (chanOf s c.val).phase = .flush)
    (hread : (chanOf s c.val).read = some q) :
    exec (.dmaBarrierFlushComplete c true) s = .next (dmaGo (putChan s c.val
      (if (chanOf s c.val).flushes.tail = [] then
        afterDesc { chanOf s c.val with read := none, flushes := (chanOf s c.val).flushes.tail }
      else { chanOf s c.val with read := none, flushes := (chanOf s c.val).flushes.tail }))) := by
  simp [exec, execDmaBarrierFlushComplete, hd, hflush, hread]

/-- R180: a failed flush read is a bus error, latched at the DST of the current descriptor (log entry 107). -/
theorem exec_dmaBarrierFlushComplete_failed {q : ReadReq} (hd : dispatching s = true)
    (hflush : (chanOf s c.val).phase = .flush) (hread : (chanOf s c.val).read = some q) :
    exec (.dmaBarrierFlushComplete c false) s = .next (poolError c.val 7
      (BitVec.ofNat 64 (dDst ((chanOf s c.val).descs.getD (chanOf s c.val).cur 0))) s) := by
  simp [exec, execDmaBarrierFlushComplete, hd, hflush, hread]

/-! ### Bus errors, halts and timeouts (R181 to R185, R552) -/

/-- R182: of two faults in one cycle the pool meets the one whose place is first; the row's own goes first on a tie
(log entry 106). -/
theorem poolErrors_two {c : Nat} {f : PoolFault} (code : Nat) (addr : BitVec 64) (hne : f.chan.val ≠ c) (hpool : 8 ≤ f.chan.val)
    (hfail : canFail (chanOf s f.chan.val) f.err = true) :
    poolErrors c code addr (some f) s = if faultPlace s c code ≤ faultPlace s f.chan.val (busCode f.err) then
        poolError f.chan.val (busCode f.err) f.addr (poolError c code addr s)
      else poolError c code addr (poolError f.chan.val (busCode f.err) f.addr s) := by
  have hsecond : secondFault s c (some f) = some f := by simp [secondFault, hne, hpool, hfail]
  simp [poolErrors, hsecond]

theorem exec_dmaBusErrorPool_of_fault {e : BusErr} (addr : BitVec 64) (also : Option PoolFault) (hd : dispatching s = true)
    (hc : 8 ≤ c.val) (hfail : canFail (chanOf s c.val) e = true) :
    exec (.dmaBusErrorPool c e addr also) s = .next (poolErrors c.val (busCode e) addr also s) := by
  simp [exec, execDmaBusErrorPool, hd, hc, hfail]

/-- R181: the operation of the privileged channel ends, and the channel halts alone. -/
theorem exec_dmaBusErrorPrivileged_of_running (e : BusErr) (addr : BitVec 64) (sp : Fin 4) (h : Host) (hd : dispatching s = true)
    (hc : c.val < 8) (hhalt : (chanOf s c.val).halted = false) :
    exec (.dmaBusErrorPrivileged c e addr sp h) s = .next (pchError c.val (busCode e) (e == .writeErr) addr sp.val
      (if sp.val = 0 then h.val else 0) (endServed c.val (endStatusOf (busCode e)) s)) := by
  simp [exec, execDmaBusErrorPrivileged, hd, hc, hhalt]

theorem exec_pchHaltRelease_of_committed (hhalt : (chanOf s c.val).halted = true)
    (hmove : sideCommit s (chanOf s c.val).haltMove = true) :
    exec (.pchHaltRelease c) s
      = .next (fwNext c.val (moreOn s c.val) (putChan s c.val { chanOf s c.val with halted := false })) := by
  simp [exec, execPchHaltRelease, hhalt, hmove]

/-- R183: the pool aborts its candidates by itself once AUTO_MS have passed. -/
theorem exec_dmaPoolAutoAbort_of_due (hd : dispatching s = true) (hstop : s.dma.stopped = true)
    (hms : regFld s .dmaPoolCfg [] 24 8 ≠ 0) (hdue : s.dma.stopAt + regFld s .dmaPoolCfg [] 24 8 ≤ s.time.optime) :
    exec .dmaPoolAutoAbort s = .next { poolAbort s with dma := { (poolAbort s).dma with auto := true } } := by
  simp [exec, execDmaPoolAutoAbort, hd, hstop, hms, hdue]

theorem exec_dmaCompletionTimeout_of_late {q : ReadReq} (addr : BitVec 64) (also : Option PoolFault) (hd : dispatching s = true)
    (hc : 8 ≤ c.val) (hread : (chanOf s c.val).read = some q) (hhost : q.space = 0)
    (hopen : readDone (chanOf s c.val) = false) (hlate : q.tick + timeoutTicks s q.host ≤ s.time.tick) :
    exec (.dmaCompletionTimeout c addr also) s
      = .next (poolErrors c.val (if (chanOf s c.val).phase = .flush then 7 else 8) addr also s) := by
  simp [exec, execDmaCompletionTimeout, hd, hc, hread, hhost, hopen, hlate]

/-- R186: the withdrawn request ends and reports its residue, and the channel serves the next one. -/
theorem exec_dmaWithdraw_of_request (n : Nat) (hd : dispatching s = true) (hc : c.val < 8)
    (hhalt : (chanOf s c.val).halted = false) (hreq : requestOn s c.val = true) :
    let u := withdrawn c.val (min n (requested s c.val)) (endServed c.val stState s)
    exec (.dmaWithdraw c n) s = .next (fwNext c.val (moreOn u c.val) u) := by
  simp [exec, execDmaWithdraw, hd, hc, hhalt, hreq]

end

/-- Settles O25: each row's guard holds in the states of its own path. -/
theorem dmaEventsComplete : Obligations.DmaEventsComplete := by
  unfold Obligations.DmaEventsComplete
  refine ⟨?hostData, ?localData, ?chainEnd, ?flushed, ?flushFailed, ?poolFault, ?twoFaults, ?privileged, ?release,
    fun _ _ => rfl, fun _ _ => rfl, ?autoAbort, fun _ _ => rfl, ?timeout, ?withdraw⟩
  case hostData =>
    rintro c b s _ q rfl hd hrun hc hread hflush hstream hspace
    rw [exec_dmaReadCompletion_of_pool b hd hc hflush hstream, arrive_of_running b hread hrun, if_pos hspace]
  case localData =>
    rintro c b s _ q rfl hd hrun hc hread hflush hstream hspace
    rw [exec_dmaReadCompletion_of_pool b hd hc hflush hstream, arrive_of_running b hread hrun, if_neg hspace]
  case chainEnd =>
    rintro c s _ rfl hd hrun hbusy hc hended
    exact exec_dmaChainEnd_of_ended hd hrun hbusy hc hended
  case flushed =>
    rintro c s _ _ q rfl hd hflush hread rfl
    exact exec_dmaBarrierFlushComplete_ok hd hflush hread
  case flushFailed =>
    rintro c s _ q rfl hd hflush hread
    exact exec_dmaBarrierFlushComplete_failed hd hflush hread
  case poolFault => exact fun c e addr s hd hc hfail => exec_dmaBusErrorPool_of_fault addr none hd hc hfail
  case twoFaults =>
    intro c e addr f s hd hc hfail hne hpool hfail'
    rw [exec_dmaBusErrorPool_of_fault addr (some f) hd hc hfail, poolErrors_two _ addr (Fin.val_ne_of_ne hne) hpool hfail']
  case privileged =>
    rintro c e addr sp h s _ hd hc hhalt rfl
    exact exec_dmaBusErrorPrivileged_of_running e addr sp h hd hc hhalt
  case release => exact fun c s hhalt hmove => exec_pchHaltRelease_of_committed hhalt hmove
  case autoAbort =>
    rintro s _ hd hstop hms hdue rfl
    exact exec_dmaPoolAutoAbort_of_due hd hstop hms hdue
  case timeout =>
    rintro c addr a s _ q rfl hd hc hread hhost hopen hlate
    exact exec_dmaCompletionTimeout_of_late addr a hd hc hread hhost hopen hlate
  case withdraw =>
    rintro c n s _ hd hc hhalt hreq rfl
    exact exec_dmaWithdraw_of_request n hd hc hhalt hreq

end Sys2Proof.Machine
end

section
/-!
The egress scheduling rows (R190 to R221, R242, R252): what each row stages, charges, expires or measures in the states of its own
path, and that a side that may not write to the rim stages nothing (R23).
-/

namespace Sys2Proof.Machine

/-! ### Picks (R194 to R203, R251) -/

@[simp] theorem eventEl_putFlow (s : State) (f : Nat) (x : FlowQ) : eventEl (putFlow s f x) = eventEl s := rfl

section
variable {d : SideId} {p : Port} {t : Cls} {s : State} {f : Nat} {x : FlowQ} {e : Elem} {es : List Elem}

theorem exec_schedulerPick_gated (hw : mayWrite d s = false) : exec (.schedulerPick p t d) s = .next (gatedWrite d s) := by
  simp [exec, execSchedulerPick, hw]

theorem exec_segmentPick_gated (hw : mayWrite d s = false) : exec (.segmentPick p t d) s = .next (gatedWrite d s) := by
  simp [exec, execSegmentPick, hw]

/-- The head frame of flow `f` as a pick stages it. -/
def pickedFrame (f : Nat) (e : Elem) : Staged :=
  { src := if e.kind = .frame then 0 else 2, tag := e.tag, flow := f, bytes := e.bytes, seq := e.seq, since := e.since }

/-- R197, R202: the picked flow is measured and charged, and its head frame goes to the staging queue. -/
theorem exec_schedulerPick_of_frame (hw : mayWrite d s = true) (hserving : serving s = true) (hticks : ticksDone s = true)
    (hpick : pickOf (countWaiting p.val t.val s) p.val t.val = some (f, x)) (hhead : x.elems = e :: es) (hkind : e.kind ≠ .stream) :
    exec (.schedulerPick p t d) s = .next (dequeue f (stage p.val t.val (pickedFrame f e)
      (charge f p.val t.val (counted x (flowLen e.seq e.bytes)) x.tag (measure f p.val t.val
        (eventEl (countWaiting p.val t.val s) - e.enter) (countWaiting p.val t.val s))))) := by
  simp [exec, execSchedulerPick, hw, hserving, hticks, hpick, hhead, hkind, pickedFrame]

/-- The bytes of a stream's next segment, with a payload of `n` bytes (R251). -/
def nextSegment (o : Op) (n : Nat) : List Byte :=
  segmentBytes o.tpl o.edits (slice o.payload o.sentBytes n) o.seg o.sentBytes (o.sentBytes + n == o.payLen)

/-- The next segment of flow `f`'s stream, of sequence number `sq`, as a pick stages it. -/
def pickedSegment (f tag : Nat) (e : Elem) (o : Op) (n : Nat) (sq : Option Nat) : Staged :=
  { src := 1, tag := some tag, flow := f, bytes := nextSegment o n, seq := sq, since := e.since
    ref := if o.tsReq then some (w32 (tag * 2 ^ 13 + o.seg % 8192)) else none, lastSeg := o.sentBytes + n == o.payLen }

/-- R198: the stream's flow, charged for a segment of counted length `lc` in the state `v` in which the segment has its sequence
number. -/
def segmentCharged (f p t lc start : Nat) (x : FlowQ) (e : Elem) (es : List Elem) (v : State) : State :=
  charge f p t lc (finishTag x start lc) (measure f p t (eventEl v - e.enter)
    (putFlow v f { x with tag := finishTag x start lc, elems := { e with enter := eventEl v } :: es }))

/-- R251, R198: the stream's next segment is staged and charged, and the stream leaves its flow queue with its last one. -/
theorem exec_segmentPick_of_stream {tag n start fin : Nat} {o : Op} (hw : mayWrite d s = true) (hserving : serving s = true)
    (hticks : ticksDone s = true) (hpick : pickOf s p.val t.val = some (f, x)) (hhead : x.elems = e :: es)
    (hkind : e.kind = .stream) (htag : e.tag = some tag) (ho : opOf s tag = some o) (hstart : e.tags = some (start, fin))
    (hlen : segmentLen s f p.val t.val o = some n) :
    exec (.segmentPick p t d) s = .next
      ((if (o.sentBytes + n == o.payLen) = true then dequeue f else becomeHead f false)
        (putOp (stage p.val t.val (pickedSegment f tag e o n (takeSeq f s).2)
          (segmentCharged f p.val t.val (counted x (flowLen (takeSeq f s).2 (nextSegment o n))) start x e es (takeSeq f s).1)) tag
          { o with seg := o.seg + 1, sentBytes := o.sentBytes + n, copies := o.copies + 1 })) := by
  cases hlast : o.sentBytes + n == o.payLen <;>
    simp [exec, execSegmentPick, hw, hserving, hticks, hpick, hhead, hkind, htag, ho, hlen, hstart, hlast, pickedSegment,
      segmentCharged, nextSegment]

end

/-! ### The express lane (R145, R203, R210) -/

section
variable {d : SideId} {h : Host} {q : QId} {t : OpTag} {s : State} {x : Sq} {a b : List Taken} {e : Taken}

theorem exec_expressLaneArrival_gated (hw : mayWrite d s = false) :
    exec (.expressLaneArrival h q t d) s = .next (gatedWrite d s) := by
  simp [exec, execExpressLaneArrival, hw]

/-- R145: an entry whose host or CQ has no room goes the ordinary way. -/
theorem exec_expressLaneArrival_of_no_room (hx : sqOf s h.val q.val = some x) (hfirst : firstNoLane x.entries = some (a, e, b))
    (hw : mayWrite d s = true) (hready : laneReady s t.val x e = true) (hroom : laneRoom s h.val x e = false) :
    exec (.expressLaneArrival h q t d) s
      = .next (putSq s h.val q.val { x with entries := a ++ { e with express := false } :: b }) := by
  simp [exec, execExpressLaneArrival, hw, hx, hfirst, hready, hroom]

/-- The lane has taken the entry between `a` and `b`, which stands in its SQ until its acceptance (R39, R145). -/
def laneTaken (h : Host) (q : QId) (t : OpTag) (s : State) (x : Sq) (a : List Taken) (e : Taken) (b : List Taken) : State :=
  takeTag h.val q.val t.val
    (decideRx x e.bytes (sqeFindings e.bytes ++ portFindings s h.val e.bytes ++ inlineFindings s e.bytes))
    (if e.accepted then a ++ b else a ++ { e with lane := some t.val } :: b) (opFor s h.val q.val e .inline) s

/-- The frame of a taken entry can be staged at once, with the R-TAG it will have (R210, R302). -/
def laneFitsEntry (e : List Byte) (u : State) : Bool :=
  laneFits u (sqeFlow e) (sqePort e) (sqeTc e)
    (flowLen (if rtagLen u (sqeFlow e) = 0 then none else some 0) (inlineBytes e))

/-- The frame of a taken entry joins its flow queue and holds its bytes of the packet buffer (R210). -/
def laneQueued (t : OpTag) (e : List Byte) (u : State) : State :=
  enterFlow (sqeFlow e) .frame (some t.val) (inlineBytes e)
    (updOp t.val (fun o => { o with held := (inlineBytes e).length }) { u with txHeld := u.txHeld + (inlineBytes e).length })

/-- R203, R210: an entry with room and without a fault is taken by the lane, and its frame is staged where it fits, else queued. -/
theorem exec_expressLaneArrival_of_taken (hx : sqOf s h.val q.val = some x) (hfirst : firstNoLane x.entries = some (a, e, b))
    (hw : mayWrite d s = true) (hready : laneReady s t.val x e = true) (hroom : laneRoom s h.val x e = true)
    (hnone : entryFindings h s x e (inlineFindings s e.bytes) = []) :
    exec (.expressLaneArrival h q t d) s = .next (if laneFitsEntry e.bytes (laneTaken h q t s x a e b) then
        laneStage (sqeFlow e.bytes) (sqePort e.bytes) (sqeTc e.bytes) t.val (inlineBytes e.bytes) (laneTaken h q t s x a e b)
      else laneQueued t e.bytes (laneTaken h q t s x a e b)) := by
  simp only [entryFindings] at hnone
  simp only [exec, execExpressLaneArrival, hw, hx, hfirst, hready, hroom, hnone]
  rfl

end

/-! ### The prefetch of a stream's payload (R252) -/

/-- Payload that arrives for a stream advances the read of its channel; in a stopped pool it is only kept (R182). -/
theorem exec_payloadPrefetch_of_stream {t : OpTag} {s : State} {o : Op} {c : Nat} (b : List Byte)
    (ho : opOf s t.val = some o) (hkind : o.kind = .stream) (hstage : o.stage = .onChan c) (hd : dispatching s = true) :
    exec (.payloadPrefetch t b) s = .next (arrive c b (dmaGo s)) := by
  simp [exec, execPayloadPrefetch, ho, hkind, hstage, hd]

/-- Data that reach a read in a stopped pool are kept on their channel (R182). -/
theorem arrive_of_stopped {c : Nat} {s : State} {q : ReadReq} (b : List Byte) (hread : (chanOf s c).read = some q)
    (hstop : s.dma.stopped = true) :
    arrive c b s = putChan s c { chanOf s c with read := some { q with
      got := q.got ++ (if q.space = 0 then b else List.replicate (rawLen q) 0).take (rawLen q - q.got.length) } } := by
  simp [arrive, hread, hstop]

/-! ### Expiry, the tag sweep, monitors and rate ticks (R199, R201, R218, R242) -/

section
variable {f : Flow} {s : State}

/-- R242: the executor skips the overdue staged frame and reports it, and its staging queue has the place again. -/
theorem exec_frameExpiry_of_staged {p t : Nat} {before behind : List Staged} {y : Staged}
    (hover : overdueIn s f.val = some (p, t, before, y, behind)) :
    exec (.frameExpiry f) s = .next (reportDepart p t { y with expired := true } false noTs
      (refill p t (putGate s p { gateOf s p with staged := tput [] (gateOf s p).staged t (before ++ behind) }))) := by
  simp [exec, execFrameExpiry, hover]

/-- R242: with nothing of it staged overdue, the flow queue's first overdue element leaves it. -/
theorem exec_frameExpiry_of_queued {before behind : List Elem} {e : Elem} (hstaged : overdueIn s f.val = none)
    (hside : consuming s = true)
    (hover : splitAtFirst (elemOver s (flowOf s f.val) (elapsed s)) (flowOf s f.val).elems = some (before, e, behind)) :
    exec (.frameExpiry f) s = .next (expireAt f.val before e behind s) := by
  simp [exec, execFrameExpiry, hstaged, hside, hover]

/-- How far the finish tag of a flow queue lies behind the virtual time of its class, modulo 2^48 (R199). -/
def tagLag (s : State) (x : FlowQ) : Nat := (vtOf s x.port x.tc + 2 ^ 48 - x.tag % 2 ^ 48) % 2 ^ 48

/-- R199: a tag that lies more than 2^40 behind is moved to 2^40 behind. -/
theorem exec_tagSweep_of_lag (hside : consuming s = true) (hfar : 2 ^ 40 < tagLag s (flowOf s f.val))
    (hbehind : tagLag s (flowOf s f.val) < 2 ^ 47) :
    exec (.tagSweep f) s = .next (putFlow s f.val { flowOf s f.val with
      tag := (vtOf s (flowOf s f.val).port (flowOf s f.val).tc + 2 ^ 48 - 2 ^ 40) % 2 ^ 48 }) := by
  have hsweep : (consuming s && decide (2 ^ 40 < tagLag s (flowOf s f.val))
      && decide (tagLag s (flowOf s f.val) < 2 ^ 47)) = true := by simp only [hside, hfar, hbehind, decide_true, Bool.and_true]
  exact congrArg Host.Outcome.next (if_pos hsweep)

/-- R218: an enabled monitor whose sample is due counts the depth of its target. -/
theorem exec_monitorSample_of_due {m : Fin 64} (hside : consuming s = true) (hon : regFld s .schMonCfg [m.val] 31 1 = 1)
    (hdue : nextSample s m.val ≤ elapsed s) :
    exec (.monitorSample m) s = .next (count .schMonQbin [m.val, depthBin (monDepth s m.val)] 0 1
      { s with sch := { s.sch with sampled := tput 0 s.sch.sampled m.val (nextSample s m.val) } }) := by
  simp [exec, execMonitorSample, hside, hon, hdue]

/-- R201: a tick that is due adds RATE to every shaper, and stands as the time of the last record (R213). -/
theorem exec_rateTick_of_due (hdue : (s.sch.ticks + 1) * 1000 ≤ elapsed s) :
    exec .rateTick s = .next { s with
      sch := { s.sch with ticks := s.sch.ticks + 1
                          flows := s.sch.flows.map (fun fx => (fx.1, flowTick s ((s.sch.ticks + 1) * 1000) fx.2)) }
      jrn := { s.jrn with last := { s.jrn.last with el := max s.jrn.last.el ((s.sch.ticks + 1) * 1000) } } } :=
  congrArg Host.Outcome.next (if_neg (Nat.not_lt.mpr hdue))

end

/-- Settles O27: each row's guard holds in the states of its own path. -/
theorem schedulingEventsComplete : Obligations.SchedulingEventsComplete := by
  unfold Obligations.SchedulingEventsComplete
  refine ⟨?pick, ?pickGated, ?laneStaged, ?laneWaits, ?noRoom, ?laneGated, ?segmentGated, ?segment, ?prefetch, ?prefetchStopped,
    ?skipped, ?expired, ?sweep, ?sample, ?tick⟩
  case pick =>
    rintro d p t s _ f x e es hw hserving hticks rfl hpick hhead hkind
    exact exec_schedulerPick_of_frame hw hserving hticks hpick hhead hkind
  case pickGated => exact fun d p t s hw => exec_schedulerPick_gated hw
  case laneStaged =>
    rintro d h q t s x a e b _ hx hfirst hw hready hroom hnone rfl hfits
    exact (exec_expressLaneArrival_of_taken hx hfirst hw hready hroom hnone).trans
      (congrArg Host.Outcome.next (if_pos hfits))
  case laneWaits =>
    rintro d h q t s x a e b _ hx hfirst hw hready hroom hnone rfl hfull
    exact (exec_expressLaneArrival_of_taken hx hfirst hw hready hroom hnone).trans
      (congrArg Host.Outcome.next (if_neg (ne_true_of_eq_false hfull)))
  case noRoom =>
    exact fun d h q t s x a e b hx hfirst hw hready hroom => exec_expressLaneArrival_of_no_room hx hfirst hw hready hroom
  case laneGated => exact fun d h q t s hw => exec_expressLaneArrival_gated hw
  case segmentGated => exact fun d p t s hw => exec_segmentPick_gated hw
  case segment =>
    rintro d p t s f x e es tag o n v sq _ _ st _ hw hserving hticks hpick hhead hkind htag ho hstart hlen rfl hseq rfl rfl
    rw [exec_segmentPick_of_stream hw hserving hticks hpick hhead hkind htag ho hstart hlen, hseq]
    rfl
  case prefetch =>
    rintro t b s o c _ q ho hkind hstage hd rfl hread hspace hrun
    rw [exec_payloadPrefetch_of_stream b ho hkind hstage hd, arrive_of_running b hread hrun, if_pos hspace]
  case prefetchStopped =>
    rintro t b s o c _ q ho hkind hstage hd rfl hread hspace hstop
    rw [exec_payloadPrefetch_of_stream b ho hkind hstage hd, arrive_of_stopped b hread hstop, if_pos hspace]
  case skipped => exact fun f s p t before y behind hover => exec_frameExpiry_of_staged hover
  case expired => exact fun f s before e behind hstaged hside hover => exec_frameExpiry_of_queued hstaged hside hover
  case sweep =>
    rintro f s _ _ rfl hside rfl hfar hbehind
    exact exec_tagSweep_of_lag hside hfar hbehind
  case sample => exact fun m s hside hon hdue => exec_monitorSample_of_due hside hon hdue
  case tick =>
    rintro s _ rfl hdue
    exact exec_rateTick_of_due hdue

end Sys2Proof.Machine
end

section
/-!
The gate rows (R222 to R246): how a port's tape runs, ends and switches, when hold is asserted, what the executor starts, cuts and
resumes, and how the merge is verified (R244).
-/

namespace Sys2Proof.Machine

section
variable {p : Port} {s : State}

/-! ### The tape (R224 to R231) -/

/-- The fill interval ends with a Midnight. -/
theorem exec_gateEntryStart_of_fill {m el : Nat} {first : Bool} (hfill : (gateOf s p.val).fill = some (m, el, first))
    (hdue : el ≤ elapsed s) : exec (.gateEntryStart p) s = .next (midnight p.val m el first s) := by
  simp [exec, execGateEntryStart, hfill, hdue]

/-- R226: the next entry of the running tape starts once its time has come. -/
theorem exec_gateEntryStart_of_entry (hfill : (gateOf s p.val).fill = none)
    (hnext : (gateOf s p.val).entry + 1 < (gateOf s p.val).tape.length)
    (hdue : entryEl (gateOf s p.val) ((gateOf s p.val).entry + 1) ≤ elapsed s) :
    exec (.gateEntryStart p) s = .next (startEntry p.val ((gateOf s p.val).entry + 1)
      (entryEl (gateOf s p.val) ((gateOf s p.val).entry + 1)) false s) := by
  simp [exec, execGateEntryStart, hfill, hnext, hdue]

/-- R101: a cycle end without a switch takes the next Midnight from the grid. -/
theorem exec_gateCycleEnd_of_over {g : GateP} (hg : g = gateOf s p.val) (hover : cycleOver s g = true)
    (hstay : switchAt g (cycleEndNet s g) = none) :
    exec (.gateCycleEnd p) s = .next (toMidnight p.val (cycleEndEl g) (cycleEndNet s g)
      (nextGrid g.origin (cycleOf g.tape) (cycleEndNet s g)) false (lastGates g.tape) s) := by
  subst hg
  simp [exec, execGateCycleEnd, hover, hstay]

/-- R230: at a cycle end that switches, the pending tape becomes the running one. -/
theorem exec_tapeSwitch_of_over {g : GateP} {t : PendTape} {o m : Nat} (hg : g = gateOf s p.val) (hover : cycleOver s g = true)
    (hpend : g.pend = some t) (hswitch : switchAt g (cycleEndNet s g) = some (o, m)) :
    exec (.tapeSwitch p) s = .next (toMidnight p.val (cycleEndEl g) (cycleEndNet s g) m true (lastGates g.tape)
      (raise (evGateSwitch p.val) (putGate s p.val { g with tape := t.tape, origin := o, pend := none, bank := !g.bank }))) := by
  subst hg
  simp [exec, execTapeSwitch, hover, hpend, hswitch]

/-- R246: an entry with OP 1 that starts within HOLD_ADV_NS asserts hold. -/
theorem holdDue_of_upcoming {x : Nat × TapeEntry} (hpre : preActive s p.val = true) (hx : x ∈ upcoming s (gateOf s p.val))
    (hop : x.2.action.toNat % 4 = 1) (hnear : x.1 ≤ elapsed s + regFld s .gateMmCfg [p.val] 16 12) :
    holdDue s p.val = true := by
  rw [holdDue, hpre, Bool.true_and, List.any_eq_true]
  exact ⟨x, hx, by simp [hop, hnear]⟩

theorem exec_gateHoldAdvance_of_due (hdue : holdDue s p.val = true) :
    exec (.gateHoldAdvance p) s = .next (assertHold p.val s) :=
  congrArg Host.Outcome.next (if_pos hdue)

/-! ### The executor (R194, R239, R245) -/

section
variable {t : Nat} {x : Staged} {r : Bool}

/-- R194: on a free wire the first express class that its gate admits starts its frame. -/
theorem exec_executorFrameStart_express (hready : txReady s p.val = true) (hwire : (gateOf s p.val).wire = none)
    (hfirst : firstOf s p.val false 8 = some (t, x, r)) :
    exec (.executorFrameStart p) s = .next (startFrame p.val t x r (elapsedPs s) s) := by
  simp [exec, execExecutorFrameStart, hready, hwire, hfirst]

/-- R194: with no express frame, no cut frame and no hold, the first pre-emptible class starts its frame. -/
theorem exec_executorFrameStart_preemptible (hready : txReady s p.val = true) (hwire : (gateOf s p.val).wire = none)
    (hexpress : firstOf s p.val false 8 = none) (hcut : (gateOf s p.val).cut = none)
    (hhold : (preActive s p.val && (gateOf s p.val).hold) = false) (hfirst : firstOf s p.val true 8 = some (t, x, r)) :
    exec (.executorFrameStart p) s = .next (startFrame p.val t x r (elapsedPs s) s) := by
  simp only [exec, execExecutorFrameStart, hready, hwire, hexpress, hcut, hhold, hfirst]
  rfl

/-- R239: with no express frame, the cut frame goes on where it may. -/
theorem exec_executorFrameStart_resumes {c : OnWire} (hready : txReady s p.val = true) (hwire : (gateOf s p.val).wire = none)
    (hexpress : firstOf s p.val false 8 = none) (hcut : (gateOf s p.val).cut = some c) (hresume : canResume s p.val c = true) :
    exec (.executorFrameStart p) s
      = .next (putGate s p.val { gateOf s p.val with cut := none, wire := some { c with startPs := elapsedPs s } }) := by
  simp [exec, execExecutorFrameStart, hready, hwire, hexpress, hcut, hresume]

/-- R245: the express frame whose gate admits it behind the first legal cut is the one that pre-empts. -/
theorem preempting_of_cut {w : OnWire} {d : Nat} (hcut : firstCut s p.val w = some d)
    (hfirst : firstBy s p.val false (candidateAt s p.val (afterCut s p.val w d - elapsedPs s)) 8 = some (t, x, r)) :
    preempting s p.val w = some (d, t, x, r) := by
  simp [preempting, hcut, hfirst]

/-- R245: an express frame cuts the pre-emptible one on the wire and starts behind its fragment. -/
theorem exec_executorFrameStart_preempts {w : OnWire} {d : Nat} (hready : txReady s p.val = true)
    (hwire : (gateOf s p.val).wire = some w) (hpre : w.pre = true) (hactive : preActive s p.val = true)
    (hcuts : preempting s p.val w = some (d, t, x, r)) :
    exec (.executorFrameStart p) s
      = .next (startFrame p.val t x r (max (elapsedPs s) (afterCut s p.val w d)) (cutWire p.val w d s)) := by
  simp [exec, execExecutorFrameStart, hready, hwire, hpre, hactive, hcuts]

end

theorem exec_frameDeparture_of_wire {w : OnWire} (hwire : (gateOf s p.val).wire = some w) :
    exec (.frameDeparture p) s = .next (settleOff p.val (endWire p.val w s)) := by
  simp [exec, execFrameDeparture, hwire]

/-! ### MAC Merge verify (R244) -/

theorem exec_mmVerifyResponse_of_waiting (hverify : (gateOf s p.val).verify = 2) :
    exec (.mmVerifyResponse p) s = .next (putGate s p.val { gateOf s p.val with verify := 3 }) := by
  simp [exec, execMmVerifyResponse, hverify]

/-- A miss is followed by another attempt, until three have failed. -/
theorem exec_mmVerifyTimeout_of_waiting (hverify : (gateOf s p.val).verify = 2) :
    exec (.mmVerifyTimeout p) s = .next (if (gateOf s p.val).attempts < 3 then
        putGate s p.val { gateOf s p.val with attempts := (gateOf s p.val).attempts + 1 }
      else raise evMmVerifyFail (putGate s p.val { gateOf s p.val with verify := 4 })) := by
  simp [exec, execMmVerifyTimeout, hverify]

end

/-- Settles O28: each row's guard holds in the states of its own path. -/
theorem gateEventsComplete : Obligations.GateEventsComplete := by
  unfold Obligations.GateEventsComplete
  refine ⟨?fillEnds, ?entryStarts, ?cycleEnds, ?switches, ?hold, ?express, ?preemptible, ?resumes, ?preempts, ?departs, ?verified,
    ?retries, ?fails⟩
  case fillEnds => exact fun p s m el first hfill hdue => exec_gateEntryStart_of_fill hfill hdue
  case entryStarts =>
    rintro p s _ rfl hfill hnext hdue
    exact exec_gateEntryStart_of_entry hfill hnext hdue
  case cycleEnds =>
    rintro p s g _ hg rfl hover hstay
    exact exec_gateCycleEnd_of_over hg hover hstay
  case switches =>
    rintro p s g _ t o m hg rfl hover hpend hswitch
    exact exec_tapeSwitch_of_over hg hover hpend hswitch
  case hold =>
    exact fun p s x hpre hx hop hnear => exec_gateHoldAdvance_of_due (holdDue_of_upcoming hpre hx hop hnear)
  case express => exact fun p s t x r hready hwire hfirst => exec_executorFrameStart_express hready hwire hfirst
  case preemptible =>
    exact fun p s t x r hready hwire hexpress hcut hhold hfirst =>
      exec_executorFrameStart_preemptible hready hwire hexpress hcut hhold hfirst
  case resumes =>
    exact fun p s c hready hwire hexpress hcut hresume => exec_executorFrameStart_resumes hready hwire hexpress hcut hresume
  case preempts =>
    exact fun p s w t x r d hready hwire hpre hactive hcut hfirst =>
      exec_executorFrameStart_preempts hready hwire hpre hactive (preempting_of_cut hcut hfirst)
  case departs => exact fun p s w hwire => exec_frameDeparture_of_wire hwire
  case verified => exact fun p s hverify => exec_mmVerifyResponse_of_waiting hverify
  case retries =>
    intro p s hverify hleft
    rw [exec_mmVerifyTimeout_of_waiting hverify, if_pos hleft]
  case fails =>
    intro p s hverify hspent
    rw [exec_mmVerifyTimeout_of_waiting hverify, if_neg (Nat.not_lt.mpr hspent)]

end Sys2Proof.Machine
end

section
/-!
Noninterference of the gate rows (R194, R226, R242, R244): what the tape, the executor and the verify of one port leave of every
other port and of the tables.
-/

namespace Sys2Proof.Machine

/-- The state without the counters, the events, the bus, the Scoresheets, and what it holds by port or by flow queue. -/
def elsewhere (s : State) : State :=
  { s with ctrs := [], evt := {}, bus := [], jrn := {}, gate := [], port := [], sch := { s.sch with flows := [] } }

/-- A flow queue without the times from which its elements are held, which a segment's start moves (R242). -/
def undated (x : FlowQ) : FlowQ := { x with elems := x.elems.map (fun e => { e with since := 0 }) }

/-- A change of these times alone is not seen. -/
theorem undated_map {x : FlowQ} {g : Elem → Elem} (hg : ∀ e, { g e with since := 0 } = { e with since := 0 }) :
    undated { x with elems := x.elems.map g } = undated x := by
  simp [undated, hg]

/-- What undated flow queues agree in: all but the elements, and the elements up to their times. -/
theorem undated_eq_iff {x y : FlowQ} : undated x = undated y ↔
    { x with elems := [] } = { y with elems := [] }
      ∧ x.elems.map (fun e => { e with since := 0 }) = y.elems.map (fun e => { e with since := 0 }) := by
  simp only [undated, FlowQ.mk.injEq]
  tauto

/-- From `s` to `t` nothing beyond port `p` changes, but for the times from which elements are held. -/
structure LeavesOthers (p : Nat) (s t : State) : Prop where
  rest : elsewhere t = elsewhere s
  gate : ∀ k, k ≠ p → gateOf t k = gateOf s k
  port : ∀ k, k ≠ p → portOf t k = portOf s k
  flow : ∀ f, undated (flowOf t f) = undated (flowOf s f)

section
variable {p : Nat} {s t u : State}

theorem LeavesOthers.refl (p : Nat) (s : State) : LeavesOthers p s s := ⟨rfl, fun _ _ => rfl, fun _ _ => rfl, fun _ => rfl⟩

theorem LeavesOthers.trans (hst : LeavesOthers p s t) (htu : LeavesOthers p t u) : LeavesOthers p s u where
  rest := htu.rest.trans hst.rest
  gate k hk := (htu.gate k hk).trans (hst.gate k hk)
  port k hk := (htu.port k hk).trans (hst.port k hk)
  flow f := (htu.flow f).trans (hst.flow f)

theorem LeavesOthers.ite {c : Prop} [Decidable c] (ht : LeavesOthers p s t) (hu : LeavesOthers p s u) :
    LeavesOthers p s (if c then t else u) := by
  split
  · exact ht
  · exact hu

/-- An update that touches no gate, port or flow queue. -/
theorem leavesOthers_of_fields (hrest : elsewhere t = elsewhere s) (hgate : t.gate = s.gate) (hport : t.port = s.port)
    (hsch : t.sch = s.sch) : LeavesOthers p s t where
  rest := hrest
  gate k _ := by simp only [gateOf, hgate]
  port k _ := by simp only [portOf, hport]
  flow f := by simp only [flowOf, hsch]

/-! ### The named updates -/

theorem putGate_leavesOthers (p : Nat) (g : GateP) (s : State) : LeavesOthers p s (putGate s p g) where
  rest := rfl
  gate _ hk := gateOf_putGate_ne s g hk
  port _ _ := rfl
  flow _ := rfl

theorem putPort_leavesOthers (p : Nat) (x : PortSt) (s : State) : LeavesOthers p s (putPort s p x) where
  rest := rfl
  gate _ _ := rfl
  port _ hk := portOf_putPort_ne s x hk
  flow _ := rfl

/-- A flow queue may take another's place where the two differ in the times of their elements alone. -/
theorem putFlow_leavesOthers {f : Nat} {x : FlowQ} (hx : undated x = undated (flowOf s f)) : LeavesOthers p s (putFlow s f x) where
  rest := rfl
  gate _ _ := rfl
  port _ _ := rfl
  flow k := by
    by_cases hk : k = f
    · subst hk
      rw [flowOf_putFlow_self, hx]
    · rw [flowOf_putFlow_ne s x hk]

theorem count_leavesOthers (g : Reg) (is : List Nat) (lo n : Nat) (s : State) : LeavesOthers p s (count g is lo n s) :=
  leavesOthers_of_fields rfl rfl rfl rfl

theorem setJrn_leavesOthers (j : Jrn) (s : State) : LeavesOthers p s { s with jrn := j } :=
  leavesOthers_of_fields rfl rfl rfl rfl

theorem timeRecordAt_leavesOthers (sub : TimeSub) (ns : Nat) (s : State) : LeavesOthers p s (timeRecordAt sub ns s) := by
  unfold timeRecordAt record
  exact setJrn_leavesOthers _ s

theorem raise_leavesOthers (src : Nat) (s : State) : LeavesOthers p s (raise src s) :=
  leavesOthers_of_fields (show elsewhere (quiet (raise src s)) = elsewhere (quiet s) by rw [raise_quiet])
    (raise_gate src s) (raise_port src s) (raise_sch src s)

/-! ### Cuts and hold (R243 to R246) -/

theorem cutWire_leavesOthers (p : Nat) (w : OnWire) (d : Nat) (s : State) : LeavesOthers p s (cutWire p w d s) :=
  ((putGate_leavesOthers p _ s).trans (putPort_leavesOthers p _ _)).trans (count_leavesOthers _ _ _ _ _)

theorem assertHold_leavesOthers (p : Nat) (s : State) : LeavesOthers p s (assertHold p s) := by
  have hhold := putGate_leavesOthers p { gateOf s p with hold := true } s
  simp only [assertHold]
  split
  case h_1 w _ =>
    refine .ite ?_ hhold
    split
    · exact hhold.trans (cutWire_leavesOthers p w _ _)
    · exact hhold
  case h_2 => exact hhold

theorem closeFrames_leavesOthers (p : Nat) (new : BitVec 8) (el : Nat) (s : State) : LeavesOthers p s (closeFrames p new el s) := by
  unfold closeFrames
  split
  case h_1 w _ =>
    refine .ite ?_ (.refl p s)
    split
    · exact (cutWire_leavesOthers p w _ s).trans (count_leavesOthers _ _ _ _ _)
    · exact .refl p s
  case h_2 => exact .refl p s

/-! ### The tape (R226, R230) -/

theorem startEntry_leavesOthers (p i el : Nat) (first : Bool) (s : State) : LeavesOthers p s (startEntry p i el first s) := by
  unfold startEntry
  extract_lets g e op hold closed held now entered marked recorded
  have hclosed : LeavesOthers p s closed := closeFrames_leavesOthers p e.gates el s
  have hheld : LeavesOthers p s held := .ite (hclosed.trans (assertHold_leavesOthers p closed)) hclosed
  have hentered : LeavesOthers p s entered := hheld.trans (putGate_leavesOthers p _ held)
  have hmarked : LeavesOthers p s marked :=
    .ite ((hentered.trans (count_leavesOthers _ _ _ _ _)).trans (raise_leavesOthers _ _)) hentered
  have hrecorded : LeavesOthers p s recorded := hmarked.trans (timeRecordAt_leavesOthers _ _ marked)
  exact .ite (.ite (hrecorded.trans (setJrn_leavesOthers _ recorded)) hrecorded) hmarked

theorem midnight_leavesOthers (p net el : Nat) (first : Bool) (s : State) : LeavesOthers p s (midnight p net el first s) :=
  ((putGate_leavesOthers p _ s).trans (putPort_leavesOthers p _ _)).trans (startEntry_leavesOthers p 0 el first _)

theorem toMidnight_leavesOthers (p el e m : Nat) (first : Bool) (held : BitVec 8) (s : State) :
    LeavesOthers p s (toMidnight p el e m first held s) :=
  .ite (midnight_leavesOthers p m el first s) (putGate_leavesOthers p _ s)

/-! ### The executor (R194, R242) -/

theorem refill_leavesOthers (p t : Nat) (s : State) : LeavesOthers p s (refill p t s) :=
  .ite (.refl p s) (putGate_leavesOthers p _ s)

theorem dropHead_leavesOthers (p t : Nat) (relay : Bool) (s : State) : LeavesOthers p s (dropHead p t relay s) :=
  .ite (putGate_leavesOthers p _ s) ((putGate_leavesOthers p _ s).trans (refill_leavesOthers p t _))

/-- R242: the start of a segment moves the times from which its stream is held, and nothing else of a flow queue. -/
theorem segmentStarts_leavesOthers (p t : Nat) (x : Staged) (s : State) : LeavesOthers p s (segmentStarts p t x s) := by
  refine .ite ((putGate_leavesOthers p _ s).trans (putFlow_leavesOthers (undated_map fun e => ?_))) (.refl p s)
  split <;> rfl

theorem startFrame_leavesOthers (p t : Nat) (x : Staged) (relay : Bool) (at_ : Nat) (s : State) :
    LeavesOthers p s (startFrame p t x relay at_ s) :=
  ((dropHead_leavesOthers p t relay s).trans (segmentStarts_leavesOthers p t x _)).trans (putGate_leavesOthers p _ _)

end

/-! ### The rows -/

section
variable {p : Port} {s t : State}

theorem gateEntryStart_leavesOthers (h : execGateEntryStart p s = .next t) : LeavesOthers p.val s t := by
  cases h
  split
  case h_1 m el first _ => exact .ite (midnight_leavesOthers p.val m el first s) (.refl _ s)
  case h_2 => exact .ite (startEntry_leavesOthers p.val _ _ false s) (.refl _ s)

theorem gateCycleEnd_leavesOthers (h : execGateCycleEnd p s = .next t) : LeavesOthers p.val s t := by
  cases h
  exact .ite (toMidnight_leavesOthers p.val _ _ _ false _ s) (.refl _ s)

theorem tapeSwitch_leavesOthers (h : execTapeSwitch p s = .next t) : LeavesOthers p.val s t := by
  cases h
  split
  case h_1 =>
    exact .ite (((putGate_leavesOthers p.val _ s).trans (raise_leavesOthers _ _)).trans
      (toMidnight_leavesOthers p.val _ _ _ true _ _)) (.refl _ s)
  case h_2 => exact .refl _ s

theorem gateHoldAdvance_leavesOthers (h : execGateHoldAdvance p s = .next t) : LeavesOthers p.val s t := by
  cases h
  exact .ite (assertHold_leavesOthers p.val s) (.refl _ s)

theorem executorFrameStart_leavesOthers (h : execExecutorFrameStart p s = .next t) : LeavesOthers p.val s t := by
  cases h
  refine .ite (.refl _ s) ?_
  split
  · refine .ite ?_ (.refl _ s)
    split
    · exact (cutWire_leavesOthers p.val _ _ s).trans (startFrame_leavesOthers p.val _ _ _ _ _)
    · exact .refl _ s
  · exact startFrame_leavesOthers p.val _ _ _ _ s
  · split
    · exact .ite (putGate_leavesOthers p.val _ s) (.refl _ s)
    · refine .ite (.refl _ s) ?_
      split
      · exact startFrame_leavesOthers p.val _ _ _ _ s
      · exact .refl _ s

theorem mmVerifyResponse_leavesOthers (h : execMmVerifyResponse p s = .next t) : LeavesOthers p.val s t := by
  cases h
  exact .ite (putGate_leavesOthers p.val _ s) (.refl _ s)

theorem mmVerifyTimeout_leavesOthers (h : execMmVerifyTimeout p s = .next t) : LeavesOthers p.val s t := by
  cases h
  exact .ite (.ite (putGate_leavesOthers p.val _ s) ((putGate_leavesOthers p.val _ s).trans (raise_leavesOthers _ _))) (.refl _ s)

/-- The gate rows of a port leave the others. -/
theorem gateRow_leavesOthers {i : Instr}
    (hi : i ∈ [Instr.gateEntryStart p, .gateCycleEnd p, .tapeSwitch p, .gateHoldAdvance p, .executorFrameStart p,
      .mmVerifyResponse p, .mmVerifyTimeout p]) (h : exec i s = .next t) : LeavesOthers p.val s t := by
  simp only [List.mem_cons, List.not_mem_nil, or_false] at hi
  rcases hi with rfl | rfl | rfl | rfl | rfl | rfl | rfl
  · exact gateEntryStart_leavesOthers h
  · exact gateCycleEnd_leavesOthers h
  · exact tapeSwitch_leavesOthers h
  · exact gateHoldAdvance_leavesOthers h
  · exact executorFrameStart_leavesOthers h
  · exact mmVerifyResponse_leavesOthers h
  · exact mmVerifyTimeout_leavesOthers h

end

/-- Settles O60: each row is built of updates that leave the other ports and the tables, and a segment's start moves hold times
alone (R242). -/
theorem gateRowsLeaveOtherPorts : Obligations.GateRowsLeaveOtherPorts := by
  unfold Obligations.GateRowsLeaveOtherPorts
  intro p i s t hi h
  obtain ⟨hrest, hgate, hport, hflow⟩ := gateRow_leavesOthers hi h
  have field {α : Type} (get : State → α) : get (elsewhere t) = get (elsewhere s) := congrArg get hrest
  exact ⟨fun k hk => ⟨hgate k hk, hport k hk⟩, field State.que, field State.strm, field State.fld, field State.regs,
    field State.glb, field State.time, field State.sides, field State.cmd, field State.sch, fun f => undated_eq_iff.mp (hflow f)⟩

end Sys2Proof.Machine
end

section
/-!
The reception rows (R272, R274, R298, R311): a frame's start and end on a high-speed port, its classification by the active side, and
the reset of a recovery function.
-/

namespace Sys2Proof.Machine

section
variable {p : Port} {s : State}

/-- R106: the frame that an arriving express frame interrupts, with its timestamp. -/
def interrupted (x : PortSt) : Option (Nat × Ts × Nat) := x.rx.map (fun r => (r, x.rxTs, x.rxEl))

/-- R274: the frame's whole reservation is made as it starts. -/
theorem exec_portFrameRxStart_reserved {u : State} (hen : (portOf s p.val).en = true) (hlink : (portOf s p.val).link = true)
    (hfree : (portOf s p.val).rxHeld = none) (hspace : reserve p.val ((portOf s p.val).rxMax + 8) s = some u) :
    exec (.portFrameRxStart p) s = .next (putPort u p.val { portOf u p.val with
      rx := some ((portOf s p.val).rxMax + 8), rxTs := portTs s (regFld s .timePortCorrIng [p.val] 0 16) 0 0,
      rxEl := stampEl u (regFld s .timePortCorrIng [p.val] 0 16), rxHeld := interrupted (portOf s p.val) }) := by
  simp [exec, execPortFrameRxStart, hen, hlink, hfree, hspace, interrupted]

/-- R274: a frame without space is dropped whole, counted and told. -/
theorem exec_portFrameRxStart_overflows (hen : (portOf s p.val).en = true) (hlink : (portOf s p.val).link = true)
    (hfree : (portOf s p.val).rxHeld = none) (hspace : reserve p.val ((portOf s p.val).rxMax + 8) s = none) :
    exec (.portFrameRxStart p) s = .next (raise evPortRxOvf (portCount p.val 11 1 (putPort s p.val { portOf s p.val with
      rx := some 0, rxHeld := interrupted (portOf s p.val) }))) := by
  simp [exec, execPortFrameRxStart, hen, hlink, hfree, hspace, interrupted]

/-- R423: a data fabric frame on a fabric port ends as any frame does. -/
theorem exec_transitRelay_of_transit {f : RxFacts} {c : Bool} (htransit : isTransit s p.val f.bytes = true) :
    exec (.transitRelay p f c) s = .next (rxEnd p.val f s) :=
  congrArg Host.Outcome.next (if_pos htransit)

/-- R181, R272, R383: the oldest summary is consumed as of its record, unless a scatter claims it while channel 3 is halted. -/
theorem exec_rxClassify_of_summary {x : RxSum} {r : List RxSum} (hsums : (portOf s p.val).sums = x :: r)
    (hconsuming : consuming s = true) (hscatter : (chanOf s 3).halted = true → claimOf s p.val x.bytes = none) :
    exec (.rxClassify p) s
      = .next (consumeAt x.stamp (rxPath p.val x) (putPort s p.val { portOf s p.val with sums := r })) := by
  have hfree : ((chanOf s 3).halted && (claimOf s p.val x.bytes).isSome) = false := by
    cases hhalted : (chanOf s 3).halted with
    | false => rfl
    | true => simp [hscatter hhalted]
  simp [exec, execRxClassify, hsums, hconsuming, hfree]

/-- R311: the check of a 1 ms tick resets a function whose RESET_MS has passed. -/
theorem exec_frerResetTimeout_of_due {r : Fin 4096} (hconsuming : consuming s = true)
    (hdue : frerDue (recOf s r.val) (elapsed s) = true) : exec (.frerResetTimeout r) s = .next (frerReset r.val s) := by
  simp [exec, execFrerResetTimeout, hconsuming, hdue]

end

/-- Settles O29: a frame's start by whether its reservation can be made; each other row's guard holds in the states of its path. -/
theorem receiveEventsComplete : Obligations.ReceiveEventsComplete := by
  unfold Obligations.ReceiveEventsComplete
  refine ⟨?reserved, ?overflows, ?ends, ?transit, ?classified, ?resets⟩
  case reserved =>
    rintro p s u _ _ rfl hen hlink hfree rfl hspace
    exact exec_portFrameRxStart_reserved hen hlink hfree hspace
  case overflows =>
    rintro p s _ rfl hen hlink hfree hspace
    exact exec_portFrameRxStart_overflows hen hlink hfree hspace
  case ends => exact fun p f s n _ => rfl
  case transit => exact fun p f c s htransit => exec_transitRelay_of_transit htransit
  case classified => exact fun p s x r hsums hconsuming hscatter => exec_rxClassify_of_summary hsums hconsuming hscatter
  case resets => exact fun r s hconsuming hdue => exec_frerResetTimeout_of_due hconsuming hdue

end Sys2Proof.Machine
end

section
/-!
The link rows (R263, R264, R280 to R287): a link's way up and down, the in-band word, low-power idle in both directions, the LLDP rows
and FEC.
-/

namespace Sys2Proof.Machine

/-- The status bits of the event sources stand in the word. -/
theorem evtBit_ne_zero {src : Nat} (hsrc : src < 256) : evtBit src ≠ 0 := by
  intro hzero
  have hval : 2 ^ src % 2 ^ 256 = 0 := congrArg BitVec.toNat hzero
  rw [Nat.mod_eq_of_lt (Nat.pow_lt_pow_right (by decide) hsrc)] at hval
  exact absurd hval (Nat.two_pow_pos src).ne'

/-! ### What staging firmware's frames leaves (R193, R282) -/

/-- The state without the staging queues and the frames that wait for them. -/
def unstaged (s : State) : State := { s with gate := [], ptp := {} }

theorem flushPtp_unstaged (l : List (Nat × Staged)) (s : State) : unstaged (flushPtp l s) = unstaged s := by
  induction l generalizing s with
  | nil => rfl
  | cons m l ih =>
    simp only [flushPtp]
    split
    · exact ih s
    · split
      · exact ih (putPtp m.1 m.2 s)
      · exact ih _

theorem settleDuePtp_unstaged (s : State) : unstaged (settleDuePtp s) = unstaged s := by
  unfold settleDuePtp
  split
  · exact flushPtp_unstaged _ _
  · rfl

theorem sendLldp_unstaged (p : Nat) (s : State) : unstaged (sendLldp p s) = unstaged s := by
  unfold sendLldp
  split
  · exact settleDuePtp_unstaged _
  · rfl

@[simp] theorem portOf_sendLldp (p k : Nat) (s : State) : portOf (sendLldp p s) k = portOf s k := by
  have hport := congrArg State.port (sendLldp_unstaged p s)
  exact congrArg (tget {} · k) hport

@[simp] theorem sendLldp_evt (p : Nat) (s : State) : (sendLldp p s).evt = s.evt := by
  have hevt := congrArg State.evt (sendLldp_unstaged p s)
  exact hevt

@[simp] theorem portOf_raise (src k : Nat) (s : State) : portOf (raise src s) k = portOf s k := by
  simp only [portOf, raise_port]

@[simp] theorem peEn_putPort (s : State) (p k : Nat) (x : PortSt) : peEn (putPort s p x) k = peEn s k := rfl

section
variable {p : Port} {s : State}

/-! ### A link's way up and down (R263, R264, R290) -/

/-- A port as its link comes up: the partner's Receive Tw is forgotten, and idle time starts (R263, R282). -/
def linkedUp (s : State) (p : Nat) : PortSt :=
  { portOf s p with
    link := true, mismatch := false, hiBer := false, blockLock := true, peerTw := none, idleSince := elapsed s
    inband := if hasInband s p then some (BitVec.ofNat 5 (24 + (portOf s p).speed)) else (portOf s p).inband }

/-- R263: outside pre-emption and bypass a link's way up is the port's own, then the event and the frame of R282. -/
theorem exec_linkUp_of_down (hen : (portOf s p.val).en = true) (hlink : (portOf s p.val).link = false)
    (hrecal : (portOf s p.val).recal = false) (hoff : (portOf s p.val).txOff = false) (hpe : peEn s p.val = false)
    (hclosed : s.fab.open_.getLsbD (p.val / 2) = false) :
    exec (.linkUp p) s
      = .next (sendLldp p.val (raise (evLinkUp p.val) (putPort s p.val (linkedUp s p.val)))) := by
  simp [exec, execLinkUp, linkedUp, hen, hlink, hrecal, hoff, hpe, hclosed]

/-- A link that is down already is not lost again. -/
theorem linkLost_of_down {lock : Bool} (hlink : (portOf s p.val).link = false) : linkLost p.val lock s = s := by
  simp [linkLost, hlink]

/-- R263: a word of another speed or of half duplex takes the link down and shows itself in the port's fields. -/
theorem exec_inbandMismatch_of_word {sp : BitVec 3} {fd : Bool} (hen : (portOf s p.val).en = true)
    (hinband : hasInband s p.val = true) (hword : sp.toNat ≠ (portOf s p.val).speed ∨ fd = false) :
    exec (.inbandMismatch p sp fd) s = .next (raise evInbandMismatch (putPort (linkLost p.val true s) p.val
      { portOf (linkLost p.val true s) p.val with
        mismatch := true, blockLock := true, inband := some (BitVec.ofNat 5 (16 + 8 * b2n fd + sp.toNat)) })) :=
  congrArg Host.Outcome.next (if_pos (by simpa [hen, hinband] using hword))

/-! ### Low-power idle (R255, R280 to R283) -/

/-- R255, R283: a frame that may start, or an opening one Dawn Lead away, wakes the port. -/
theorem exec_lpiWake_of_work (hwork : nothingStaged s p.val = false ∨ dawnNear s p.val 1 = true) :
    exec (.lpiWake p) s = .next (wake p.val s) :=
  congrArg Host.Outcome.next (if_pos (by simpa using hwork))

/-- R282: the port is awake once Tw_sys_tx has passed since its wake. -/
theorem exec_lpiWakeDone_of_past (hwaking : (portOf s p.val).waking = true)
    (hpast : (portOf s p.val).wakeAt + twNs s p.val ≤ elapsed s) :
    exec (.lpiWakeDone p) s = .next (putPort s p.val { portOf s p.val with waking := false }) := by
  simp [exec, execLpiWakeDone, hwaking, hpast]

/-- The partner's low-power idle starts: it is counted, and its time runs from now. -/
theorem exec_rxLpiSignaled_enters {us : Nat} (hlink : (portOf s p.val).link = true) (hidle : (portOf s p.val).rxLpi = false) :
    exec (.rxLpiSignaled p us true) s
      = .next (portCount p.val 33 1 (putPort s p.val { portOf s p.val with rxLpi := true, rxLpiSince := elapsed s })) := by
  simp [exec, execRxLpiSignaled, hlink, hidle]

/-- The partner's low-power idle ends: its whole microseconds are counted first. -/
theorem exec_rxLpiSignaled_leaves {us : Nat} (hlink : (portOf s p.val).link = true) :
    exec (.rxLpiSignaled p us false) s
      = .next (putPort (accrueRxLpi p.val s) p.val { portOf (accrueRxLpi p.val s) p.val with rxLpi := false }) := by
  simp [exec, execRxLpiSignaled, hlink]

/-! ### LLDP and FEC (R243, R280, R282) -/

/-- R282: the partner's values go to the rim as a set, and the part's own frame answers (log entry 96). -/
theorem exec_lldpEeeTlvRx_of_link {n : Nat} {fr : BitVec 2} (hconsuming : consuming s = true)
    (hlink : (portOf s p.val).link = true) :
    exec (.lldpEeeTlvRx p n fr) s
      = .next (sendLldp p.val (pushSet [.portPeer p.val (if n ≤ 255 then some n else none) fr] s)) := by
  simp [exec, execLldpEeeTlvRx, hconsuming, hlink]

/-- R282: at age-out the partner's Receive Tw goes, and its addFragSize stands (log entry 137). -/
theorem exec_lldpTlvAgeOut_of_consuming (hconsuming : consuming s = true) :
    exec (.lldpTlvAgeOut p) s = .next (pushSet [.portPeer p.val none (gateOf s p.val).peerFrag] s) :=
  congrArg Host.Outcome.next (if_pos hconsuming)

/-- R280: an uncorrectable block is counted and told where FEC is in use. -/
theorem exec_fecUncorrectableBlock_of_fec (hen : (portOf s p.val).en = true) (hfec : regFld s .portPcsCfg [p.val] 0 2 ≠ 0) :
    exec (.fecUncorrectableBlock p) s = .next (raise evFecUncorr (portCount p.val 37 1 s)) := by
  simp [exec, execFecUncorrectableBlock, hen, hfec]

end

/-- Settles O30: a link's way up is an update of its own port, an event, and a frame whose staging touches neither ports nor events;
the other rows each on their own path. -/
theorem linkEventsComplete : Obligations.LinkEventsComplete := by
  unfold Obligations.LinkEventsComplete
  refine ⟨?up, ?down, ?inband, ?lpiEnters, ?lpiWakes, ?awake, ?lldpHeard, ?lldpAged, ?fec, ?rxLpiEnters, ?rxLpiLeaves, ?lockMoves⟩
  case up =>
    rintro p s _ rfl hen hlink hrecal hoff hpe hclosed
    refine ⟨_, exec_linkUp_of_down hen hlink hrecal hoff hpe hclosed, ?_⟩
    simp only [portOf_sendLldp, portOf_raise, portOf_putPort_self, sendLldp_evt]
    exact ⟨rfl, rfl, rfl, rfl, raise_sets_bit (evtBit_ne_zero (by simp only [evLinkUp]; omega)) _,
      fun k hk => portOf_putPort_ne s _ hk⟩
  case down =>
    rintro p lock ber s _ hlink rfl
    exact congrArg Host.Outcome.next (if_pos hlink)
  case inband => exact fun p sp fd s hen hinband hword => exec_inbandMismatch_of_word hen hinband hword
  case lpiEnters =>
    rintro p s _ rfl hlink hen heee hpeer hidle hwaking hwire hcut hstaged hopen hlong
    exact congrArg Host.Outcome.next
      (if_pos (by simp [hlink, hen, heee, hpeer, hidle, hwaking, hwire, hcut, hstaged, hopen, hlong]))
  case lpiWakes => exact fun p s hwork => exec_lpiWake_of_work hwork
  case awake => exact fun p s hwaking hpast => exec_lpiWakeDone_of_past hwaking hpast
  case lldpHeard => exact fun p n fr s hconsuming hlink => exec_lldpEeeTlvRx_of_link hconsuming hlink
  case lldpAged => exact fun p s hconsuming => exec_lldpTlvAgeOut_of_consuming hconsuming
  case fec => exact fun p s hen hfec => exec_fecUncorrectableBlock_of_fec hen hfec
  case rxLpiEnters => exact fun p us s hlink hidle => exec_rxLpiSignaled_enters hlink hidle
  case rxLpiLeaves =>
    rintro p us s _ hlink rfl
    exact exec_rxLpiSignaled_leaves hlink
  case lockMoves =>
    intro p lock ber s hlink hen
    simp [exec, execLinkDown, linkLost_of_down hlink, hlink, hen]

end Sys2Proof.Machine
end

section
/-!
The vector recovery function (R309): what a frame leaves of the function that it reaches is the row of the table that applies, and
the rows are equations of `vectorRec`.
-/

namespace Sys2Proof.Machine

/-! ### The rows of the table (R309) -/

section
variable {x : SeqRec} {q : BitVec 16}

/-- Row 1, TAKE_ANY = 1. -/
theorem vectorRec_of_takeAny (hany : x.takeAny = true) :
    vectorRec x q = ({ x with recov := q, hist := 1, takeAny := false }, { pass := true, passed := 1 }) := by
  simp [vectorRec, hany]

/-- Row 2, |d| ≥ HISTORY: rogue. -/
theorem vectorRec_of_far (hany : x.takeAny = false) (hfar : (x.history : Int) ≤ |seqDiff q x.recov|) :
    vectorRec x q = (x, { rogue := 1 }) := by
  have hmag : x.history ≤ (seqDiff q x.recov).natAbs := by rwa [Int.abs_eq_natAbs, Int.ofNat_le] at hfar
  simp [vectorRec, hany, hmag]

/-- Row 3, 0 < d < HISTORY: the history shifts by d, and each 0 that leaves it is a lost number. -/
theorem vectorRec_of_ahead {d : Nat} (hany : x.takeAny = false) (hd : seqDiff q x.recov = d) (hpos : 0 < d)
    (hnear : d < x.history) :
    vectorRec x q
      = ({ x with recov := q, hist := ((x.hist <<< d) ||| 1) &&& BitVec.ofNat 128 (2 ^ x.history - 1) },
          { pass := true, passed := 1, lost := zerosFrom x.hist (x.history - d) d }) := by
  simp [vectorRec, hany, hd, hpos, hnear.not_ge]

/-- Row 4, −HISTORY < d ≤ 0 and bit −d is 1: a duplicate. -/
theorem vectorRec_of_duplicate {d : Nat} (hany : x.takeAny = false) (hd : seqDiff q x.recov = -(d : Int))
    (hnear : d < x.history) (hbit : x.hist.getLsbD d = true) : vectorRec x q = (x, { discarded := 1 }) := by
  simp [vectorRec, hany, hd, hnear.not_ge, hbit]

/-- Row 5, −HISTORY < d and bit −d is 0: the late frame passes and leaves its own bit. -/
theorem vectorRec_of_outOfOrder {d : Nat} (hany : x.takeAny = false) (hd : seqDiff q x.recov = -(d : Int))
    (hnear : d < x.history) (hbit : x.hist.getLsbD d = false) :
    vectorRec x q = ({ x with hist := x.hist ||| (1#128 <<< d) }, { pass := true, passed := 1, outOfOrder := 1 }) := by
  simp [vectorRec, hany, hd, hnear.not_ge, hbit]

end

/-! ### The bits of the history -/

/-- Bit k of a history of n bits that has shifted up by d and taken its new bit 0. -/
theorem getLsbD_shiftedHistory (h : BitVec 128) (d n : Nat) {k : Nat} (hk : k < 128) :
    (((h <<< d) ||| 1) &&& BitVec.ofNat 128 (2 ^ n - 1)).getLsbD k
      = (decide (k < n) && (decide (k = 0) || (decide (d ≤ k) && h.getLsbD (k - d)))) := by
  have hmask : (BitVec.ofNat 128 (2 ^ n - 1)).getLsbD k = decide (k < n) := by
    rw [BitVec.getLsbD_ofNat, Nat.testBit_two_pow_sub_one, decide_eq_true hk, Bool.true_and]
  have hone : (1 : BitVec 128).getLsbD k = decide (k = 0) := by simp [BitVec.getLsbD_one]
  have hshift : (h <<< d).getLsbD k = (decide (d ≤ k) && h.getLsbD (k - d)) := by
    rw [BitVec.getLsbD_shiftLeft, decide_eq_true hk, Bool.true_and, ← decide_not, decide_eq_decide.mpr Nat.not_lt]
  rw [BitVec.getLsbD_and, BitVec.getLsbD_or, hmask, hone, hshift, Bool.and_comm, Bool.or_comm]

/-- Bit k of a history in which bit d has been set. -/
theorem getLsbD_markedHistory (h : BitVec 128) (d : Nat) {k : Nat} (hk : k < 128) :
    (h ||| (1#128 <<< d)).getLsbD k = (decide (k = d) || h.getLsbD k) := by
  have hone : (1#128 <<< d).getLsbD k = decide (k = d) := by
    rw [BitVec.getLsbD_shiftLeft, BitVec.getLsbD_one, Bool.eq_iff_iff]
    simp only [Bool.and_eq_true, Bool.not_eq_true', decide_eq_true_eq, decide_eq_false_iff_not]
    omega
  rw [BitVec.getLsbD_or, hone, Bool.or_comm]

/-! ### A frame reaches the function -/

@[simp] theorem recOf_count (g : Reg) (is : List Nat) (lo n k : Nat) (s : State) : recOf (count g is lo n s) k = recOf s k := rfl

@[simp] theorem recOf_raiseS (src k : Nat) (s : State) : recOf (raiseS src s) k = recOf s k := rfl

/-- A function after a frame of elapsed receive time `el`: a passed frame leaves its time (R311). -/
def stampPass (el : Nat) (v : SeqRec × RecEnd) : SeqRec :=
  if v.2.pass then { v.1 with lastPass := el } else v.1

theorem stampPass_of_passed (el : Nat) (y : SeqRec) {o : RecEnd} (ho : o.pass = true) :
    stampPass el (y, o) = { y with lastPass := el } := by
  simp [stampPass, ho]

theorem stampPass_of_discarded (el : Nat) (y : SeqRec) {o : RecEnd} (ho : o.pass = false) : stampPass el (y, o) = y := by
  simp [stampPass, ho]

section
variable {r el : Nat} {f : List Byte} {s : State} {q : BitVec 16} {x : SeqRec}
variable (hx : recOf s r = x) (hen : x.en = true) (halg : x.alg = false) (htag : rtagOf f = some q) (hdue : frerDue x el = false)
include hx hen halg htag hdue

/-- Whether a tagged frame passes an enabled function of ALG 0 is the table's answer. -/
theorem recover_passes : (recover r f el s).2 = (vectorRec x q).2.pass := by
  simp [recover, hx, hdue, hen, halg, htag]

/-- The counters and the event that follow a frame change no recovery function: each is what storing the table's answer leaves. -/
theorem recOf_recover (k : Nat) :
    recOf (recover r f el s).1 k = recOf (putRec s r (stampPass el (vectorRec x q))) k := by
  simp only [recover, hx, hdue, hen, halg, htag, stampPass, Bool.not_true, Bool.false_eq_true, if_false]
  split
  · simp only [recOf_count]
  · simp only [recOf_raiseS, recOf_count]

theorem recOf_recover_self : recOf (recover r f el s).1 r = stampPass el (vectorRec x q) :=
  (recOf_recover hx hen halg htag hdue r).trans (recOf_putRec_self ..)

theorem recOf_recover_ne {k : Nat} (hk : k ≠ r) : recOf (recover r f el s).1 k = recOf s k :=
  (recOf_recover hx hen halg htag hdue k).trans (recOf_putRec_ne s _ hk)

end

/-- Settles O59: the function is what the row of R309's table that applies leaves, and a passed frame's row is read bit by bit. -/
theorem sequenceRecoveryVector : Obligations.SequenceRecoveryVector := by
  unfold Obligations.SequenceRecoveryVector
  intro r f el s q x hx hen halg htag hdue
  rw [recover_passes hx hen halg htag hdue, recOf_recover_self hx hen halg htag hdue]
  refine ⟨fun k hk => recOf_recover_ne hx hen halg htag hdue hk, ?takeAny, ?rogue, ?ahead, ?duplicate, ?outOfOrder⟩
  case takeAny =>
    intro hany
    rw [vectorRec_of_takeAny hany]
    exact ⟨rfl, stampPass_of_passed el _ rfl⟩
  case rogue =>
    intro hany hfar
    rw [vectorRec_of_far hany hfar]
    exact ⟨rfl, stampPass_of_discarded el x rfl⟩
  case ahead =>
    intro d hany hd hpos hnear _
    rw [vectorRec_of_ahead hany hd hpos hnear, stampPass_of_passed el _ rfl]
    exact ⟨rfl, rfl, hany, fun k hk => getLsbD_shiftedHistory x.hist d x.history hk⟩
  case duplicate =>
    intro d hany hd hnear hbit
    rw [vectorRec_of_duplicate hany hd hnear hbit]
    exact ⟨rfl, stampPass_of_discarded el x rfl⟩
  case outOfOrder =>
    intro d hany hd hnear _ hbit
    rw [vectorRec_of_outOfOrder hany hd hnear hbit, stampPass_of_passed el _ rfl]
    exact ⟨rfl, rfl, fun k hk => getLsbD_markedHistory x.hist d hk⟩

end Sys2Proof.Machine
end

section
/-!
The rows of the field ports and of the aggregation functions (R327 to R343): a frame's start and end on a field port, the delivery of
what it received, its enqueues, the end of what it sends, its settings, the bus-off and PLCA states, and the runs of the functions.
-/

namespace Sys2Proof.Machine

section
variable {n : FPort} {s : State}

/-! ### Reception (R329, R330, R332, R506) -/

/-- R330: the space that a frame's start reserves, by the role of its port. -/
def rxReservation (x : FldP) : Nat := if x.cfg.role = 2 then 2080 else 1536

section
variable {x : FldP}
variable (hx : fldOf (leaveBus n.val s) n.val = x) (hrole : x.cfg.role ≠ 0) (hon : x.busOff = false) (hidle : x.rx = none)
variable (hviof : viofOk s n.val = true)
include hx hrole hon hidle hviof

/-- R330, R335: what the port had on the bus leaves it, and the frame's whole reservation is made as it starts. -/
theorem exec_fieldFrameRxStart_reserved {u : State}
    (hbuf : s.fld.held + rxReservation x ≤ regFld s .fldBufCfg [] 0 16 * 1024) (hfree : rxReservation x ≤ sharedFree s)
    (hu : u = fwStart 4 (putFld (leaveBus n.val s) n.val { x with rx := some (rxReservation x), rxTs := tsNow s 0 })) :
    exec (.fieldFrameRxStart n) s = .next { u with fld := { u.fld with held := u.fld.held + rxReservation x } } := by
  subst hu
  unfold rxReservation at hbuf hfree ⊢
  simp [exec, execFieldFrameRxStart, hx, hrole, hon, hidle, hviof, hbuf, hfree]

/-- R330: a frame that FLD_BUF_CFG leaves no space is dropped whole, counted and told. -/
theorem exec_fieldFrameRxStart_overflows (hbuf : regFld s .fldBufCfg [] 0 16 * 1024 < s.fld.held + rxReservation x) :
    exec (.fieldFrameRxStart n) s
      = .next (raise evFldRxOvf (fldCount n.val 2 1 (putFld (leaveBus n.val s) n.val { x with rx := some 0 }))) := by
  unfold rxReservation at hbuf
  simp [exec, execFieldFrameRxStart, hx, hrole, hon, hidle, hviof, Nat.not_le.mpr hbuf]

end

section
variable {r : Nat} (hrx : (fldOf s n.val).rx = some (r + 1)) (hruns : (chanOf s 4).halted = false)
include hrx hruns

/-- R506: a bank without its supply ends the frame early, and nothing is sent. -/
theorem exec_fieldFrameRxEnd_of_viof (e : FldRxEnd) (hviof : viofOk s n.val = false) :
    exec (.fieldFrameRxEnd n e) s = .next (fieldAbort n.val (r + 1) s) := by
  simp [exec, execFieldFrameRxEnd, hrx, hruns, hviof]

variable (hviof : viofOk s n.val = true)
include hviof

theorem exec_fieldFrameRxEnd_good {f : FldFrame} (htaken : fmtTaken (fldOf s n.val).cfg f = true) :
    exec (.fieldFrameRxEnd n (.good f)) s = .next (fieldMoved n.val f.data.length (fieldEnd n.val (r + 1) f s)) := by
  simp [exec, execFieldFrameRxEnd, hrx, hruns, hviof, htaken]

/-- A frame of a format that the port does not take part in breaks its protocol (log entry 118). -/
theorem exec_fieldFrameRxEnd_foreign {f : FldFrame} (htaken : fmtTaken (fldOf s n.val).cfg f = false) :
    exec (.fieldFrameRxEnd n (.good f)) s = .next (startField n.val (fieldAbort n.val (r + 1) s)) := by
  simp [exec, execFieldFrameRxEnd, hrx, hruns, hviof, htaken]

theorem exec_fieldFrameRxEnd_error :
    exec (.fieldFrameRxEnd n .error) s = .next (startField n.val (fieldAbort n.val (r + 1) s)) := by
  simp [exec, execFieldFrameRxEnd, hrx, hruns, hviof]

theorem exec_fieldFrameRxEnd_filtered :
    exec (.fieldFrameRxEnd n .filtered) s = .next (fieldMoved n.val 0 (fieldDrop n.val 3 (r + 1) s)) := by
  simp [exec, execFieldFrameRxEnd, hrx, hruns, hviof]

end

/-- R332, R383: the oldest summary of the port is consumed as of its record. -/
theorem exec_fieldRxDeliver_of_summary {b : List Byte} {ts : Ts} {st : Stamp} {r : List (List Byte × Ts × Stamp)}
    (hsums : (fldOf s n.val).sums = (b, ts, st) :: r) (hconsuming : consuming s = true) :
    exec (.fieldRxDeliver n) s = .next (consumeAt st (deliverRx (bitsN (setAt (fldOf s n.val).cfg 0 2) 10 2)
      (bitsN (setAt (fldOf s n.val).cfg 0 2) 0 10) (0x100 + n.val) b ts 0 false id id 33 b.length)
      (putFld s n.val { fldOf s n.val with sums := r })) := by
  simp [exec, execFieldRxDeliver, hsums, hconsuming]

/-! ### Transmission (R328, R329, R335, R336) -/

/-- R23, R45: an enqueue of a side that may not write is counted and changes nothing else. -/
theorem exec_fieldEnqueue_gated {d : SideId} (num : W32) (hwrite : mayWrite d s = false) :
    exec (.fieldEnqueue n num d) s = .next (gatedWrite d s) :=
  congrArg Host.Outcome.next (if_pos (by simp [hwrite]))

/-- R336: the rim takes the enqueue whose number follows the last one taken. -/
theorem exec_fieldEnqueue_next {d : SideId} {f : FldTx} {r : List FldTx} (hwrite : mayWrite d s = true)
    (hnext : f.num = (fldOf s n.val).enq + 1) (hwait : (fldOf s n.val).enqWait = f :: r) :
    exec (.fieldEnqueue n f.num d) s
      = .next (takeEnqueue n.val f (putFld s n.val { fldOf s n.val with enqWait := r })) := by
  simp [exec, execFieldEnqueue, hwrite, hwait, hnext]

section
variable {x : FldP} {f : FldTx} {b : FldBus}
variable (hx : fldOf s n.val = x) (hbus : x.bus = some b) (hsent : x.txq[busIdx x]? = some f) (hon : x.busOff = false)
variable (hviof : viofOk s n.val = true)
include hx hbus hsent hon hviof

theorem exec_fieldTxEnd_ok :
    exec (.fieldTxEnd n true) s
      = .next (fieldSent n.val 6 f { x with txq := x.txq.eraseIdx (busIdx x), tec := x.tec - 1, link := true } s) := by
  simp [exec, execFieldTxEnd, hx, hbus, hsent, hon, hviof]

/-- R328: a failed frame of role 1 is dropped. -/
theorem exec_fieldTxEnd_dropped (hrole : x.cfg.role = 1) :
    exec (.fieldTxEnd n false) s = .next (fieldSent n.val 10 f { x with txq := x.txq.eraseIdx (busIdx x) } s) := by
  simp [exec, execFieldTxEnd, hx, hbus, hsent, hon, hviof, hrole]

/-- R329: a failed CAN frame that is not one shot stands, and takes the port off the bus at the bound (log entry 27). -/
theorem exec_fieldTxEnd_busOff (hrole : x.cfg.role ≠ 1) (herrs : errsOut x = true) (hshot : setBit x.cfg 2 3 = false) :
    exec (.fieldTxEnd n false) s = .next (goBusOff n.val (fldCount n.val 4 1 s)) := by
  simp [exec, execFieldTxEnd, hx, hbus, hsent, hon, hviof, hrole, herrs, hshot]

/-- R329: below the bound the frame stands, and is tried again (log entry 27). -/
theorem exec_fieldTxEnd_retried (hrole : x.cfg.role ≠ 1) (herrs : errsOut x = false) (hshot : setBit x.cfg 2 3 = false) :
    exec (.fieldTxEnd n false) s = .next (startField n.val (leaveBus n.val (putFld (fldCount n.val 4 1 s) n.val
      (passiveOf { x with tec := min 511 (x.tec + 8) })))) := by
  simp [exec, execFieldTxEnd, hx, hbus, hsent, hon, hviof, hrole, herrs, hshot]

end

/-! ### Settings, CAN and PLCA (R327 to R329, R346) -/

section
variable {x : FldP} (hx : fldOf s n.val = x)
include hx

/-- R327, R346: with no frame on the bus the waiting setting takes effect; in Safe-Hold its SAFE_SILENT silences the port. -/
theorem exec_fieldSettingApply_of_waiting {y : FldSet} (hnext : x.next = some y) (hrx : x.rx = none) (hbus : x.bus = none)
    (hrole : y.role ≠ 0) :
    exec (.fieldSettingApply n) s = .next (startField n.val (putFld s n.val { x with
      cfg := y, next := none, link := false, busOff := false, passive := false, tec := 0, recErr := 0, csma := false,
      plcaOk := false, silent := s.glb.mode == 11 && bitN (setAt y 2 1) 2 })) := by
  simp [exec, execFieldSettingApply, applyField, hx, hnext, hrx, hbus, hrole, bne_iff_ne.mpr hrole]

/-- R329: a port of role 2 goes off the bus once a further error takes TEC beyond 255 (log entry 27). -/
theorem exec_canBusOff_of_errors (hrole : x.cfg.role = 2) (hon : x.busOff = false) (htec : 248 ≤ x.tec) :
    exec (.canBusOff n) s = .next (raise evFldBusoff (fldCount n.val 11 1 (leaveBus n.val (putFld s n.val
      { x with busOff := true, link := false, tec := min 511 (x.tec + 8) })))) := by
  simp [exec, execCanBusOff, errsOut, goBusOff, hx, hrole, hon, htec]

theorem exec_canBusOff_below (htec : x.tec < 248) : exec (.canBusOff n) s = .next s := by
  simp [exec, execCanBusOff, errsOut, hx, Nat.not_le.mpr htec]

/-- R329: a port that recovers by itself is back on the bus with its counts at 0. -/
theorem exec_busoffRecovery_of_busOff (hrole : x.cfg.role = 2) (hoff : x.busOff = true) (hauto : setBit x.cfg 0x0C 5 = true) :
    exec (.busoffRecovery n) s = .next (startField n.val (putFld s n.val
      { x with busOff := false, link := true, passive := false, tec := 0, recErr := 0 })) := by
  simp [exec, execBusoffRecovery, hx, hrole, hoff, hauto]

/-- R328: a follower without BEACONs goes on with CSMA/CD. -/
theorem exec_plcaBeaconLoss_of_follower (hfollows : plcaFollower x = true) (hplca : x.csma = false) :
    exec (.plcaBeaconLoss n) s = .next (raise evPlcaLost (putFld s n.val { x with csma := true, plcaOk := false })) := by
  simp [exec, execPlcaBeaconLoss, hx, hfollows, hplca]

theorem exec_plcaBeaconReturn_of_follower (k : Nat) (hfollows : plcaFollower x = true) :
    exec (.plcaBeaconReturn n k) s
      = .next (putFld s n.val { x with csma := false, plcaOk := true, beaconCount := k }) := by
  simp [exec, execPlcaBeaconReturn, hx, hfollows]

end

end

section
variable {a : AggId} {s : State}

/-! ### Runs of aggregation functions (R340, R343) -/

/-- R340: one trigger of a tape entry starts every function that names the entry, at the trigger's own time. -/
theorem exec_gatherTrigger_of_trigger {t : Nat × Nat × Nat} {r : List (Nat × Nat × Nat)} (hconsuming : consuming s = true)
    (hmode : s.glb.mode ≠ 11)
    (hfirst : takeFirst (fun t : Nat × Nat × Nat => trigMatch (seenAgg s a.val) t.1 t.2.1) s.jrn.triggers = some (t, r))
    (hroom : trigRoom s (trigAggs s t.1 t.2.1) = true) :
    exec (.gatherTrigger a) s = .next ((trigAggs s t.1 t.2.1).foldl (fun s i => triggerRun t.2.2 i s)
      { s with jrn := { s.jrn with triggers := r } }) := by
  simp [exec, execGatherTrigger, hconsuming, hmode, hfirst, hroom]

/-- R340: the run is over and counted, and its frame enters the flow queue of its function, where that is enabled. -/
theorem exec_gatherBuildEnd_of_flow {r : AggRun} {u v : State} (hbuilding : (aggOf s a.val).building = some r)
    (hdispatching : dispatching s = true) (hruns : (chanOf s 2).halted = false)
    (hu : u = countS .fldAggRuns [a.val] 0 1 (putAgg s a.val { aggOf s a.val with
      building := none, runCnt := runDone r (aggOf s a.val) }))
    (hv : v = fwEnd 2 r.bytes.length (someBuilds u) u) (hen : (flowOf v r.flow).en = true) :
    exec (.gatherBuildEnd a) s = .next (enterFlow r.flow .gather r.tag r.bytes v) := by
  subst hu hv
  simp [exec, execGatherBuildEnd, hbuilding, hdispatching, hruns, hen]

/-- R181, R343: the scatter's frames are enqueued, unless channel 3 is halted. -/
theorem exec_scatterWriteEnd_of_running (hdispatching : dispatching s = true) (hruns : (chanOf s 3).halted = false) :
    exec (.scatterWriteEnd a) s = .next (scatterEnd a.val s) :=
  congrArg Host.Outcome.next (if_pos (by simp [hdispatching, hruns]))

end

/-- Settles O41: a frame's start by whether its reservation can be made; the ends of a frame, received or sent, by what its port takes
part in; each other row's guard holds in the states of its path. -/
theorem fieldEventsComplete : Obligations.FieldEventsComplete := by
  unfold Obligations.FieldEventsComplete
  refine ⟨?reserved, ?overflows, ?good, ?foreign, ?cut, ?early, ?delivers, ?enqueues, ?gated, ?sent, ?dropped, ?offTheBus, ?retried,
    ?applies, ?busOff, ?below, ?recovers, ?beaconLost, ?beaconBack, ?triggered, ?built, ?scattered⟩
  case reserved =>
    rintro n s _ x _ u rfl hx hrole hon hidle hviof rfl hbuf hfree hu
    exact exec_fieldFrameRxStart_reserved hx.symm hrole hon hidle hviof hbuf hfree hu
  case overflows =>
    rintro n s _ x _ rfl hx hrole hon hidle hviof rfl hbuf
    exact exec_fieldFrameRxStart_overflows hx.symm hrole hon hidle hviof hbuf
  case good => exact fun n f s r hrx hruns hviof htaken => exec_fieldFrameRxEnd_good hrx hruns hviof htaken
  case foreign => exact fun n f s r hrx hruns hviof htaken => exec_fieldFrameRxEnd_foreign hrx hruns hviof htaken
  case cut => exact fun n e s r hrx hruns hviof => exec_fieldFrameRxEnd_of_viof hrx hruns e hviof
  case early =>
    exact fun n s r hrx hruns hviof =>
      ⟨exec_fieldFrameRxEnd_error hrx hruns hviof, exec_fieldFrameRxEnd_filtered hrx hruns hviof⟩
  case delivers => exact fun n s b ts st r hsums hconsuming => exec_fieldRxDeliver_of_summary hsums hconsuming
  case enqueues =>
    rintro d n _ s f r hwrite hnext hwait rfl
    exact exec_fieldEnqueue_next hwrite hnext hwait
  case gated => exact fun d n num s hwrite => exec_fieldEnqueue_gated num hwrite
  case sent => exact fun n s x f b hx hbus hsent hon hviof => exec_fieldTxEnd_ok hx.symm hbus hsent hon hviof
  case dropped =>
    exact fun n s x f b hx hbus hsent hon hviof hrole => exec_fieldTxEnd_dropped hx.symm hbus hsent hon hviof hrole
  case offTheBus =>
    exact fun n s x f b hx hbus hsent hon hviof hrole herrs hshot =>
      exec_fieldTxEnd_busOff hx.symm hbus hsent hon hviof hrole herrs hshot
  case retried =>
    exact fun n s x f b hx hbus hsent hon hviof hrole herrs hshot =>
      exec_fieldTxEnd_retried hx.symm hbus hsent hon hviof hrole herrs hshot
  case applies =>
    exact fun n s x y hx hnext hrx hbus hrole => exec_fieldSettingApply_of_waiting hx.symm hnext hrx hbus hrole
  case busOff => exact fun n s x hx hrole hon htec => exec_canBusOff_of_errors hx.symm hrole hon htec
  case below => exact fun n s htec => exec_canBusOff_below rfl htec
  case recovers => exact fun n s x hx hrole hoff hauto => exec_busoffRecovery_of_busOff hx.symm hrole hoff hauto
  case beaconLost => exact fun n s x hx hfollows hplca => exec_plcaBeaconLoss_of_follower hx.symm hfollows hplca
  case beaconBack => exact fun n k s x hx hfollows => exec_plcaBeaconReturn_of_follower hx.symm k hfollows
  case triggered =>
    rintro a s t r _ hconsuming hmode hfirst rfl hroom
    exact exec_gatherTrigger_of_trigger hconsuming hmode hfirst hroom
  case built =>
    exact fun a s r u v hbuilding hdispatching hruns hu hv hen =>
      exec_gatherBuildEnd_of_flow hbuilding hdispatching hruns hu hv hen
  case scattered => exact fun a s hdispatching hruns => exec_scatterWriteEnd_of_running hdispatching hruns

end Sys2Proof.Machine
end

section
/-!
The Chess Clock's grant (R359, R366): which press wins, and what the grant of a forced Castling makes of the sides.
-/

namespace Sys2Proof.Machine

/-- White wins a tie; else the earlier press wins. -/
theorem pressWinner_of_both {s : State} (hw : s.sides.white.press = true) (hb : s.sides.black.press = true) :
    pressWinner s = some (if s.sides.white.pressTick ≤ s.sides.black.pressTick then .white else .black) := by
  by_cases hearly : s.sides.white.pressTick ≤ s.sides.black.pressTick <;> simp [pressWinner, hw, hb, hearly]

theorem exec_chessClockGrant_of_winner {d : SideId} {s : State} (hh : s.sides.holder = none) (hp : pressWinner s = some d) :
    exec .chessClockGrant s = .next (grantTo d s) := by
  show execChessClockGrant s = _
  simp [execChessClockGrant, hh, hp]

/-- The Clock's own part of a grant: the winner alone holds it, and the grant has its record. -/
def clockTaken (d : SideId) (s : State) : State :=
  let t := updSide (other d) (fun x => { x with press := false })
    (putSide s d { sideOf s d with state := 5, press := false, alive := (sideOf s d).healthy })
  timeRecord .grant { t with sides := { t.sides with holder := some d, lastGrant := BitVec.ofNat 64 (netNs t) } }

section
variable (d : SideId) (s : State)

theorem clockTaken_holder : (clockTaken d s).sides.holder = some d := rfl

theorem clockTaken_lastGrant : (clockTaken d s).sides.lastGrant = BitVec.ofNat 64 (netNs s) := by cases d <;> rfl

theorem clockTaken_handover : (clockTaken d s).sides.handover = s.sides.handover := by cases d <;> rfl

theorem clockTaken_glb : (clockTaken d s).glb = s.glb := by cases d <;> rfl

theorem clockTaken_pending : (clockTaken d s).jrn.pending = s.jrn.pending := by cases d <;> rfl

theorem sideOf_clockTaken_self :
    sideOf (clockTaken d s) d = { sideOf s d with state := 5, press := false, alive := (sideOf s d).healthy } := by
  cases d <;> rfl

theorem sideOf_clockTaken_other : sideOf (clockTaken d s) (other d) = { sideOf s (other d) with press := false } := by
  cases d <;> rfl

end

theorem settlePending_of_none {s : State} (h : s.jrn.pending = none) (d : SideId) : settlePending d s = s := by
  simp [settlePending, h]

theorem handedOver_of_none {s : State} (h : s.sides.handover = .none) (d : SideId) : handedOver d s = s := by
  simp [handedOver, h]

/-- A replay changes the dispatch alone in the sides' state. -/
theorem beginReplay_sides (s : State) : (beginReplay s).sides = { s.sides with disp := .replay } := rfl

theorem confirmBoot_sides (d : SideId) (s : State) : (confirmBoot d s).sides = s.sides := putFlash_sides s d _

theorem confirmBoot_glb (d : SideId) (s : State) : (confirmBoot d s).glb = s.glb := putFlash_glb s d _

/-- The grant of a forced Castling takes the Clock, confirms the winner's boot and begins the replay. -/
theorem grantTo_of_forced {d : SideId} {s : State} (hhand : s.sides.handover = .none) (hmode : s.glb.mode = 7)
    (hcastle : s.sides.castling = some true) (hpend : s.jrn.pending = none) :
    grantTo d s = beginReplay { confirmBoot d (clockTaken d s) with
      sides := { (clockTaken d s).sides with lsHold := false } } := by
  have hsettled : settlePending d (clockTaken d s) = clockTaken d s :=
    settlePending_of_none ((clockTaken_pending d s).trans hpend) d
  have hhanded : handedOver d (clockTaken d s) = clockTaken d s :=
    handedOver_of_none ((clockTaken_handover d s).trans hhand) d
  unfold grantTo
  extract_lets lock _ _ _ taken confirmed stepped _ _ _ _ _ _ restored
  have hlock : ¬ lock = true := by simp [lock, hcastle]
  have hconfirmed : confirmed = confirmBoot d (clockTaken d s) := by
    show confirmBoot d (handedOver d (if lock = true then clockTaken d s else settlePending d (clockTaken d s))) = _
    rw [if_neg hlock, hsettled, hhanded]
  have hmode' : confirmed.glb.mode = 7 := by rw [hconfirmed, confirmBoot_glb, clockTaken_glb, hmode]
  have hstepped : stepped = confirmed := if_neg (by simp [hmode'])
  have hrestored : restored = confirmed := by simp [restored, hstepped, hmode']
  rw [if_neg (by simp [hstepped, hmode']), if_neg hlock]
  show beginReplay { restored with sides := { restored.sides with lsHold := false } } = _
  rw [hrestored, hconfirmed, confirmBoot_sides]

theorem exec_chessClockGrant_of_forced {d : SideId} {s : State} (hh : s.sides.holder = none) (hp : pressWinner s = some d)
    (hhand : s.sides.handover = .none) (hmode : s.glb.mode = 7) (hcastle : s.sides.castling = some true)
    (hpend : s.jrn.pending = none) :
    ∃ t, exec .chessClockGrant s = .next t ∧ t.sides = { (clockTaken d s).sides with lsHold := false, disp := .replay } :=
  ⟨_, exec_chessClockGrant_of_winner hh hp, by rw [grantTo_of_forced hhand hmode hcastle hpend, beginReplay_sides]⟩

/-- Settles O36: the winner of the presses is named by their ticks, and the grant of a forced Castling leaves the sides as the Clock
took them. -/
theorem clockGrantsOneSide : Obligations.ClockGrantsOneSide := by
  unfold Obligations.ClockGrantsOneSide
  refine ⟨fun s hw hb => pressWinner_of_both hw hb, ?_⟩
  intro s d hh hp hhand hmode hcastle hpend _ _
  obtain ⟨t, hexec, hsides⟩ := exec_chessClockGrant_of_forced hh hp hhand hmode hcastle hpend
  have hself : sideOf t d = sideOf (clockTaken d s) d := by cases d <;> simp [sideOf, hsides]
  have hother : sideOf t (other d) = sideOf (clockTaken d s) (other d) := by cases d <;> simp [sideOf, other, hsides]
  rw [sideOf_clockTaken_self] at hself
  rw [sideOf_clockTaken_other] at hother
  refine ⟨t, hexec, ?_, by rw [hself], by rw [hself], by rw [hother], by rw [hsides], ?_⟩
  · rw [hsides]; exact clockTaken_holder d s
  · rw [hsides]; exact clockTaken_lastGrant d s

end Sys2Proof.Machine
end

section
/-!
The Chess Clock's rows (R31, R353 to R365, R387 to R389): the pulses and the Mirror Link, the presses, the handover and the commit of a
Move. Each row in the states of its own path.
-/

namespace Sys2Proof.Machine

variable {d h : SideId} {s : State}

/-! ### Alive pulses and Flag Fall (R353, R354) -/

@[simp] theorem updSide_updSide (d : SideId) (f g : SideRec → SideRec) (s : State) :
    updSide d f (updSide d g s) = updSide d (fun r => f (g r)) s := by cases d <;> rfl

@[simp] theorem sideOf_updSide_self (d : SideId) (f : SideRec → SideRec) (s : State) :
    sideOf (updSide d f s) d = f (sideOf s d) := sideOf_putSide_self s d _

@[simp] theorem sideOf_updSide_other (d : SideId) (f : SideRec → SideRec) (s : State) :
    sideOf (updSide d f s) (other d) = sideOf s (other d) := sideOf_putSide_other s d _

/-- The loss of a clock's lock leaves the sides' state. -/
theorem loseLock_sides (d : SideId) (c : HealthCause) (s : State) : (loseLock d c s).sides = s.sides := by
  cases c <;> cases d <;> rfl

theorem exec_alivePulseStop_of_pulsing (hp : pulses (sideOf s d) = true) (c : HealthCause) :
    exec (.alivePulseStop d c) s
      = .next (updSide d (fun r => { r with alive := false, healthy := false }) (loseLock d c s)) := by
  show execAlivePulseStop d c s = _
  simp [execAlivePulseStop, sideOf_congr (loseLock_sides d c s), hp]

theorem exec_alivePulseStop_of_still (hp : pulses (sideOf s d) = false) (c : HealthCause) :
    exec (.alivePulseStop d c) s = .next (loseLock d c s) := by
  show execAlivePulseStop d c s = _
  simp [execAlivePulseStop, sideOf_congr (loseLock_sides d c s), hp]

theorem draw_value (s : State) : (draw s).1 = s.free := rfl

theorem draw_time (s : State) : (draw s).2.time = s.time := rfl

theorem sideOf_draw (d : SideId) (s : State) : sideOf (draw s).2 d = sideOf s d := sideOf_congr rfl d

/-- R352, R353: a healthy side's pulse toggles with its heartbeat. -/
theorem exec_heartbeatSend_of_healthy (hp : pulses (sideOf s d) = true) (hh : (sideOf s d).healthy = true) :
    exec (.heartbeatSend d) s = .next (updSide d (fun r => { r with
      alive := true, toggle := s.time.tick, beat := some (beatOf r (Config.healthWord s.free)) }) (draw s).2) := by
  show execHeartbeatSend d s = _
  simp [execHeartbeatSend, hp, hh, sideOf_draw, draw_value, draw_time, beatOf]

theorem exec_heartbeatSend_of_unhealthy (hp : pulses (sideOf s d) = true) (hh : (sideOf s d).healthy = false) :
    exec (.heartbeatSend d) s
      = .next (updSide d (fun r => { r with beat := some (beatOf r (Config.healthWord s.free)) }) (draw s).2) := by
  show execHeartbeatSend d s = _
  simp [execHeartbeatSend, hp, hh, sideOf_draw, draw_value]

theorem exec_flagFall_of_still (hp : pulses (sideOf s d) = true) (ha : (sideOf s d).alive = false) :
    exec (.flagFall d) s = .next (flagFall d s) := by
  show execFlagFall d s = _
  simp [execFlagFall, hp, ha]

theorem exec_flagFall_of_alive (ha : (sideOf s d).alive = true) : exec (.flagFall d) s = .next s := by
  show execFlagFall d s = _
  simp [execFlagFall, ha]

/-! ### The Mirror Link (R31, R355) -/

theorem exec_heartbeatMiss_of_pulse (hp : pulses (sideOf s d) = true) (ha : (sideOf s (other d)).alive = true)
    (hml : s.sides.mlOk = true) : exec (.heartbeatMiss d) s = .next (mlFail s) := by
  show execHeartbeatMiss d s = _
  simp [execHeartbeatMiss, hp, ha, hml]

/-- The failure of a flit's send has its place in the counts. -/
def flitFailed (n : Nat) (d : SideId) (s : State) : State :=
  { s with sides := { s.sides with mlFails := tput 0 s.sides.mlFails (n * 2 + sideNum d) (flitFails s d n + 1) } }

theorem exec_mlFlitCrcFail_of_few {n : Nat} (hml : s.sides.mlOk = true) (hn : flitFails s d n < 2) :
    exec (.mlFlitCrcFail n d) s = .next (count .sideMlStat [] 16 1 (flitFailed n d s)) := by
  have hfew : ¬ 3 ≤ flitFails s d n + 1 := by omega
  show execMlFlitCrcFail s n d = _
  simp [execMlFlitCrcFail, hml, hfew, flitFailed]

theorem exec_mlFlitCrcFail_of_third {n : Nat} (hml : s.sides.mlOk = true) (hn : 2 ≤ flitFails s d n) :
    exec (.mlFlitCrcFail n d) s = .next (mlFail (flitFailed n d s)) := by
  have hthird : 3 ≤ flitFails s d n + 1 := by omega
  show execMlFlitCrcFail s n d = _
  simp [execMlFlitCrcFail, hml, hthird, flitFailed]

/-! ### Presses (R357, R358) -/

theorem exec_chessClockPress_of_may (hm : mayPress s d = true) (hp : (sideOf s d).press = false) :
    exec (.chessClockPress d) s = .next (updSide d (fun r => { r with
      press := true, pressTick := s.time.tick, step := if r.state = 1 then 7 else r.step }) s) := by
  show execChessClockPress d s = _
  simp [execChessClockPress, hm, hp]

theorem exec_pressRefused_of_held (hh : s.sides.holder = some h) (hd : h ≠ d) (hp : (sideOf s d).press = true)
    (ha : (sideOf s h).alive = true) :
    exec (.pressRefused d) s
      = .next (raise evClaimRefused (count .sideClaimCnt [] 0 1 (updSide d (fun r => { r with press := false }) s))) := by
  show execPressRefused d s = _
  simp [execPressRefused, hh, hd, hp, ha]

section
variable (hh : s.sides.holder = some h)
include hh

/-! ### The handover (R364, R365) -/

theorem exec_handoverAck_of_applied (hs : s.sides.handover = .sent) (hl : (sideOf s h).healthy = true)
    (ho : (sideOf s (other h)).state = 4) (hm : (sideOf s (other h)).move + 1 = s.jrn.move) :
    exec .handoverAck s = .next (releaseClock h (settlePending (other h) s)) := by
  show execHandoverAck s = _
  simp [execHandoverAck, hh, hs, hl, ho, hm]

theorem exec_handoverTimeout_of_sent {u : State} (hs : s.sides.handover = .sent)
    (hu : u = mlFail (castleOutcome stState h { s with sides := { s.sides with handover := .none } })) :
    exec .handoverTimeout s = .next (if u.sides.disp = .running then endIntr u else u) := by
  subst hu
  show execHandoverTimeout s = _
  simp [execHandoverTimeout, hh, hs]

/-! ### The commit of a Move (R387 to R389) -/

section
variable {n : Nat} (hp : s.jrn.pending = some (n, true))
include hp

/-- The standby takes the token that was sent, whole and in order. -/
theorem exec_commitTokenRx_of_whole {x : Token} (ho : (sideOf s (other h)).state = 4) (hl : (sideOf s h).healthy = true)
    (hlo : (sideOf s (other h)).healthy = true) (hm : x.move % 2 ^ 32 = n % 2 ^ 32) (hc : x.cutover = false)
    (ht : tokenSent x s = true) (hb : x.base % 2 ^ 32 = (sideOf s (other h)).move % 2 ^ 32) (hf : x.flits = x.flitsSeen)
    (hg : x.crcGood = true) : exec (.commitTokenRx x) s = .next (updSide (other h) (takeMove n) s) := by
  simp only [Nat.reducePow] at hm hb
  show execCommitTokenRx x s = _
  simp [execCommitTokenRx, hh, hp, ht, ho, hl, hlo, hm, hc, hb, hf, hg]

theorem exec_commitAck_of_applied (hm : (sideOf s (other h)).move = n) (hl : (sideOf s h).healthy = true) :
    exec .commitAck s = .next (commitMove n s) := by
  show execCommitAck s = _
  simp [execCommitAck, hh, hp, hm, hl]

/-- R388: a standby whose pulse has stopped holds no commit up. -/
theorem exec_commitAckTimeout_of_still (hl : (sideOf s h).healthy = true) (ha : (sideOf s (other h)).alive = false) :
    exec .commitAckTimeout s = .next (commitMove n s) := by
  show execCommitAckTimeout s = _
  simp [execCommitAckTimeout, hh, hp, hl, ha]

end

theorem exec_moveSlotWriteDone_of_alone {n : Nat} (hp : s.jrn.pending = some (n, false)) (hl : (sideOf s h).healthy = true) :
    exec (.moveSlotWriteDone n) s = .next (commitMove n s) := by
  show execMoveSlotWriteDone n s = _
  simp [execMoveSlotWriteDone, hh, hp, hl]

end

end Sys2Proof.Machine
end

section
/-!
A Castling's replay and restart (R366, R395), Lockstep and its checks (R370 to R376), self-tests (R377, R378) and resynchronization
(R404 to R407). Each row in the states of its own path.
-/

namespace Sys2Proof.Machine

section
variable {d h : SideId} {s : State}

/-! ### Replay and restart (R366, R395) -/

theorem exec_replayEnd_of_replay (hd : s.sides.disp = .replay) (hh : s.sides.holder.isSome = true) {u : State}
    (hu : u = count .sideJrnReplay [] 0 1 { s with sides := { s.sides with disp := .restart } }) (l : List OpTag) (rs : List ReadEnd) :
    exec (.replayEnd l rs) s = .next (l.foldl (fun s t => divergeCase s t.val) (rereadAll u.cmd.ibCmds rs u)) := by
  subst hu
  show execReplayEnd l s rs = _
  simp [execReplayEnd, hd, hh]

/-- The dispatch goes on: what waited for it starts. -/
def dispatchResumed (s : State) : State :=
  dmaGo (settleDirect (endIntr (caughtUp { s with sides := { s.sides with disp := .running, castling := none } })))

/-- A Castling ends with the dispatch restart; with the Mirror Link up the part leaves it as it is. -/
theorem exec_dispatchRestartEnd_of_castling (hd : s.sides.disp = .restart) (hh : s.sides.holder = some h)
    (hc : s.sides.castling.isSome = true) {v : State} (hv : v = leaveCastling (raise evCastleDone (dispatchResumed s)))
    (hm : (raise evCastleDone (dispatchResumed s)).glb.mode ≠ 2) (hvh : v.sides.holder = some h) (hml : v.sides.mlOk = true)
    (n : Nat) : exec (.dispatchRestartEnd n) s = .next (consumeInputs (beginPending (admitWaiting v))) := by
  show Host.Outcome.next (if _ then _ else _) = _
  rw [if_pos (by simp [hd, hh])]
  extract_lets castled _ _ told ended paired
  have htold : told = raise evCastleDone (dispatchResumed s) := if_pos hc
  have hended : ended = v := by
    rw [hv, ← htold]
    exact if_neg (htold ▸ hm)
  have hpaired : paired = v := by simp [paired, hended, hvh, hml]
  rw [hpaired]

/-! ### Lockstep (R371 to R376) -/

theorem exec_lsOutputMismatch_of_equal (o : LsOutput) {w b : SideOut} (hw : w = b) :
    exec (.lsOutputMismatch o w b) s = .next s := by
  show execLsOutputMismatch o s w b = _
  simp [execLsOutputMismatch, hw]

/-- R373: a mismatch holds the outputs, and both sides check themselves. -/
theorem mismatch_of_lockstep (hh : s.sides.holder = some h) (ho : (sideOf s (other h)).state = 7) (hd : s.sides.disp ≠ .check)
    (kind : Nat) (o : LsOutput) :
    mismatch kind o s = raise evLsMismatch (count .sideLsStat [] 16 1 (beginIntr s.time.tick
      { s with sides := { s.sides with lsHold := true, lsKind := kind, lsOutput := lsCode o, disp := .check } })) := by
  simp [mismatch, hh, ho, hd]

theorem exec_lsOutputMismatch_of_differing (o : LsOutput) {w b : SideOut} (hw : w ≠ b) :
    exec (.lsOutputMismatch o w b) s = .next (mismatch 1 o s) := by
  show execLsOutputMismatch o s w b = _
  simp [execLsOutputMismatch, hw]

/-- R374: White passed its check and goes on; Black's own check decides the verdict. -/
theorem exec_lsSelfCheckEnd_of_white (hd : s.sides.disp = .check) (hw : inStep s.sides.white = true) (b : Bool) :
    exec (.lsSelfCheckEnd true b) s
      = .next (lsContinue .white (endCheck (if b && inStep s.sides.black then 3 else 2) s)) := by
  show execLsSelfCheckEnd true b s = _
  cases hb : b && inStep s.sides.black <;> simp [execLsSelfCheckEnd, hd, hw, hb]

theorem exec_lsSelfCheckEnd_of_black (hd : s.sides.disp = .check) (hb : inStep s.sides.black = true) :
    exec (.lsSelfCheckEnd false true) s = .next (lsContinue .black (endCheck 1 s)) := by
  show execLsSelfCheckEnd false true s = _
  simp [execLsSelfCheckEnd, hd, hb]

/-- A verdict of one side at least is told and recorded as it is. -/
theorem endCheck_of_verdict {v : Nat} (hv : v < 4) (s : State) : endCheck v s = offer (verdictRecord s v)
    (raise evLsCheckDone { s with sides := { s.sides with lsHold := false, lsVerdict := v } }) := by
  rw [endCheck, Nat.mod_eq_of_lt hv]

theorem exec_mlSelftestRun_of_lockstep (hh : s.sides.holder = some h) (ho : (sideOf s (other h)).state = 7) (c : Bool) :
    exec (.mlSelftestRun c) s = .next { s with sides := { s.sides with
      loopRuns := if c then min 10 (s.sides.loopRuns + 1) else 0
      lsExit := (if c then min 10 (s.sides.loopRuns + 1) else 0) == 10 } } := by
  show execMlSelftestRun c s = _
  simp [execMlSelftestRun, hh, ho]

/-- R378: the tenth clean run in a row lets the side that left Lockstep for its tests return. -/
theorem exec_mlSelftestRun_of_tenth (hh : s.sides.holder = some h) (ho : (sideOf s (other h)).state = 2)
    (hm : (sideOf s (other h)).mustLoop = true) (hn : 9 ≤ s.sides.loopRuns) :
    exec (.mlSelftestRun true) s = .next (enterResync (other h) { s with sides := { s.sides with loopRuns := 0 } }) := by
  have hten : min 10 (s.sides.loopRuns + 1) = 10 := by omega
  show execMlSelftestRun true s = _
  simp [execMlSelftestRun, hh, ho, hm, hten]

/-! ### Self-tests (R377, R378) -/

section
variable {n : Nat} {x : BitVec 7} {u v : State}
variable (hw : workOf s 5 = some (.selftest d n true none)) (hst : (sideOf s d).state = 6)
variable (hv : v = testDdr d (BitVec.ofNat 7 n) (x &&& BitVec.ofNat 7 n) s)
include hw hst hv

/-- A side that failed a test becomes OUT, and its failure is told. -/
theorem exec_selftestEnd_of_failed (hbad : BitVec.ofNat 7 n &&& ~~~x ≠ 0)
    (hu : u = testOutcome stOk { v with sides := { v.sides with
      stRunning := false, stPassed := x &&& BitVec.ofNat 7 n, stFailed := BitVec.ofNat 7 n &&& ~~~x } }) :
    exec (.selftestEnd x) s = .next (raiseS evStFail (followSides (goOut d u))) := by
  subst hu hv
  have hne : (BitVec.ofNat 7 n &&& ~~~x != 0) = true := bne_iff_ne.mpr hbad
  show execSelftestEnd x s = _
  simp only [execSelftestEnd, hw, hst, bne_self_eq_false, Bool.false_eq_true, if_false, hne, if_true]

/-- A side that passed all of its tests is brought into step, over a Mirror Link that works or that its tests have shown to. -/
theorem exec_selftestEnd_of_passed (hgood : BitVec.ofNat 7 n &&& ~~~x = 0)
    (hu : u = testOutcome stOk { v with sides := { v.sides with
      stRunning := false, stPassed := x &&& BitVec.ofNat 7 n, stFailed := 0 } })
    (hml : u.sides.mlOk = true ∨ (x &&& BitVec.ofNat 7 n).getLsbD 5 = true) :
    exec (.selftestEnd x) s = .next (enterResync d u) := by
  subst hu hv
  have hlink : (_ || _) = true := Bool.or_eq_true_iff.mpr hml
  show execSelftestEnd x s = _
  simp only [execSelftestEnd, hw, hst, bne_self_eq_false, Bool.false_eq_true, if_false, hgood, hlink, if_true]

end

/-! ### Resynchronization (R405) -/

section
variable (hh : s.sides.holder = some h) (ho : (sideOf s (other h)).state = 3)
include hh ho

theorem exec_resyncPhaseEnd_first (hp : s.sides.phase = 1) (g : Nat) : exec (.resyncPhaseEnd g) s
    = .next { s with sides := { s.sides with phase := 2, rsCopied := 1024 * s.sides.rsInUse, rsDirty := g, rsDirtied := g } } := by
  show execResyncPhaseEnd g s = _
  simp [execResyncPhaseEnd, hh, ho, hp]

theorem exec_resyncPhaseEnd_again (hp : s.sides.phase = 2) {g : Nat} (hg : 4096 < g) (hn : s.sides.pass < 15) :
    exec (.resyncPhaseEnd g) s = .next { s with sides := { s.sides with
      pass := s.sides.pass + 1, rsCopied := s.sides.rsCopied + s.sides.rsDirty, rsDirty := g
      rsDirtied := s.sides.rsDirtied + g } } := by
  have hmore : ¬ (g ≤ 4096 ∨ 15 ≤ s.sides.pass) := by omega
  show execResyncPhaseEnd g s = _
  simp [execResyncPhaseEnd, hh, ho, hp, hmore]

theorem exec_resyncPhaseEnd_third (hp : s.sides.phase = 3) {g n : Nat} (hn : n = min (100 - s.sides.rsMoved) s.sides.rsDirty) :
    exec (.resyncPhaseEnd g) s = .next { s with sides := { s.sides with
      rsCopied := s.sides.rsCopied + n, rsMoved := s.sides.rsMoved + n, rsDirty := g
      rsDirtied := s.sides.rsDirtied + (g - (s.sides.rsDirty - n)) } } := by
  show execResyncPhaseEnd g s = _
  simp [execResyncPhaseEnd, hh, ho, hp, hn]

end

/-- R406: the returning side has the State of the last Move committed, and the resynchronization is counted and told. -/
def resyncLoaded (d : SideId) (s : State) : State :=
  let t := updSide d (fun r => { r with state := 4, move := s.jrn.committed.getD 0 }) s
  raise evResyncDone (count .sideResyncCnt [] 0 1
    { t with sides := { t.sides with phase := 0, rsDirty := 0, rsLast := t.time.optime - t.sides.rsStart } })

theorem resyncLoaded_phase (d : SideId) (s : State) : (resyncLoaded d s).sides.phase = 0 := by simp [resyncLoaded]

theorem resyncLoaded_holder (d : SideId) (s : State) : (resyncLoaded d s).sides.holder = s.sides.holder := by
  cases d <;> simp [resyncLoaded, updSide, putSide]

theorem sideOf_resyncLoaded_state (d : SideId) (s : State) : (sideOf (resyncLoaded d s) d).state = 4 := by
  cases d <;> simp [resyncLoaded, sideOf, updSide, putSide]

theorem resyncLoaded_tells (d : SideId) (s : State) : (resyncLoaded d s).evt.fw &&& evtBit evResyncDone ≠ 0 :=
  raise_sets_bit (evtBit_ne_zero (by decide)) _

theorem followSides_sides (s : State) : (followSides s).sides = s.sides := by
  unfold followSides; split <;> simp

theorem followSides_keeps_bit {b : BitVec 256} (hb : s.evt.fw &&& b ≠ 0) : (followSides s).evt.fw &&& b ≠ 0 := by
  unfold followSides
  split
  · exact toMode_keeps_bit _ _ hb
  · exact hb

theorem activateOutcome_sides (d : SideId) (status : Nat) (s : State) : (activateOutcome d status s).sides = s.sides :=
  (congrArg State.sides (activateOutcome_besideCmd d status s) :)

theorem activateOutcome_evt (d : SideId) (status : Nat) (s : State) : (activateOutcome d status s).evt = s.evt :=
  (congrArg State.evt (activateOutcome_besideCmd d status s) :)

theorem exec_resyncLoadEnd_of_fourth (hh : s.sides.holder = some h) (ho : (sideOf s (other h)).state = 3)
    (hp : s.sides.phase = 4) : ∃ status, exec .resyncLoadEnd s
      = .next (followSides (activateOutcome (other h) status (confirmBoot (other h) (resyncLoaded (other h) s)))) := by
  show ∃ status, execResyncLoadEnd s = _
  simp only [execResyncLoadEnd, hh, ho, hp, decide_true, Bool.and_self, if_true]
  exact ⟨_, rfl⟩

/-! ### The throttle and the full Scoresheet (R385, R391) -/

theorem exec_jrnThrottle_of_flits (hc : consuming s = true) (hf : 7680 ≤ flitsOf s.jrn.delta) : exec .jrnThrottle s
    = .next (raiseS evJrnThrottle (throttle { s with jrn := { s.jrn with capped := true } })) := by
  show execJrnThrottle s = _
  simp [execJrnThrottle, hc, hf]

theorem exec_scoresheetFull_of_full (hf : s.jrn.full = false) (hs : sheetFull s.jrn = true) :
    exec .scoresheetFull s = .next (raise evSsFull { s with jrn := { s.jrn with full := true } }) := by
  show execScoresheetFull s = _
  simp [execScoresheetFull, hf, hs]

end

/-- Settles O38: each row's guard holds in the states of its own path; what the end of a resynchronization leaves is read off the side
that it loaded. -/
theorem castlingEventsComplete : Obligations.CastlingEventsComplete := by
  unfold Obligations.CastlingEventsComplete
  refine ⟨?replay, ?restart, ?equal, ?differing, ?waited, ?white, ?black, ?looped, ?failed, ?passed, ?first, ?again, ?third, ?tenth,
    ?throttled, ?full, ?loaded⟩
  case replay => exact fun s l rs u hd hh hu => exec_replayEnd_of_replay hd hh hu l rs
  case restart =>
    rintro s n h u v _ hd hh _ hc rfl hv hvh hml rfl hm
    exact exec_dispatchRestartEnd_of_castling hd hh hc hv hm hvh hml n
  case equal => exact fun o w b s hw => exec_lsOutputMismatch_of_equal o hw
  case differing =>
    intro o w b s h hh ho hd hw
    rw [exec_lsOutputMismatch_of_differing o hw, mismatch_of_lockstep hh ho hd]
  case waited =>
    intro o s h hh ho hd
    exact congrArg Host.Outcome.next (mismatch_of_lockstep hh ho hd 2 o)
  case white =>
    rintro s b _ hd hw rfl
    rw [exec_lsSelfCheckEnd_of_white hd hw, endCheck_of_verdict (by split <;> decide)]
  case black =>
    intro s hd hb
    rw [exec_lsSelfCheckEnd_of_black hd hb, endCheck_of_verdict (by decide)]
  case looped => exact fun s h c hh ho => exec_mlSelftestRun_of_lockstep hh ho c
  case failed => exact fun s d n x u v hv hw hst hbad hu => exec_selftestEnd_of_failed hw hst hv hbad hu
  case passed => exact fun s d n x u v hv hw hst hgood hu hml => exec_selftestEnd_of_passed hw hst hv hgood hu hml
  case first => exact fun s h g hh ho hp => exec_resyncPhaseEnd_first hh ho hp g
  case again => exact fun s h g hh ho hp hg hn => exec_resyncPhaseEnd_again hh ho hp hg hn
  case third => exact fun s h g n hh ho hp hn => exec_resyncPhaseEnd_third hh ho hp hn
  case tenth => exact fun s h hh ho hm hn => exec_mlSelftestRun_of_tenth hh ho hm hn
  case throttled => exact fun s hc hf => exec_jrnThrottle_of_flits hc hf
  case full => exact fun s hf hs => exec_scoresheetFull_of_full hf hs
  case loaded =>
    intro s h hh ho hp
    obtain ⟨status, hexec⟩ := exec_resyncLoadEnd_of_fourth hh ho hp
    have hsides := (followSides_sides _).trans ((activateOutcome_sides (other h) status _).trans
      (confirmBoot_sides (other h) (resyncLoaded (other h) s)))
    refine ⟨_, hexec, ?_, ?_, followSides_keeps_bit ?_, ?_⟩
    · rw [sideOf_congr hsides]; exact sideOf_resyncLoaded_state (other h) s
    · rw [hsides]; exact resyncLoaded_phase (other h) s
    · rw [activateOutcome_evt, confirmBoot, putFlash_evt]; exact resyncLoaded_tells (other h) s
    · rw [hsides, resyncLoaded_holder, hh]

end Sys2Proof.Machine
end

section
/-!
The Move that runs (R382, R385): its number, its throttle and what its commands have taken of it, which the marker alone moves on. Each
operation under the marker leaves them. Then the Chess Clock as a whole.
-/

namespace Sys2Proof.Machine

/-- The Move that runs: its number, its throttle, and the short commands and notes that it has taken. -/
def moveWork (s : State) : Nat × Bool × Nat × Nat := (s.jrn.move, s.jrn.throttled, s.cmd.shortInMove, s.cmd.notesInMove)

/-- The same Move runs in `t` as in `s`. -/
def SameMove (s t : State) : Prop := moveWork t = moveWork s

theorem SameMove.refl (s : State) : SameMove s s := rfl

theorem SameMove.ite {s t u : State} {c : Prop} [Decidable c] (ht : SameMove s t) (hu : SameMove s u) :
    SameMove s (if c then t else u) := by
  split
  · exact ht
  · exact hu

section
variable {s t : State} (h : SameMove s t)
include h

/-! ### Single updates -/

theorem SameMove.after_setGlb {x : Glb} : SameMove s { t with glb := x } := h

theorem SameMove.after_setPtp {x : Ptp} : SameMove s { t with ptp := x } := h

theorem SameMove.after_setSides {x : Sides} : SameMove s { t with sides := x } := h

theorem SameMove.after_setFab {x : Fab} : SameMove s { t with fab := x } := h

theorem SameMove.after_setDma {x : Dma} : SameMove s { t with dma := x } := h

theorem SameMove.after_setTxHeld {x : Nat} : SameMove s { t with txHeld := x } := h

theorem SameMove.after_setDeparts {l : List (Nat × Nat × Staged × Bool × Ts × Stamp)} :
    SameMove s { t with jrn := { t.jrn with departs := l } } := h

theorem SameMove.after_putGate {p : Nat} {g : GateP} : SameMove s (putGate t p g) := h

theorem SameMove.after_putPort {p : Nat} {x : PortSt} : SameMove s (putPort t p x) := h

theorem SameMove.after_putSq {k q : Nat} {x : Sq} : SameMove s (putSq t k q x) := h

theorem SameMove.after_putOp {k : Nat} {o : Op} : SameMove s (putOp t k o) := h

theorem SameMove.after_putFlow {f : Nat} {x : FlowQ} : SameMove s (putFlow t f x) := h

theorem SameMove.after_putDelay {p k : Nat} {x : PtpDelay} : SameMove s (putDelay t p k x) := h

theorem SameMove.after_count {g : Reg} {is : List Nat} {lo n : Nat} : SameMove s (count g is lo n t) := h

theorem SameMove.after_countMax {g : Reg} {is : List Nat} {lo n : Nat} : SameMove s (countMax g is lo n t) := h

theorem SameMove.after_portCount {p c n : Nat} : SameMove s (portCount p c n t) := h

theorem SameMove.after_caughtUp : SameMove s (caughtUp t) := h

theorem SameMove.after_timeRecord {sub : TimeSub} : SameMove s (timeRecord sub t) := h

theorem SameMove.after_pushSet {w : List RimWrite} : SameMove s (pushSet w t) := h

theorem SameMove.after_raiseS {src : Nat} : SameMove s (raiseS src t) := h

theorem SameMove.after_offer {r : RecIn} : SameMove s (offer r t) := h

theorem SameMove.after_setAlarm {i : Nat} : SameMove s (setAlarm i t) := h

theorem SameMove.after_bypDrive : SameMove s (bypDrive t) := h

theorem SameMove.after_safeFields {on : Bool} : SameMove s (safeFields t on) := h

theorem SameMove.after_settleGens : SameMove s (settleGens t) := h

theorem SameMove.after_draw : SameMove s (draw t).2 := h

theorem SameMove.after_countExpired {p : Nat} : SameMove s (countExpired p t) := h

theorem SameMove.after_putPtp {p : Nat} {x : Staged} : SameMove s (putPtp p x t) := h

theorem SameMove.after_noteReq {p k seq : Nat} {ts : Ts} : SameMove s (noteReq p k seq ts t) := h

theorem SameMove.after_fwStart {c : Nat} : SameMove s (fwStart c t) := h

theorem SameMove.after_setId {st id : Nat} : SameMove s (setId st id t) := h

theorem SameMove.after_yieldId : SameMove s (yieldId t) := h

theorem SameMove.after_putTopo {m : TopoMsg} : SameMove s (putTopo m t) := h

theorem SameMove.after_syncInterval {k : Nat} : SameMove s (syncInterval k t) := h

theorem SameMove.after_decideRate {a : Int} : SameMove s (decideRate a t) := h

theorem SameMove.after_loseClock : SameMove s (loseClock t) := h

theorem SameMove.after_putSlot {k : Nat} {x : DomSlot} : SameMove s (putSlot t k x) := .ite h h

theorem SameMove.after_updSide {d : SideId} {f : SideRec → SideRec} : SameMove s (updSide d f t) := by
  cases d <;> exact h

theorem SameMove.after_raise {src : Nat} : SameMove s (raise src t) := by
  unfold SameMove moveWork
  rw [raise_jrn, raise_cmd]
  exact h

theorem SameMove.after_foldl {α : Type} {f : State → α → State} {l : List α}
    (hf : ∀ t a, SameMove s t → SameMove s (f t a)) : SameMove s (l.foldl f t) := by
  induction l generalizing t with
  | nil => exact h
  | cons a l ih => exact ih (hf t a h)

/-- A waiting input is consumed at its own time, which is no part of the Move. -/
theorem SameMove.after_consumeAt {st : Stamp} {f : State → State} (hf : ∀ t, SameMove s t → SameMove s (f t)) :
    SameMove s (consumeAt st f t) := hf { t with jrn := { t.jrn with last := st } } h

/-! ### The mode, and entering Safe-Hold (R288, R437, R455) -/

theorem SameMove.after_toMode {m : Nat} {f : Bool} : SameMove s (toMode m f t) :=
  .ite h h.after_setGlb.after_raise.after_offer.after_bypDrive

theorem SameMove.after_followSides : SameMove s (followSides t) := .ite h.after_toMode h

theorem SameMove.after_adjLost {p : Nat} : SameMove s (adjLost p t) := .ite h.after_setFab.after_raiseS h

theorem SameMove.after_accrueLpi {p : Nat} : SameMove s (accrueLpi p t) := .ite h.after_putPort.after_portCount h

theorem SameMove.after_accrueRxLpi {p : Nat} : SameMove s (accrueRxLpi p t) := .ite h.after_putPort.after_portCount h

theorem SameMove.after_leaveLpi {p : Nat} : SameMove s (leaveLpi p t) := .ite h.after_accrueLpi.after_putPort h

theorem SameMove.after_dropLanes {p : Nat} : SameMove s (dropLanes p t) :=
  h.after_putGate.after_foldl fun _ _ h => h.after_count

theorem SameMove.after_dropLink {p : Nat} {lock : Bool} : SameMove s (dropLink p lock t) :=
  h.after_leaveLpi.after_accrueRxLpi.after_putPort.after_dropLanes.after_putGate.after_adjLost

theorem SameMove.after_settleOff {p : Nat} : SameMove s (settleOff p t) := .ite h.after_dropLink (.ite h.after_putPort h)

theorem SameMove.after_safePorts {on : Bool} : SameMove s (safePorts t on) :=
  h.after_foldl fun _ _ h => .ite h.after_putPort.after_settleOff h

theorem SameMove.after_putWork {g : Nat} {op : LongOp} : SameMove s (putWork g op t) := by
  unfold putWork
  split <;> exact h

theorem SameMove.after_testOutcome {status : Nat} : SameMove s (testOutcome status t) := by
  unfold testOutcome
  split
  · exact h.after_putWork
  · exact h

theorem SameMove.after_activateOutcome {d : SideId} {status : Nat} : SameMove s (activateOutcome d status t) := by
  unfold activateOutcome
  split
  · exact .ite h.after_putWork h
  · exact h

theorem SameMove.after_goOut {d : SideId} : SameMove s (goOut d t) := h.after_updSide.after_activateOutcome

theorem SameMove.after_endTest {d : SideId} : SameMove s (endTest d t) :=
  .ite h.after_setSides.after_testOutcome.after_goOut h

theorem SameMove.after_goSafe {fault : Bool} : SameMove s (goSafe fault t) :=
  h.after_setGlb.after_endTest.after_endTest.after_raise.after_toMode.after_safePorts.after_safeFields

theorem SameMove.after_causeNoted {cause : Nat} {fault : Bool} : SameMove s (causeNoted cause fault t) :=
  .ite h.after_setGlb.after_setAlarm h.after_setGlb

theorem SameMove.after_enterSafe {cause : Nat} {fault : Bool} : SameMove s (enterSafe cause fault t) :=
  .ite h.after_causeNoted.after_goSafe h.after_causeNoted

/-! ### Departures (R213) and the DMA engine -/

theorem SameMove.after_takeSeq {f : Nat} : SameMove s (takeSeq f t).1 := by
  unfold takeSeq
  dsimp only
  split <;> exact h

theorem SameMove.after_freeLater {use n : Nat} : SameMove s (freeLater use n t) := .ite h h

theorem SameMove.after_completeOp {k status result : Nat} {flags : Byte} {ts : Ts} :
    SameMove s (completeOp k status flags result ts t) := by
  unfold completeOp
  split
  · exact h
  · extract_lets _ freed put erased
    have hput : SameMove s put := h.after_freeLater.after_putOp
    have herased : SameMove s erased := by
      dsimp only [erased]
      split
      · exact hput
      · exact hput.after_putSq
    exact herased

theorem SameMove.after_settleTx {l : List Nat} : SameMove s (settleTx l t) := by
  induction l generalizing t with
  | nil => exact h
  | cons k l ih =>
    unfold settleTx
    split
    · exact ih h.after_completeOp
    · exact h

theorem SameMove.after_finishTx {k : Nat} : SameMove s (finishTx k t) := by
  unfold finishTx
  split
  · exact h
  · exact .ite h.after_settleTx h

theorem SameMove.after_becomeHead {f : Nat} {wasEmpty : Bool} : SameMove s (becomeHead f wasEmpty t) := by
  unfold becomeHead
  extract_lets x
  split <;> exact h

theorem SameMove.after_enqueue {f : Nat} {e : Elem} : SameMove s (enqueue f e t) :=
  .ite h.after_putFlow.after_countMax.after_becomeHead h.after_putFlow.after_countMax

theorem SameMove.after_enterFlow {f : Nat} {kind : ElemKind} {tag : Option Nat} {bytes : List Byte} :
    SameMove s (enterFlow f kind tag bytes t) := by
  unfold enterFlow
  have htaken : SameMove s (takeSeq f t).1 := h.after_takeSeq
  generalize takeSeq f t = taken at htaken ⊢
  obtain ⟨u, seq⟩ := taken
  dsimp -zeta only at htaken ⊢
  extract_lets _ _ counted entered spread
  have hcounted : SameMove s counted := by
    dsimp only [counted]
    split
    · exact htaken.after_count
    · exact htaken
  have hspread : SameMove s spread := hcounted.after_enqueue.after_foldl fun _ _ h => h.after_enqueue
  split
  · exact hspread.after_putOp
  · exact hspread

theorem SameMove.after_endPrefetch {k : Nat} : SameMove s (endPrefetch k t) := by
  unfold endPrefetch
  split
  · split <;> exact h
  · exact h

theorem SameMove.after_dropStream {f k : Nat} : SameMove s (dropStream f k t) := by
  have hended : SameMove s (endPrefetch k t) := h.after_endPrefetch
  unfold dropStream
  extract_lets ended x
  split
  · exact .ite hended.after_putFlow.after_becomeHead hended.after_putFlow
  · exact hended

theorem SameMove.after_flushPtp {l : List (Nat × Staged)} : SameMove s (flushPtp l t) := by
  induction l generalizing t with
  | nil => exact h
  | cons x l ih => exact .ite (ih h) (.ite (ih h.after_putPtp) (ih h.after_setPtp))

theorem SameMove.after_settleDuePtp : SameMove s (settleDuePtp t) := .ite h.after_setPtp.after_flushPtp h

theorem SameMove.after_stagePtp {p ty slot seq : Nat} {cap : Option Ts} : SameMove s (stagePtp p ty slot seq cap t) :=
  .ite h.after_draw.after_setPtp.after_settleDuePtp h

theorem SameMove.after_ptpFollow {p : Nat} {x : Staged} {ts : Ts} : SameMove s (ptpFollow p x ts t) := by
  unfold ptpFollow
  split
  · exact .ite h.after_noteReq (.ite h.after_stagePtp h)
  · exact h

theorem SameMove.after_consumeDepart {p : Nat} {x : Staged} {left : Bool} {ts : Ts} :
    SameMove s (consumeDepart p x left ts t) := by
  unfold consumeDepart
  extract_lets told
  have htold : SameMove s told := .ite h h.after_countExpired
  split
  · exact .ite htold.after_setTxHeld.after_freeLater.after_ptpFollow htold.after_setTxHeld.after_freeLater
  · exact .ite htold.after_putOp.after_dropStream.after_finishTx htold.after_putOp.after_finishTx

theorem SameMove.after_consumeDeparts : SameMove s (consumeDeparts t) :=
  .ite (SameMove.after_settleDuePtp
    (h.after_setDeparts.after_foldl fun _ _ h => h.after_consumeAt fun _ h => h.after_consumeDepart)) h

theorem SameMove.after_issueRead {c : Nat} : SameMove s (issueRead c t) := by
  unfold issueRead
  extract_lets x
  split
  · exact h
  · extract_lets r tlp issued
    split <;> exact h

theorem SameMove.after_dmaTurns {n : Nat} : SameMove s (dmaTurns n t) := by
  induction n generalizing t with
  | zero => exact h
  | succ n ih =>
    unfold dmaTurns
    split
    · exact h
    · exact ih h.after_setDma.after_issueRead

theorem SameMove.after_dmaGo : SameMove s (dmaGo t) := .ite h.after_dmaTurns h

/-! ### Hellos and topology messages (R413 to R417, R431) -/

theorem SameMove.after_sendCtl {p : Nat} {bytes : List Byte} : SameMove s (sendCtl p bytes t) := .ite h.after_enterFlow h

theorem SameMove.after_enterConflict {uid : BitVec 64} : SameMove s (enterConflict uid t) :=
  .ite h h.after_setId.after_pushSet

theorem SameMove.after_judgeId {uid : BitVec 64} {id : BitVec 12} {st : BitVec 2} {given : Bool} :
    SameMove s (judgeId uid id st given t) :=
  .ite h (.ite (.ite h.after_enterConflict h) (.ite h.after_yieldId h))

theorem SameMove.after_endConflict : SameMove s (endConflict t) := .ite h.after_setId h

theorem SameMove.after_markConflicts : SameMove s (markConflicts t) := .ite h h.after_pushSet

theorem SameMove.after_takeHello {p : Nat} {x : Hello} : SameMove s (takeHello p x t) := by
  have hheard {y : Fab} : SameMove s { t with fab := y } := h.after_setFab
  exact .ite (SameMove.after_markConflicts (SameMove.after_judgeId (.ite hheard.after_setFab.after_raiseS hheard))) h

theorem SameMove.after_trimDb : SameMove s (trimDb t) := .ite h.after_setFab h.after_setFab.after_raiseS

theorem SameMove.after_floodTopo {p : Nat} {m : TopoMsg} : SameMove s (floodTopo p m t) :=
  h.after_foldl fun _ _ h => .ite h h.after_sendCtl

theorem SameMove.after_takeTopo {p : Nat} {m : TopoMsg} : SameMove s (takeTopo p m t) :=
  .ite (.ite h.after_putTopo.after_floodTopo.after_trimDb.after_judgeId.after_endConflict.after_markConflicts h) h

theorem SameMove.after_consumeFab : SameMove s (consumeFab t) := by
  refine .ite (h.after_setFab.after_foldl fun _ x h => h.after_consumeAt fun _ h => ?_) h
  cases x.1
  · exact h.after_takeHello
  · exact h.after_takeTopo

/-! ### Time-sync messages (R91 to R96) -/

theorem SameMove.after_dropSlew : SameMove s (dropSlew t) := .ite h.after_setPtp.after_decideRate h

theorem SameMove.after_domainSwitch {k : Nat} : SameMove s (domainSwitch k t) := by
  unfold domainSwitch
  extract_lets off b _ told _ dropped
  have htold : SameMove s told := h.after_setPtp.after_raiseS
  exact .ite htold.after_setPtp.after_decideRate (.ite htold.after_dropSlew htold.after_dropSlew.after_pushSet)

theorem SameMove.after_reselect : SameMove s (reselect t) := by
  unfold reselect
  extract_lets k _ chosen
  have hchosen : SameMove s chosen := .ite h (.ite h.after_domainSwitch h.after_setPtp)
  exact .ite hchosen.after_setPtp.after_raiseS hchosen.after_setPtp

theorem SameMove.after_acquired : SameMove s (acquired t) := .ite h.after_pushSet h

theorem SameMove.after_settleSlot {k : Nat} : SameMove s (settleSlot k t) := h.after_putSlot

theorem SameMove.after_settlePtp : SameMove s (settlePtp t) :=
  h.after_settleSlot.after_settleSlot.after_reselect.after_acquired

theorem SameMove.after_servo {k : Nat} {off adj : Int} : SameMove s (servo k off adj t) :=
  .ite h (.ite h.after_setPtp.after_pushSet h.after_setPtp.after_decideRate)

theorem SameMove.after_takeSync {f : SyncFacts} : SameMove s (takeSync f t) :=
  .ite (.ite h.after_syncInterval.after_settleSlot.after_putSlot.after_settlePtp.after_servo
    h.after_syncInterval.after_settleSlot.after_settlePtp) h

theorem SameMove.after_takeResponse {m : PtpMsg} {ts : Ts} : SameMove s (takeResponse m ts t) := by
  unfold takeResponse
  refine .ite h (.ite h.after_putDelay ?_)
  split
  · exact h.after_putDelay
  · exact h

theorem SameMove.after_takePdelay {m : PtpMsg} {ts : Ts} : SameMove s (takePdelay m ts t) :=
  .ite (.ite h.after_stagePtp (.ite h.after_takeResponse h)) h

theorem SameMove.after_consumePtp : SameMove s (consumePtp t) := by
  refine .ite (h.after_setPtp.after_foldl fun _ x h => h.after_consumeAt fun _ h => ?_) h
  cases x.1
  · exact h.after_takeSync
  · exact h.after_takePdelay

/-! ### The sides at the end of a Move (R363, R364, R376, R454) -/

theorem SameMove.after_castleOutcome {status : Nat} {d : SideId} : SameMove s (castleOutcome status d t) := by
  unfold castleOutcome
  split
  · exact h.after_putWork
  · exact .ite h h.after_putWork
  · exact h

theorem SameMove.after_beginIntr {tick : Nat} : SameMove s (beginIntr tick t) := .ite h h.after_setSides

theorem SameMove.after_releaseClock {d : SideId} : SameMove s (releaseClock d t) :=
  h.after_loseClock.after_timeRecord.after_updSide.after_setSides.after_toMode

theorem SameMove.after_consumeInputs : SameMove s (consumeInputs t) :=
  h.after_consumeDeparts.after_consumePtp.after_consumeFab

theorem SameMove.after_exitLockstep : SameMove s (exitLockstep t) := by
  unfold exitLockstep
  split
  · exact .ite h.after_updSide.after_setSides.after_raise.after_followSides h
  · exact h

theorem SameMove.after_beginCastling : SameMove s (beginCastling t) := by
  unfold beginCastling
  split
  · exact .ite (.ite h.after_setSides.after_beginIntr
      (.ite h.after_beginIntr.after_releaseClock h.after_setSides.after_castleOutcome)) h
  · exact h

theorem SameMove.after_holdAtMarker : SameMove s (holdAtMarker t) := .ite h.after_setGlb.after_enterSafe h

end

/-! ### The marker (R382, R384) -/

/-- The Move that ends gives way to the next, offered for its commit or not. -/
theorem offerCommit_starts (s : State) : (offerCommit s).jrn.move = s.jrn.move + 1 := by
  unfold offerCommit
  extract_lets n sent
  split <;> rfl

/-- What a marker leaves of the Move that ends, before the next one's work begins. -/
def markerPast (s : State) : State :=
  let t := offerCommit (fixAi (timeRecord .marker (if consuming s then notLate s else s)))
  { t with cmd := { t.cmd with shortInMove := 0, notesInMove := 0, gensMark := t.cmd.gensMark ++ [(t.jrn.move - 1, t.cmd.gens)] }
           jrn := { t.jrn with throttled := false, capped := false, markEl := elapsed t }
           sides := { t.sides with rsMoved := 0 } }

theorem moveWork_markerPast (s : State) : moveWork (markerPast s) = (s.jrn.move + 1, false, 0, 0) := by
  have hmove : (markerPast s).jrn.move = s.jrn.move + 1 := by
    refine (offerCommit_starts _).trans ?_
    split <;> rfl
  exact congrArg (·, false, 0, 0) hmove

/-- The next Move's work begins where the marker's own part ends. -/
theorem exec_moveMarker_of_powered {s : State} (hp : s.glb.porst = true) : exec .moveMarker s
    = .next (dmaGo (holdAtMarker (beginCastling (exitLockstep (consumeInputs
      (if consuming (markerPast s) then caughtUp (markerPast s) else markerPast s)))))) :=
  congrArg Host.Outcome.next (if_neg (by simp [hp]))

theorem exec_moveMarker_starts {s : State} (hp : s.glb.porst = true) :
    ∃ t, exec .moveMarker s = .next t ∧ moveWork t = (s.jrn.move + 1, false, 0, 0) := by
  have hpast := SameMove.refl (markerPast s)
  have hconsumed := (SameMove.ite (c := consuming (markerPast s) = true) hpast.after_caughtUp hpast).after_consumeInputs
  exact ⟨_, exec_moveMarker_of_powered hp,
    hconsumed.after_exitLockstep.after_beginCastling.after_holdAtMarker.after_dmaGo.trans (moveWork_markerPast s)⟩

/-! ### The Chess Clock as a whole -/

/-- Settles O35: each row's guard holds in the states of its own path, and nothing under a Move marker touches the next Move's work. -/
theorem chessClockComplete : Obligations.ChessClockComplete := by
  unfold Obligations.ChessClockComplete
  refine ⟨?stops, ?still, ?beats, ?weak, ?missed, ?resent, ?third, ?falls, ?alive, ?presses, ?grants, ?refuses, ?acked, ?late, ?marker,
    ?token, ?ack, ?timeout, ?slot⟩
  case stops => exact fun d c s hp => exec_alivePulseStop_of_pulsing hp c
  case still => exact fun d c s hp => exec_alivePulseStop_of_still hp c
  case beats => exact fun d s hp hl => exec_heartbeatSend_of_healthy hp hl
  case weak => exact fun d s hp hl => exec_heartbeatSend_of_unhealthy hp hl
  case missed => exact fun d s hp ha hml => exec_heartbeatMiss_of_pulse hp ha hml
  case resent =>
    rintro n d s _ hml hn rfl
    exact exec_mlFlitCrcFail_of_few hml hn
  case third =>
    rintro n d s _ hml hn rfl
    exact exec_mlFlitCrcFail_of_third hml hn
  case falls => exact fun d s hp ha => exec_flagFall_of_still hp ha
  case alive => exact fun d s ha => exec_flagFall_of_alive ha
  case presses => exact fun d s hm hp => exec_chessClockPress_of_may hm hp
  case grants => exact fun d s hh hp => exec_chessClockGrant_of_winner hh hp
  case refuses => exact fun d h s hh hd hp ha => exec_pressRefused_of_held hh hd hp ha
  case acked => exact fun h s hh hs hl ho hm => exec_handoverAck_of_applied hh hs hl ho hm
  case late => exact fun h s u hh hs hu => exec_handoverTimeout_of_sent hh hs hu
  case marker =>
    intro s hp
    obtain ⟨t, hexec, hwork⟩ := exec_moveMarker_starts hp
    simp only [moveWork, Prod.mk.injEq] at hwork
    obtain ⟨hmove, hthrottle, hshort, hnotes⟩ := hwork
    exact ⟨t, hexec, hmove, hshort, hnotes, hthrottle⟩
  case token =>
    exact fun x h n s hh hp ho hl hlo hm hc ht hb hf hg => exec_commitTokenRx_of_whole hh hp ho hl hlo hm hc ht hb hf hg
  case ack => exact fun h n s hh hp hm hl => exec_commitAck_of_applied hh hp hm hl
  case timeout => exact fun h n s hh hp hl ha => exec_commitAckTimeout_of_still hh hp hl ha
  case slot => exact fun h n s hh hp hl => exec_moveSlotWriteDone_of_alone hh hp hl

end Sys2Proof.Machine
end

section

/-! # What every step keeps: the queue of waiting commands, a legal mode, canonical flash contents

An operation is one of two kinds. Most leave the queue, both flashes and the mode as they stand (`standing`); the architect's frame
lemmas say so, and `simp` gathers them. The others take the mode through `toMode` or write a flash through `putFlash`;
`Keeps` says what they keep, and a chain of `Keeps.after_<operation>` follows a row's body from operation to operation. -/

namespace Sys2Proof.Machine

/-! ## The two predicates -/

/-- What the invariant and the frame of the queue speak of. -/
@[simp] def standing (s : State) : List Instr × Flash × Flash × Nat := (s.pending, s.flashW, s.flashB, s.glb.mode)

theorem standing_eq_iff {s t : State} : standing t = standing s ↔
    t.pending = s.pending ∧ t.flashW = s.flashW ∧ t.flashB = s.flashB ∧ t.glb.mode = s.glb.mode := by
  simp

theorem foldl_standing {α : Type} {f : State → α → State} (hf : ∀ s a, standing (f s a) = standing s) (l : List α) (s : State) :
    standing (l.foldl f s) = standing s := by
  induction l generalizing s with
  | nil => rfl
  | cons a l ih => rw [List.foldl_cons, ih, hf]

/-- `s` has the queue of `r`, and the invariant where `r` has it. -/
def Keeps (r s : State) : Prop := s.pending = r.pending ∧ (Inv r → Inv s)

theorem Keeps.refl (s : State) : Keeps s s := ⟨rfl, id⟩

theorem Keeps.trans {r s t : State} (h : Keeps r s) (k : Keeps s t) : Keeps r t := ⟨k.1.trans h.1, k.2 ∘ h.2⟩

section
variable {s₀ s t : State}

/-- An operation that leaves `standing` alone keeps. -/
theorem Keeps.same (h : Keeps s₀ s) (e : standing t = standing s) : Keeps s₀ t := by
  obtain ⟨hp, hw, hb, hm⟩ := standing_eq_iff.mp e
  exact ⟨hp.trans h.1, fun hr => by simpa only [Inv, hw, hb, hm] using h.2 hr⟩

/-- The same for an operation named by its function, so that the state before it is read off. -/
theorem Keeps.steady {f : State → State} (h : Keeps s₀ s) (e : standing (f s) = standing s) : Keeps s₀ (f s) := h.same e

theorem Keeps.ite {c : Prop} [Decidable c] (hs : Keeps s₀ s) (ht : Keeps s₀ t) : Keeps s₀ (if c then s else t) := by
  split
  · exact hs
  · exact ht

/-! ## The two operations that change what stands: the mode through `toMode`, a flash through `putFlash` -/

theorem Keeps.after_toMode (h : Keeps s₀ s) {m : Nat} {f : Bool} : Keeps s₀ (toMode m f s) := by
  refine ⟨(toMode_pending m f s).trans h.1, fun hr => ?_⟩
  obtain ⟨hm, hw, hb⟩ := h.2 hr
  exact ⟨toMode_legal m f hm, (toMode_flashW m f s).symm ▸ hw, (toMode_flashB m f s).symm ▸ hb⟩

theorem Keeps.after_putFlash (h : Keeps s₀ s) {d : SideId} {f : Flash} (hf : flashWf (flashOf s d) = true → flashWf f = true) :
    Keeps s₀ (putFlash s d f) := by
  refine ⟨(putFlash_pending s d f).trans h.1, fun hr => ?_⟩
  obtain ⟨hm, hw, hb⟩ := h.2 hr
  cases d
  · exact ⟨hm, hf hw, hb⟩
  · exact ⟨hm, hw, hf hb⟩

variable (h : Keeps s₀ s)
include h

/-! ## Modes, Safe-Hold, boot records -/

theorem Keeps.after_followSides : Keeps s₀ (followSides s) := .ite h.after_toMode h

theorem Keeps.after_goSafe {f : Bool} : Keeps s₀ (goSafe f s) :=
  .steady (f := fun t => safeFields (safePorts t true) true) (.after_toMode (h.same (by simp))) (by simp)

theorem Keeps.after_enterSafe {c : Nat} {f : Bool} : Keeps s₀ (enterSafe c f s) :=
  .ite (.after_goSafe (.ite (h.same (by simp)) (h.same (by simp)))) (.ite (h.same (by simp)) (h.same (by simp)))

/-- A boot record written anew leaves the flash's cells. -/
theorem Keeps.after_setBoot {d : SideId} {f : Flash} (hf : f.cells = (flashOf s d).cells) : Keeps s₀ (putFlash s d f) :=
  h.after_putFlash (congrArg (Memory.wf 0xFF) hf).trans

theorem Keeps.after_confirmBoot {d : SideId} : Keeps s₀ (confirmBoot d s) := by
  refine h.after_setBoot ?_
  split <;> split <;> rfl

theorem Keeps.after_enterResync {d : SideId} : Keeps s₀ (enterResync d s) := .after_followSides (h.same (by simp))

theorem Keeps.after_admitWaiting : Keeps s₀ (admitWaiting s) := by
  unfold admitWaiting
  split
  · exact .ite h.after_enterResync h
  · exact h

theorem Keeps.after_safeFromStart : Keeps s₀ (safeFromStart s) := .after_goSafe (h.same (by simp))

theorem Keeps.after_bypassFail : Keeps s₀ (bypassFail s) := by
  have hm : Keeps s₀ (toMode 0 true (setAlarm 2 (raise evStartFail { s with glb := { s.glb with cfgLoad := false } }))) :=
    .after_toMode (h.same (by simp))
  refine .steady (f := fieldsOff) (hm.same ?_) (by simp)
  refine (foldl_standing (fun _ _ => ?_) _ _).trans ?_ <;> simp

/-! ## A flag fall, Lockstep, castling and the grant of the Clock -/

theorem Keeps.after_noTaker {d : SideId} : Keeps s₀ (noTaker d s) := by
  have hu (t : State) (ht : Keeps s₀ t) : Keeps s₀ (if t.glb.mode = 1 then { t with glb := { t.glb with cfgLoad := false } }
      else if 3 ≤ t.glb.mode then enterSafe 2 true t else t) := .ite (ht.same (by simp)) (.ite ht.after_enterSafe ht)
  exact hu _ (.ite (h.same (by simp)) (h.same (by simp)))

theorem Keeps.after_holderFell {d : SideId} : Keeps s₀ (holderFell d s) :=
  .ite (.after_toMode (h.same (by simp))) (.ite (.after_toMode (h.same (by simp)))
    (.after_noTaker (.ite (h.same (by simp)) (h.same (by simp)))))

theorem Keeps.after_otherFell {d : SideId} : Keeps s₀ (otherFell d s) :=
  .ite h.after_followSides (.ite h (.ite h h.after_noTaker))

theorem Keeps.after_flagFall {d : SideId} : Keeps s₀ (flagFall d s) :=
  .ite (.after_holderFell (h.same (by simp))) (.after_otherFell (h.same (by simp)))

theorem Keeps.after_enterLockstep {d : SideId} : Keeps s₀ (enterLockstep d s) := .after_followSides (h.same (by simp))

theorem Keeps.after_linkFailed {d : SideId} : Keeps s₀ (linkFailed d s) :=
  .ite h.after_enterLockstep (.ite (.after_followSides (h.same (by simp))) h)

theorem Keeps.after_mlFail : Keeps s₀ (mlFail s) := by
  unfold mlFail
  dsimp only
  split
  · exact .after_linkFailed (h.same (by simp))
  · exact h.same (by simp)

theorem Keeps.after_startTests {d : SideId} : Keeps s₀ (startTests d s) := .after_followSides (h.same (by simp))

theorem Keeps.after_beginPending : Keeps s₀ (beginPending s) := by
  unfold beginPending
  split
  · exact .ite (.steady (f := putWork 5 _) h.after_startTests (by simp)) (h.same (by simp))
  · exact h

theorem Keeps.after_leaveCastling : Keeps s₀ (leaveCastling s) := by
  unfold leaveCastling
  refine .ite h.after_followSides (.ite (.after_enterSafe (h.same (by simp))) ?_)
  split
  · exact .steady (f := acquired) (.after_toMode (h.same (by simp))) (by simp)
  · exact .ite h.after_toMode (.ite h.after_toMode (.after_toMode (h.same (by simp))))

theorem Keeps.after_releaseClock {d : SideId} : Keeps s₀ (releaseClock d s) := .after_toMode (h.same (by simp))

theorem Keeps.after_grantTo {d : SideId} : Keeps s₀ (grantTo d s) := by
  unfold grantTo
  extract_lets lock r pressed _ granted booted stepped
  have hb : Keeps s₀ booted := .after_confirmBoot (.steady (f := handedOver d)
    (.ite (h.same (by simp +zetaDelta)) (h.same (by simp +zetaDelta))) (by simp))
  have hs : Keeps s₀ stepped := .ite (hb.same (by simp)) hb
  clear_value stepped
  refine .ite (hs.same (by simp +zetaDelta)) (.ite ?_ ?_)
  · exact .steady (f := dmaGo) (.after_beginPending (.after_leaveCastling (hs.same (by simp)))) (by simp)
  · exact .steady (f := fun t => beginReplay { t with sides := { t.sides with lsHold := false } })
      (.ite (hs.same (by simp)) (.ite hs hs.after_followSides)) (by simp)

theorem Keeps.after_warmMode : Keeps s₀ (warmMode s) := by
  unfold warmMode
  extract_lets ended back _ t
  have ht : Keeps s₀ t := h.same (by simp +zetaDelta)
  clear_value t
  exact .ite ht.after_safeFromStart (.ite ht.after_toMode (.ite ht.after_goSafe (.ite ht.after_toMode ht.after_toMode)))

theorem Keeps.after_endWarm : Keeps s₀ (endWarm s) := .steady (f := warmDone) h.after_warmMode (by simp)

theorem Keeps.after_lsContinue {d : SideId} : Keeps s₀ (lsContinue d s) := by
  unfold lsContinue
  extract_lets keep _ t o u
  have hu : Keeps s₀ u := .ite (h.same (by simp +zetaDelta)) (h.same (by simp +zetaDelta))
  clear_value u
  exact .ite (.after_followSides (hu.same (by simp))) (hu.same (by simp +zetaDelta))

theorem Keeps.after_exitLockstep : Keeps s₀ (exitLockstep s) := by
  unfold exitLockstep
  split
  · exact .ite (.after_followSides (h.same (by simp))) h
  · exact h

theorem Keeps.after_beginCastling : Keeps s₀ (beginCastling s) := by
  unfold beginCastling
  split
  · exact .ite (.ite (h.same (by simp)) (.ite (.after_releaseClock (h.same (by simp))) (h.same (by simp)))) h
  · exact h

theorem Keeps.after_holdAtMarker : Keeps s₀ (holdAtMarker s) := .ite (.after_enterSafe (h.same (by simp))) h

/-! ## Starts and resets -/

theorem Keeps.after_coldReset {cause : Nat} : Keeps s₀ (coldReset cause s) :=
  .steady (f := bypDrive) (.after_toMode (h.same (by simp))) (by simp)

theorem Keeps.after_beginCold : Keeps s₀ (beginCold s) := by
  unfold beginCold
  extract_lets asked _ t _ u
  have hu : Keeps s₀ u := by
    unfold u
    split <;> exact h.same (by simp +zetaDelta)
  clear_value u
  exact .after_coldReset (hu.same (by simp))

theorem Keeps.after_endLoad {m : Nat} : Keeps s₀ (endLoad m s) := by
  unfold endLoad
  extract_lets _ t u
  have ht : Keeps s₀ t := h.same (by simp +zetaDelta)
  have hu : Keeps s₀ u := .ite ht.after_safeFromStart (.ite ht.after_goSafe ht.after_toMode)
  clear_value u
  exact .after_admitWaiting (hu.same (by simp))

theorem Keeps.after_refuseItem : Keeps s₀ (refuseItem s) := .after_endLoad (h.same (by simp))

theorem Keeps.after_finishLong {g status result : Nat} : Keeps s₀ (finishLong g status result s) :=
  .ite (h.same (by simp)) (.ite (h.same (by simp)) (.after_refuseItem (h.same (by simp))))

theorem Keeps.after_abortWork {d : SideId} : Keeps s₀ (abortWork d s) := by
  unfold abortWork
  extract_lets t
  have ht : Keeps s₀ t := by
    unfold t
    split
    · exact .ite h.after_finishLong h
    · exact .ite h.after_finishLong h
    · exact h
  clear_value t
  split
  · exact .ite (ht.same (by simp)) ht
  · exact ht

theorem Keeps.after_resetSide {d : SideId} {cause : Nat} : Keeps s₀ (resetSide d cause s) := by
  unfold resetSide
  extract_lets r t act u v
  have ht : Keeps s₀ t := h.after_abortWork
  have hu : Keeps s₀ u := .ite ht.after_flagFall ht
  clear_value act u
  have hv : Keeps s₀ v := by
    unfold v
    split
    · exact hu.same (by simp)
    · exact hu
  clear_value v
  exact .after_followSides (hv.same (by simp +zetaDelta))

theorem Keeps.after_warmStart {cause : Nat} : Keeps s₀ (warmStart cause s) := by
  unfold warmStart
  refine .ite h ?_
  extract_lets _ noted _ pinned settled copied aborted hold held
  have hs : Keeps s₀ settled := by
    unfold settled
    split <;> exact h.same (by simp +zetaDelta)
  have hc {t : State} (ht : Keeps s₀ t) : Keeps s₀ (if t.sides.phase = 0 then t else abortResync t) := .ite ht (ht.same (by simp))
  have hl : Keeps s₀ (loseClock copied) := (hc hs).same (by simp +zetaDelta)
  have ha : Keeps s₀ aborted := .steady (f := castleOutcome _ _) (.after_abortWork (.after_abortWork hl)) (by simp)
  have hh {d : SideId} {t : State} (ht : Keeps s₀ t) : Keeps s₀ (hold d t) := .ite ht (ht.same (by simp))
  clear_value aborted
  have hd : Keeps s₀ held := hh (hh ha)
  clear_value held
  exact .after_toMode (hd.same (by simp +zetaDelta))

theorem Keeps.after_oneSideWarm : Keeps s₀ (oneSideWarm s) := .ite (.after_toMode (h.same (by simp))) h

theorem Keeps.after_giveUpWarm : Keeps s₀ (giveUpWarm s) := by
  unfold giveUpWarm
  extract_lets bad keep t u
  have ht : Keeps s₀ t := by
    unfold t
    split
    · exact h.same (by simp)
    · exact h
  have hu : Keeps s₀ u := .after_coldReset (ht.same (by simp))
  clear_value u
  exact .ite (hu.same (by simp)) h

theorem Keeps.after_bootFailed {d : SideId} {cause : Nat} : Keeps s₀ (bootFailed d cause s) := by
  unfold bootFailed
  extract_lets full t
  have ht : Keeps s₀ t := h.same (by simp +zetaDelta)
  clear_value t
  exact .ite (.ite ht.after_bypassFail ht) (.after_giveUpWarm ht.after_followSides)

theorem Keeps.after_bootReady {d : SideId} : Keeps s₀ (bootReady d s) := by
  unfold bootReady
  extract_lets full t good u
  have ht : Keeps s₀ t := .ite (h.same (by simp)) h
  clear_value t
  have hu : Keeps s₀ u := .after_oneSideWarm (ht.same (by simp))
  clear_value u
  exact .ite (.after_giveUpWarm (hu.same (by simp))) (.after_admitWaiting (hu.same (by simp)))

theorem Keeps.after_porstReset : Keeps s₀ (porstReset s) := ⟨h.1, fun hr => ⟨by simp [porstReset], (h.2 hr).2⟩⟩

theorem Keeps.after_releasePorst : Keeps s₀ (releasePorst s) := by
  refine ⟨h.1, fun hr => ⟨?_, (h.2 hr).2⟩⟩
  dsimp [releasePorst]
  split <;> simp

theorem Keeps.after_pinReset {d : SideId} {cause : Nat} : Keeps s₀ (pinReset d cause s) :=
  .ite (.same (s := resetSide d cause s) h.after_resetSide (by simp)) h.after_resetSide

theorem Keeps.after_feedLost {f : Feed} : Keeps s₀ (feedLost f s) := by
  unfold feedLost
  extract_lets d t
  have ht : Keeps s₀ t := .after_resetSide (h.same (by simp))
  clear_value t
  exact ht.same (by simp +zetaDelta)

theorem Keeps.after_rimUnlock : Keeps s₀ (rimUnlock s) := .after_enterSafe (h.same (by simp))

/-! ## Firmware commands -/

theorem Keeps.after_leaveStep {d : SideId} : Keeps s₀ (leaveStep d s) := .ite (.after_followSides (h.same (by simp))) h

/-! ## The rim's sets -/

theorem Keeps.after_rimResetStandby : Keeps s₀ (rimResetStandby s) := by
  unfold rimResetStandby
  split
  · exact h.after_resetSide
  · exact h

theorem Keeps.after_rimResume {causes : BitVec 5} : Keeps s₀ (rimResume causes s) := by
  unfold rimResume
  refine .ite h ?_
  extract_lets new _ t u
  have hu : Keeps s₀ u := .after_toMode (h.same (by simp +zetaDelta))
  clear_value u
  exact .ite (hu.same (by simp)) (.after_goSafe (.ite (hu.same (by simp +zetaDelta)) (hu.same (by simp +zetaDelta))))

theorem Keeps.after_rimMode {m : Nat} : Keeps s₀ (rimMode m s) :=
  .ite h (.ite (h.same (by simp)) (.ite h.after_toMode (.ite (.steady (f := acquired) h.after_toMode (by simp))
    (.ite (h.same (by simp)) (.ite h.after_toMode h)))))

theorem Keeps.after_rimWrite {w : RimWrite} : Keeps s₀ (rimWrite s w) := by
  cases w
  case mode => exact h.after_rimMode
  case safeHold => exact h.after_enterSafe
  case resume => exact h.after_rimResume
  case resetStandby => exact h.after_rimResetStandby
  case fwReset => exact h.after_resetSide
  case startCold => exact h.after_beginCold
  case startWarm => exact h.after_warmStart
  all_goals exact h.same (by simp [standing, rimWrite])

end

/-! ## Command bodies -/

/-- An effect of a command that leaves `standing` alone. -/
def SteadyBody (b : Body) : Prop := ∀ w p l s, standing (actState (b.act w p l s)) = standing s

/-- Four commands of the table write a flash or follow the sides' mode; every other body is steady. -/
theorem commandTable_steady : ∀ x ∈ commandTable,
    x.2 = bodySelftest ∨ x.2 = bodyFwWrite ∨ x.2 = bodyFwVerify ∨ x.2 = bodyFwActivate ∨ SteadyBody x.2 := by
  simp only [commandTable, List.forall_mem_cons, List.not_mem_nil, false_implies, implies_true, and_true, true_or, or_true, true_and]
  and_intros
  all_goals
    refine .inr (.inr (.inr (.inr fun w p l s => ?_)))
    dsimp only [
      bodyCreateCq, bodyCreateSq, bodyDeleteSq, bodyDeleteCq, bodySetWrr, bodySetQuota, bodyQueQuery, bodyPortSet,
      bodyPortEnable, bodyPortFilterSet, bodyPortEeeSet, bodyPortRecal, bodyPortQuery, bodyFldPortSet, bodyAggLoad,
      bodyFldQuery, bodyTapeLoad, bodyClassSet, bodyCloseMode, bodyFlowSet, bodyFlowDisable, bodyGateQuery, bodySchQuery,
      bodyTapeCancel, bodyIdLoad, bodyMeterSet, bodySeqgenSet, bodySeqrecSet, bodyStrmQuery, bodyDomainSet, bodyTimeStep,
      bodyRateSet, bodyPpsSet, bodyTimeQuery, bodyCastle, bodyResetStandby, bodySideQuery, bodyFabSet, bodyRouteLoad,
      bodyBypassSet, bodyFabQuery, bodyNote, bodyChallenge, bodyRecClear, bodyRecQuery, bodyFwQuery, bodyModeQuery,
      bodyConfigEnter, bodyConfigExit, bodySafeHold, bodyResume]
    (repeat' split) <;> simp

theorem Keeps.after_markedSlot {s₀ s : State} (h : Keeps s₀ s) {d : SideId} {slot st : Nat} :
    Keeps s₀ (putFlash s d (markSlot slot st (flashOf s d))) := by
  refine h.after_setBoot ?_
  unfold markSlot
  dsimp only
  split <;> rfl

/-- An effect that keeps what every step keeps. -/
def SafeBody (b : Body) : Prop := ∀ w p l s, Keeps s (actState (b.act w p l s))

theorem SteadyBody.safe {b : Body} (h : SteadyBody b) : SafeBody b := fun w p l s => (Keeps.refl s).same (h w p l s)

theorem bodySelftest_safe : SafeBody bodySelftest := by
  intro w p l s
  dsimp only [bodySelftest]
  split
  · exact (Keeps.refl s).same (by simp)
  · exact (Keeps.refl s).after_startTests

theorem bodyFwWrite_safe : SafeBody bodyFwWrite := fun _ _ _ s => (Keeps.refl s).after_leaveStep.after_markedSlot

theorem bodyFwVerify_safe : SafeBody bodyFwVerify := fun _ _ _ s => (Keeps.refl s).after_leaveStep

theorem bodyFwActivate_safe : SafeBody bodyFwActivate := fun _ _ _ s =>
  .steady (f := pushSet _) (.after_setBoot (Keeps.refl s).after_leaveStep rfl) (by simp)

theorem commandTable_safe : ∀ x ∈ commandTable, SafeBody x.2 := by
  intro x hx
  obtain h | h | h | h | h := commandTable_steady x hx
  · exact h ▸ bodySelftest_safe
  · exact h ▸ bodyFwWrite_safe
  · exact h ▸ bodyFwVerify_safe
  · exact h ▸ bodyFwActivate_safe
  · exact h.safe

theorem bodyStartCold_safe : SafeBody bodyStartCold := fun _ _ _ s => .ite ((Keeps.refl s).same (by simp)) ((Keeps.refl s).same (by simp))

theorem bodyStartWarm_safe : SafeBody bodyStartWarm := fun _ _ _ s => (Keeps.refl s).same (by simp [standing, bodyStartWarm])

theorem commandOf_safe {p : Packet} {c : CmdSpec} {b : Body} (h : commandOf p = some (c, b)) : SafeBody b := by
  unfold commandOf at h
  split at h
  · cases h
    split
    · exact bodyStartWarm_safe
    · exact bodyStartCold_safe
  · exact commandTable_safe _ (List.mem_of_find?_eq_some h)

/-! ## The common steps of a command, the configuration's items, the replay -/

theorem Keeps.after_perform {s₀ s : State} (h : Keeps s₀ s) {b : Body} (hb : SafeBody b) {c : CmdSpec} {w : Issuer} {p : Packet}
    {ib : ReadEnd} :
    Keeps s₀ (perform c b w p ib s).1 := by
  unfold perform
  dsimp only
  generalize hu : (if (dryRun p && !c.query) = true then s else ibChannel c w p ib s) = u
  have hi : Keeps s₀ u := hu ▸ .ite h (h.same (by simp))
  split
  · exact hi.same (by simp)
  · split
    · exact hi.same (by simp)
    · have ha := hi.trans (hb w p ((c.ibuf.bind (fun o => ibBytes p o ib)).getD []) u)
      split <;> rename_i e <;> rw [e] at ha
      · exact .steady (f := reply _ _ _ _) (.ite (.steady (f := bumpGen p) ha (by simp)) ha) (by simp)
      · exact Keeps.same ha (by simp)

theorem Keeps.after_runAdmin {s₀ s : State} (h : Keeps s₀ s) {b : Body} (hb : SafeBody b) {c : CmdSpec} {n : Host} {p : Packet}
    {ib : ReadEnd} :
    Keeps s₀ (runAdmin c b n p ib s) :=
  .ite (.steady (f := resume s) (.after_perform (h.same (by simp)) hb) (by simp)) h

section
variable {s₀ s : State} (h : Keeps s₀ s)
include h

theorem Keeps.after_commandItem {p : Packet} {ib : ReadEnd} : Keeps s₀ (commandItem p ib s) := by
  unfold commandItem
  split
  · exact h.after_refuseItem
  · rename_i c b hc
    have hp := h.after_perform (commandOf_safe hc) (c := c) (w := { host := s.cmd.priv, cfg := true }) (p := p) (ib := ib)
    split <;> rename_i e <;> rw [e] at hp
    · exact h.after_refuseItem
    · exact hp.same (by simp)
    · exact hp

theorem Keeps.after_runItem {i : Option CfgItem} : Keeps s₀ (runItem s i) := by
  unfold runItem
  split
  · exact h.after_commandItem
  · exact .steady (f := nextItem) (.ite (h.same (by simp)) h) (by simp)
  · exact .ite h.after_endLoad (.after_endLoad (h.same (by simp)))
  · exact h.after_endLoad
  · exact h.after_refuseItem

theorem Keeps.after_unwrite {d : SideId} {slot off n : Nat} {old : Flash} : Keeps s₀ (unwrite d slot off n old s) := by
  refine h.after_putFlash fun hf => ?_
  have hcells := writeCells_wf (slotBase slot + off) (slotBytes old slot off n) hf
  split <;> exact hcells

theorem Keeps.after_writeSlotBytes {d : SideId} {slot off : Nat} {l : List Byte} : Keeps s₀ (writeSlotBytes d slot off l s) := by
  refine h.after_putFlash fun hf => ?_
  have hcells := writeCells_wf (slotBase slot + off) (l ++ List.replicate (4096 * divUp l.length 4096 - l.length) 0xFF) hf
  unfold markSlot
  dsimp only
  split <;> exact hcells

theorem Keeps.after_undoIb {x : IbCmd} {later : List IbCmd} : Keeps s₀ (undoIb x later s) := by
  unfold undoIb
  extract_lets op own _ t u _ gen v w i a
  have ht : Keeps s₀ t := .ite (h.same (by simp)) h
  clear_value t
  have hu : Keeps s₀ u := by
    unfold u
    split
    · exact ht.after_unwrite
    · exact ht
  clear_value u
  have hv : Keeps s₀ v := .ite (hu.same (by simp)) hu
  clear_value v
  have hw : Keeps s₀ w := hv.same (by simp +zetaDelta)
  clear_value w a
  refine .ite (hu.same (by simp)) (.ite ?_ (.ite (hw.same (by simp)) (.ite hw (hw.same (by simp)))))
  split
  · exact hw.same (by simp)
  · exact hw

theorem Keeps.after_executeAgain {x : IbCmd} {r : ReadEnd} : Keeps s₀ (executeAgain x r s) := by
  unfold executeAgain
  split
  · exact h
  · rename_i c b hc
    have hb : SafeBody b := commandTable_safe _ (List.mem_of_find?_eq_some hc)
    extract_lets mine q last counted put _ _ _ t u
    have hp : Keeps s₀ put := .steady (f := fun t => putAq t _ _) (.ite (h.same (by simp)) h) (by simp)
    clear_value put
    have ht : Keeps s₀ t := .after_perform (hp.same (by simp +zetaDelta)) hb
    clear_value t
    exact ht.same (by simp +zetaDelta)

theorem Keeps.after_rereadIb {x : IbCmd} {later : List IbCmd} {r : ReadEnd} : Keeps s₀ (rereadIb x later r s) := by
  unfold rereadIb
  split
  · exact .ite h.after_executeAgain h
  · refine .steady (f := restatus _ _) ?_ (by simp)
    split
    · exact .steady (f := countStatus _ _ _) h.after_undoIb (by simp)
    · exact h.same (by simp)
    · exact h

end

theorem Keeps.after_rereadAll {l : List IbCmd} {m : List ReadEnd} {s₀ s : State} (h : Keeps s₀ s) : Keeps s₀ (rereadAll l m s) := by
  fun_induction rereadAll l m s with
  | case1 x xs r rs s ih => exact ih h.after_rereadIb
  | case2 => exact h

/-! ## The rows by family -/

/-- The families of rows; only the commands and the rows that move the mode or write a flash need more than frame lemmas. -/
inductive RowFamily | command | start | queue | transmit | port | field | side | register | mode

/-- The family of a row. -/
def rowFamily : Instr → RowFamily
  | .frameTx .. | .frameRxPost .. | .inlineFrame .. | .streamSend .. | .dmaXfer .. | .aggBuildGather .. | .aggBuildScatter ..
  | .fence .. | .fenceFlush .. => .start
  | .statusPacketWrite .. | .sqDbWrite .. | .sqPushWrite .. | .cqCiWrite .. | .ringFetchTurn .. | .ringFetchComplete ..
  | .ringFetchFault .. | .entryAccept .. | .cqeWrite .. | .cqOverflowMove .. | .dmaPoolChannelAssign .. | .dmaReadCompletion ..
  | .dmaChainEnd .. | .dmaBarrierFlushComplete .. | .dmaBusErrorPool .. | .dmaBusErrorPrivileged .. | .pchHaltRelease ..
  | .dmaPoolResume .. | .dmaPoolAbortCand .. | .dmaPoolAutoAbort | .lateCompletionDiscard .. | .dmaCompletionTimeout ..
  | .dmaWithdraw .. => .queue
  | .schedulerPick .. | .expressLaneArrival .. | .segmentPick .. | .payloadPrefetch .. | .frameExpiry .. | .tagSweep ..
  | .monitorSample .. | .rateTick | .gateEntryStart .. | .gateCycleEnd .. | .tapeSwitch .. | .gateHoldAdvance ..
  | .executorFrameStart .. | .frameDeparture .. | .mmVerifyResponse .. | .mmVerifyTimeout .. => .transmit
  | .calibrationEnd .. | .portFrameRxStart .. | .portFrameRxEnd .. | .rxClassify .. | .linkUp .. | .linkDown ..
  | .inbandMismatch .. | .lpiEnter .. | .lpiWake .. | .lpiWakeDone .. | .lldpEeeTlvRx .. | .lldpTlvAgeOut ..
  | .frerResetTimeout .. | .fecUncorrectableBlock .. | .rxLpiSignaled .. => .port
  | .fieldFrameRxStart .. | .fieldFrameRxEnd .. | .fieldRxDeliver .. | .fieldEnqueue .. | .fieldTxEnd ..
  | .fieldSettingApply .. | .canBusOff .. | .busoffRecovery .. | .plcaBeaconLoss .. | .gatherTrigger .. | .gatherBuildEnd ..
  | .scatterWriteEnd .. | .helloSend | .helloRx .. | .adjacencyTimeout .. | .topologySend | .topologyRx .. | .topologyAgeOut ..
  | .routeCompute .. | .idClaim | .transitRelay .. | .relayHoldTimeout .. | .bypassInsertTimeout .. | .bypassHoldoffEnd ..
  | .plcaBeaconReturn .. | .bypassLinkLossTimeout .. => .field
  | .recordTake | .recordWriteDone .. | .bankFail .. | .recCursorWrite .. | .recRdOldest .. | .recRdNewest ..
  | .recWindowLoadEnd .. | .evtRouteWrite .. | .evtCoalWrite .. | .coalesceTimeout .. | .evtPinCfgWrite .. | .eventNPulseEnd
  | .evtTestRaise .. | .evtStatClear .. | .cmdAqCfgWrite .. | .portCntLoRead .. | .counterReadClear .. | .loWordRead ..
  | .heldSideReadComplete .. | .registerWrite .. | .sideRegWriteApply | .txtsPop0Read .. | .recorderRebuildEnd .. | .optimeSave
  | .journalSummaryWrite => .register
  | .stepApply | .ppsOutPulse | .ppsInEdge | .msTimeEvent | .syncRx .. | .syncTransmit .. | .pdelayReqTransmit ..
  | .pdelayRx .. | .syncReceiptTimeout .. | .slewEnd | .prefSlotReturn | .refLost .. | .forceSwitch .. | .alivePulseStop ..
  | .heartbeatSend .. | .chessClockPress .. | .pressRefused .. | .commitAck | .moveSlotWriteDone .. | .jrnThrottle
  | .lsOutputMismatch .. | .lsPartnerWaitTimeout .. | .resyncPhaseEnd .. | .scoresheetFull | .flushEnd .. | .perstAssert ..
  | .hostLinkChange .. | .busMasterEnableChange .. | .msixUnmask .. | .feedPresent .. | .viofFault .. | .viofRecover ..
  | .thermCross .. | .holdNHigh | .supplySelectorSwitch .. | .rimClockRelock .. => .side
  | .autoReset .. | .classLTimeout .. | .chessClockGrant | .commitAckTimeout | .commitTokenRx .. | .configLoadItem ..
  | .dispatchRestartEnd .. | .feedLoss .. | .flagFall .. | .handoverAck | .handoverTimeout | .heartbeatMiss .. | .holdNLow
  | .longCommandComplete .. | .lsSelfCheckEnd .. | .mlFlitCrcFail .. | .mlSelftestRun .. | .moveMarker | .porstNAssert
  | .porstNRelease | .refHoldExpiry | .refQualified .. | .replayEnd .. | .resyncLoadEnd | .rimClockUnlock .. | .rimSetApply ..
  | .rimSupplyFail | .selftestEnd .. | .sideBootEnd .. | .sideResetPinAssert .. | .bothSidePinsLow | .sideResetRelease ..
  | .timeAcqTimeout | .timeTick .. => .mode
  | _ => .command

/-! ## The rows that move the mode or write a flash -/

theorem workEnd_keeps {s₀ s t : State} {op : LongOp} {st result : Nat} (hw : workEnd s op = some (st, result, t)) (h : Keeps s₀ s) :
    Keeps s₀ t := by
  cases op
  case waitSet n =>
    simp only [workEnd] at hw
    split at hw <;> cases hw
    exact h
  case fwWrite d slot off l =>
    cases hw
    exact h.after_writeSlotBytes
  case fwVerify d slot =>
    simp only [workEnd] at hw
    split at hw <;> cases hw
    · exact h.after_markedSlot
    · exact h
  case portRecal =>
    simp only [workEnd] at hw
    split at hw <;> cases hw
    exact h.same (by simp)
  case portSet =>
    simp only [workEnd] at hw
    split at hw <;> cases hw
    exact h
  case castle x =>
    cases x <;> cases hw
    exact h
  case selftest x =>
    cases x <;> cases hw
    exact h
  case fwActivate x =>
    cases x <;> cases hw
    exact h
  case startCold => cases hw
  case startWarm => cases hw
  all_goals
    cases hw
    exact h.same (by simp)

theorem workExpired_keeps {s₀ s t : State} {r : Running} (hw : workExpired s r = some t) (h : Keeps s₀ s) : Keeps s₀ t := by
  unfold workExpired at hw
  split at hw
  · split at hw <;> cases hw
    exact h
  · cases hw
    exact h.same (by simp)
  · split at hw <;> cases hw
    exact .after_followSides (h.same (by simp))
  · cases hw
    exact h
  · cases hw
    exact h
  · split at hw <;> cases hw
    exact h
  · cases hw

theorem Keeps.after_rimWrites {l : List RimWrite} {s₀ s : State} (h : Keeps s₀ s) : Keeps s₀ (l.foldl rimWrite s) := by
  induction l generalizing s with
  | nil => exact h
  | cons w l ih => exact ih h.after_rimWrite

theorem bootImage_cells {f g : Flash} {x y : ImageFacts} (h : bootImage f x y = some g) : g.cells = f.cells := by
  unfold bootImage at h
  split at h
  · cases h
    rfl
  · split at h <;> cases h
    rfl

theorem chooseSlot_cells (f : Flash) : (chooseSlot f).cells = f.cells := by
  unfold chooseSlot
  split
  · rfl
  · split <;> rfl

theorem modeRow_keeps {c : Instr} {s t : State} (hf : rowFamily c = .mode) (e : exec c s = .next t) : Keeps s t := by
  have h := Keeps.refl s
  cases c <;> cases hf <;> cases e
  case timeTick =>
    refine .ite h ?_
    dsimp only
    split
    · exact .ite (h.same (by simp)) (h.same (by simp))
    · exact .ite (h.same (by simp)) (.after_enterSafe (h.same (by simp)))
  case autoReset => exact .ite h (.ite (.steady (f := raise _) (.after_resetSide (h.same (by simp))) (by simp)) (.ite h (h.same (by simp))))
  case chessClockGrant =>
    refine .ite h ?_
    split
    · exact h.after_grantTo
    · exact h
  case commitAckTimeout =>
    split
    · exact .ite h (.ite h.after_mlFail (h.same (by simp)))
    · exact h
  case commitTokenRx =>
    split
    · exact .ite h (.ite (h.same (by simp)) h.after_mlFail)
    · exact .ite h (.ite (h.same (by simp)) (.ite h.after_mlFail h))
    · exact h
  case configLoadItem => exact .ite h.after_runItem h
  case dispatchRestartEnd =>
    extract_lets was _ t u v w
    have ht : Keeps s t := h.same (by simp +zetaDelta)
    clear_value t
    have hu : Keeps s u := .ite (ht.same (by simp)) ht
    clear_value u
    have hv : Keeps s v := .ite (.after_endWarm hu.after_admitWaiting) hu.after_leaveCastling
    clear_value v
    have hw : Keeps s w := by
      unfold w
      split
      · exact .ite hv.after_linkFailed hv
      · exact hv
    exact .ite (.steady (f := consumeInputs) (.after_beginPending hw.after_admitWaiting) (by simp)) h
  case feedLoss => exact .ite h (.ite h.after_feedLost (h.same (by simp)))
  case flagFall => exact .ite h.after_flagFall h
  case handoverAck =>
    split
    · exact .ite (.after_releaseClock (h.same (by simp))) h
    · exact h
  case handoverTimeout =>
    split
    · have ht {x : State} (hx : Keeps s x) : Keeps s (if x.sides.disp = .running then endIntr x else x) := .ite (hx.same (by simp)) hx
      exact ht (.after_mlFail (h.same (by simp)))
    · exact h
  case heartbeatMiss => exact .ite h.after_mlFail h
  case holdNLow => exact .ite (h.same (by simp)) (.ite (h.same (by simp)) (.ite (.after_enterSafe (h.same (by simp))) (h.same (by simp))))
  case mlFlitCrcFail => exact .ite h (.ite (.after_mlFail (h.same (by simp))) (h.same (by simp)))
  case mlSelftestRun =>
    split
    · exact .ite (h.same (by simp)) (.ite (.ite (.after_enterResync (h.same (by simp))) (h.same (by simp))) h)
    · exact h
  case lsSelfCheckEnd =>
    have ho {d : SideId} {r : RecIn} {x : State} (hx : Keeps s x) : Keeps s (lsContinue d (offer r x)) :=
      .after_lsContinue (hx.same (by simp))
    exact .ite h (.ite (ho (h.same (by simp))) (.ite (ho (h.same (by simp))) (.after_enterSafe (h.same (by simp)))))
  case moveMarker =>
    have hc {x : State} (hx : Keeps s x) : Keeps s (consumeInputs (if consuming x then caughtUp x else x)) :=
      .steady (.ite (hx.same (by simp)) hx) (by simp)
    have hp : Keeps s (markerPast s) :=
      .same (s := if consuming s then notLate s else s) (.ite (h.same (by simp)) h) (by simp [standing, markerPast])
    exact .ite h (.steady (f := dmaGo) (.after_holdAtMarker (.after_beginCastling (.after_exitLockstep (hc hp)))) (by simp))
  case porstNAssert => exact h.after_porstReset
  case porstNRelease => exact .ite h (.ite (h.same (by simp)) h.after_releasePorst)
  case refHoldExpiry => exact .ite h (.after_rimUnlock (h.same (by simp)))
  case refQualified r qual =>
    have hx : Keeps s (putRef r.val true qual s) := h.same (by simp)
    exact .ite hx.after_releasePorst (.ite hx (.steady (f := regainLocks) (.ite (hx.same (by simp)) hx) (by simp)))
  case replayEnd =>
    refine .ite (.same (.after_rereadAll (h.same (by simp))) (foldl_standing (fun _ _ => ?_) _ _)) h
    simp
  case resyncLoadEnd =>
    split
    · exact h
    · exact .ite (.after_followSides (.steady (f := activateOutcome _ _) (.after_confirmBoot (h.same (by simp))) (by simp))) h
  case rimClockUnlock => exact .ite (.after_rimUnlock (h.same (by simp))) h
  case rimSetApply =>
    refine .ite (h.same (by simp)) ?_
    split
    · exact h
    · exact .ite h (.ite (h.same (by simp)) (Keeps.after_rimWrites (h.same (by simp))))
  case rimSupplyFail => exact .after_porstReset (h.same (by simp))
  case selftestEnd =>
    split
    · refine .ite h ?_
      extract_lets all good bad t _ u
      have hu : Keeps s u := h.same (by simp +zetaDelta)
      exact .ite (.after_followSides (hu.same (by simp))) (.ite hu.after_enterResync (.after_followSides (hu.same (by simp))))
    · exact h
  case sideBootEnd d b x y f =>
    refine .ite h (.ite h.after_bypassFail ?_)
    split
    · exact h.after_bootFailed
    · split
      · next f hf => exact .after_bootReady (h.after_setBoot (bootImage_cells hf))
      · exact h.after_bootFailed
  case sideResetPinAssert => exact .ite (h.same (by simp)) (.ite (.after_warmStart (h.same (by simp))) (.after_pinReset (h.same (by simp))))
  case bothSidePinsLow =>
    exact .ite (h.same (by simp)) (.ite (.after_warmStart (h.same (by simp)))
      (.after_resetSide (.after_resetSide (h.same (by simp)))))
  case sideResetRelease d =>
    refine .ite (h.same (by simp)) (.ite (.after_oneSideWarm (.after_setBoot (h.same (by simp)) ?_)) h)
    exact (chooseSlot_cells _).trans (by simp [flashOf])
  case timeAcqTimeout => exact .ite h (.ite (.after_toMode (h.same (by simp))) (.ite (h.same (by simp)) h))
  case longCommandComplete =>
    refine .ite h ?_
    split
    · exact h
    · split
      · next hw => exact .after_finishLong (workEnd_keeps hw h)
      · exact h
  case classLTimeout =>
    refine .ite h ?_
    split
    · exact h
    · split
      · next hw => exact .after_finishLong (workExpired_keeps hw h)
      · exact h

/-! ## The rows that leave what stands alone -/

theorem startRow_standing {h : Host} {q : QId} {t : OpTag} {mine : List Byte → Bool} {kind : OpKind}
    {extra : State → List Byte → List Finding} {ready : State → Sq → Bool} {run : Nat → Taken → State → State}
    (hr : ∀ t e s, standing (run t e s) = standing s) (s : State) :
    standing (startRow h q t mine kind extra ready run s) = standing s := by
  simp only [standing_eq_iff] at hr ⊢
  exact ⟨startRow_pending _ _ _ _ _ _ _ _ _ fun t e s => (hr t e s).1, startRow_flashW _ _ _ _ _ _ _ _ _ fun t e s => (hr t e s).2.1,
    startRow_flashB _ _ _ _ _ _ _ _ _ fun t e s => (hr t e s).2.2.1, startRow_mode _ _ _ _ _ _ _ _ _ fun t e s => (hr t e s).2.2.2⟩

theorem ite_standing {c : Prop} [Decidable c] {s t u : State} (ht : standing t = standing s) (hu : standing u = standing s) :
    standing (if c then t else u) = standing s := by
  split
  · exact ht
  · exact hu

theorem byGate_standing {f : State → State} (hf : ∀ s, standing (f s) = standing s) (d : SideId) (s : State) :
    standing (byGate d f s) = standing s := by
  unfold byGate
  split
  · exact hf s
  · simp

theorem consumeAt_standing {f : State → State} (hf : ∀ s, standing (f s) = standing s) (st : Stamp) (s : State) :
    standing (consumeAt st f s) = standing s := hf _

theorem reserve_standing {p n : Nat} {s t : State} (e : reserve p n s = some t) : standing t = standing s := by
  simp [standing, reserve_pending e, reserve_flashW e, reserve_flashB e, reserve_mode e]

theorem sourceFault_standing (h : Host) (q : QId) (t : OpTag) (src : ReadEnd) (s v : State) :
    standing (sourceFault h q t src s v) = standing v := by
  simp

section
variable {c : Instr} {s t : State}

theorem startRow_keepsStanding (hf : rowFamily c = .start) (e : exec c s = .next t) : standing t = standing s := by
  cases c <;> cases hf <;> cases e
  case fenceFlush =>
    refine startRow_standing (fun _ _ _ => ?_) _
    simp [standing, foldl_pending, foldl_flashW, foldl_flashB, foldl_mode]
  case aggBuildScatter =>
    refine (sourceFault_standing _ _ _ _ _ _).trans ((startRow_standing (fun _ _ _ => ?_) _).trans ?_)
    · exact ite_standing (by simp) (by simp)
    · split <;> simp
  all_goals
    refine startRow_standing (fun _ _ _ => ?_) _
    dsimp -failIfUnchanged only
    (repeat' split) <;> simp

theorem queueRow_standing (hf : rowFamily c = .queue) (e : exec c s = .next t) : standing t = standing s := by
  cases c <;> cases hf <;> cases e
  case statusPacketWrite =>
    split
    · rfl
    · refine ite_standing ?_ (byGate_standing (fun _ => ?_) _ _) <;> split <;> simp
  all_goals
    dsimp -failIfUnchanged only <;>
    (repeat' split) <;> simp

theorem transmitRow_standing (hf : rowFamily c = .transmit) (e : exec c s = .next t) : standing t = standing s := by
  cases c <;> cases hf <;> cases e
  all_goals
    dsimp -failIfUnchanged only
    (repeat' split) <;> simp

theorem portRow_standing (hf : rowFamily c = .port) (e : exec c s = .next t) : standing t = standing s := by
  cases c <;> cases hf <;> cases e
  case portFrameRxStart =>
    dsimp only
    split
    · split
      · next e => exact .trans (by simp) (reserve_standing e)
      · simp
    · rfl
  case rxClassify =>
    split
    · rfl
    · split
      · exact (consumeAt_standing (fun _ => by simp) _ _).trans (by simp)
      · rfl
  all_goals
    dsimp -failIfUnchanged only
    (repeat' split) <;> simp

theorem fieldRow_standing (hf : rowFamily c = .field) (e : exec c s = .next t) : standing t = standing s := by
  cases c <;> cases hf <;> cases e
  case fieldRxDeliver =>
    dsimp only
    split
    · rfl
    · split
      · refine (consumeAt_standing (fun _ => ?_) _ _).trans (by simp)
        simp [standing, deliverRx_pending, deliverRx_flashW, deliverRx_flashB, deliverRx_mode]
      · rfl
  case gatherTrigger =>
    split
    · rfl
    · split
      · rfl
      · refine ite_standing rfl (ite_standing (foldl_standing (fun _ _ => ?_) _ _) rfl)
        simp
  case helloSend =>
    refine ite_standing (foldl_standing (fun _ _ => ?_) _ _) rfl
    simp
  case topologySend =>
    refine ite_standing (foldl_standing (fun _ _ => ?_) _ _) rfl
    simp
  all_goals
    dsimp -failIfUnchanged only
    (repeat' split) <;> simp

theorem registerRow_standing (hf : rowFamily c = .register) (e : exec c s = .next t) : standing t = standing s := by
  cases c <;> cases hf <;> cases e
  case recorderRebuildEnd =>
    dsimp only
    (repeat' split) <;> simp [standing, foldl_pending, foldl_flashW, foldl_flashB, foldl_mode]
  all_goals
    dsimp -failIfUnchanged only
    (repeat' split) <;> simp

theorem sideRow_standing (hf : rowFamily c = .side) (e : exec c s = .next t) : standing t = standing s := by
  cases c <;> cases hf <;> cases e
  case stepApply =>
    refine ite_standing rfl ((foldl_standing (fun _ _ => ?_) _ _).trans (foldl_standing (fun _ _ => ?_) _ _)) <;> simp
  case syncTransmit =>
    refine byGate_standing (fun _ => ?_) _ _
    dsimp only
    split <;> simp
  case pdelayReqTransmit =>
    refine byGate_standing (fun _ => ?_) _ _
    dsimp only
    split <;> simp
  case viofFault =>
    refine ite_standing ?_ (by simp)
    simp [standing, foldl_pending, foldl_flashW, foldl_flashB, foldl_mode]
  case viofRecover =>
    exact (foldl_standing (fun _ _ => by simp) _ _).trans (by simp)
  all_goals
    dsimp -failIfUnchanged only
    (repeat' split) <;> simp

/-! ## Every row, every step -/

theorem commandRow_cases (hf : rowFamily c = .command) :
    (∃ x, adminRow c = some x) ∨ ∃ n p, c = .modeStartCold n p ∨ c = .modeStartWarm n p := by
  cases c <;> cases hf
  case modeStartCold n p => exact .inr ⟨n, p, .inl rfl⟩
  case modeStartWarm n p => exact .inr ⟨n, p, .inr rfl⟩
  all_goals exact .inl ⟨_, rfl⟩

theorem modeStartCold_keeps {n : Host} {p : Packet} (e : exec (.modeStartCold n p) s = .next t) : Keeps s t := by
  cases e
  have h := Keeps.refl s
  have ht : Keeps s (runAdmin csModeStart bodyStartCold n p (.data []) s) := h.after_runAdmin bodyStartCold_safe
  exact .ite h (.ite (.after_beginCold ht) ht)

theorem modeStartWarm_keeps {n : Host} {p : Packet} (e : exec (.modeStartWarm n p) s = .next t) : Keeps s t := by
  cases e
  exact .ite ((Keeps.refl s).after_runAdmin bodyStartWarm_safe) (Keeps.refl s)

theorem commandRow_keeps (hf : rowFamily c = .command) (e : exec c s = .next t) : Keeps s t := by
  obtain ⟨⟨n, p, k, b, ib⟩, hr⟩ | ⟨n, p, rfl | rfl⟩ := commandRow_cases hf
  · obtain ⟨hm, hx⟩ | ⟨rfl, -⟩ | ⟨rfl, -⟩ := adminRow_cases hr
    · cases (hx s).symm.trans e
      exact (Keeps.refl s).after_runAdmin (commandTable_safe _ hm)
    · exact modeStartCold_keeps e
    · exact modeStartWarm_keeps e
  · exact modeStartCold_keeps e
  · exact modeStartWarm_keeps e

/-- Every command and event keeps the queue and the invariant. -/
theorem exec_keeps (e : exec c s = .next t) : Keeps s t := by
  cases hf : rowFamily c with
  | command => exact commandRow_keeps hf e
  | start => exact (Keeps.refl s).same (startRow_keepsStanding hf e)
  | queue => exact (Keeps.refl s).same (queueRow_standing hf e)
  | transmit => exact (Keeps.refl s).same (transmitRow_standing hf e)
  | port => exact (Keeps.refl s).same (portRow_standing hf e)
  | field => exact (Keeps.refl s).same (fieldRow_standing hf e)
  | side => exact (Keeps.refl s).same (sideRow_standing hf e)
  | register => exact (Keeps.refl s).same (registerRow_standing hf e)
  | mode => exact modeRow_keeps hf e

end

/-- Settles O4: every row's body keeps the queue of waiting commands. -/
theorem queueIsKept : Obligations.QueueIsKept := fun _ _ _ e => (exec_keeps e).1

/-- Settles O48: the invariant of a legal mode and canonical flashes follows every row's body operation by operation. -/
theorem invKeptByEveryStep : Obligations.InvKeptByEveryStep := by
  intro s t hs e
  cases hp : s.pending with
  | nil =>
    simp only [step, hp] at e
    cases e
    exact hs
  | cons c l =>
    simp only [step, hp] at e
    exact (exec_keeps e).2 hs

/-- Settles O47: mode 1 after reset, and both flashes as the architect's `reset_flash_wf` has them. -/
theorem invAtReset : Obligations.InvAtReset := ⟨by decide, reset_flash_wf⟩

/-! ## The queue's front -/

/-- Settles O1: a step on a queue that is not empty is `exec` by definition. -/
theorem stepRunsFrontCommand : Obligations.StepRunsFrontCommand := fun _ _ => rfl

/-- Settles O2: `step` gives the state itself where no command waits. -/
theorem emptyQueueIdles : Obligations.EmptyQueueIdles := fun s h => by simp [step, h]

/-- Settles O3: the arm of every instruction is a `.next`. -/
theorem everyCommandAnswers : Obligations.EveryCommandAnswers := by
  intro c s
  cases c <;> exact ⟨_, rfl⟩

end Sys2Proof.Machine
end

section

/-! # The six copies of the status bits (R485) -/

namespace Sys2Proof.Machine

/-! ## What a raise does to each copy -/

/-- The six copies: of the four hosts, of firmware, of EVENT_N. -/
def evtCopies (e : Evt) : List (BitVec 256) := [e.h0, e.h1, e.h2, e.h3, e.fw, e.pin]

@[simp] theorem msgDue_evtCopies (h v : Nat) (b : Bool) (s : State) : evtCopies (msgDue h v b s).1.evt = evtCopies s.evt := by
  unfold msgDue
  dsimp only
  (repeat' split) <;> rfl

@[simp] theorem trigRaw_evtCopies (h v : Nat) (b : Bool) (s : State) : evtCopies (trigRaw h v b s).1.evt = evtCopies s.evt := by
  unfold trigRaw
  dsimp only
  split
  · exact msgDue_evtCopies h v b s
  · split
    · exact msgDue_evtCopies h v false _
    · rfl

@[simp] theorem trigHosts_evtCopies (src : Nat) (l : List Nat) (s : State) :
    evtCopies (trigHosts src l s).1.evt = evtCopies s.evt := by
  induction l generalizing s with
  | nil => rfl
  | cons n ns ih => simp only [trigHosts, ih]; split <;> simp

/-- A source's bit set in every copy. -/
def withBit (b : BitVec 256) (e : Evt) : List (BitVec 256) := (evtCopies e).map (· ||| b)

theorem setBits_evtCopies (src : Nat) (s : State) : evtCopies (setBits src s).1.evt = withBit (evtBit src) s.evt := rfl

theorem raiseBlocked_evtCopies (s : State) : evtCopies (raiseBlocked s).evt = withBit (evtBit 254) s.evt := by
  simp [raiseBlocked, setBits_evtCopies]

/-- A raise sets the source's bit in all six copies, and beside it that of EVT_MSIX_BLOCKED at most. -/
theorem raise_evtCopies (src : Nat) (s : State) :
    ∃ b ∈ [evtBit src, evtBit src ||| evtBit 254], evtCopies (raise src s).evt = withBit b s.evt := by
  simp only [raise]
  split
  · next h => exact ⟨_, by simp, h ▸ raiseBlocked_evtCopies s⟩
  · split
    · refine ⟨_, List.mem_cons_of_mem _ (List.mem_singleton.mpr rfl), ?_⟩
      simp [raiseBlocked_evtCopies, withBit, setBits_evtCopies, BitVec.or_assoc]
    · exact ⟨_, List.mem_cons_self, by simp [setBits_evtCopies]⟩

theorem evtBit_getLsbD (src k : Nat) (h : src < 256) : (evtBit src).getLsbD k = decide (k = src) := by
  rw [evtBit, BitVec.getLsbD_ofNat, Nat.testBit_two_pow, Bool.eq_iff_iff]
  simp only [Bool.and_eq_true, decide_eq_true_eq]
  omega

/-- What a raise makes of bit `k` of a copy. -/
theorem raise_getLsbD {src k : Nat} (h : src < 256) (s : State) :
    ∃ c : Bool, (c = true → k = src ∨ k = 254) ∧ (k = src → c = true)
      ∧ (evtCopies (raise src s).evt).map (·.getLsbD k) = (evtCopies s.evt).map (·.getLsbD k || c) := by
  obtain ⟨b, hb, he⟩ := raise_evtCopies src s
  refine ⟨b.getLsbD k, ?_, ?_, by simp [he, withBit]⟩
  all_goals
    obtain rfl | rfl := List.mem_pair.mp hb <;> simp +contextual [evtBit_getLsbD _ _ h, evtBit_getLsbD 254]

/-! ## What a clear does to a copy -/

/-- The bits of word `w` of a copy that `v` names. -/
theorem wordMask_getLsbD (w : Fin 8) (v : W32) (i : Nat) (h : i < 256) :
    (BitVec.ofNat 256 (v.toNat * 2 ^ (32 * w.val))).getLsbD i = (decide (i / 32 = w.val) && v.getLsbD (i % 32)) := by
  rw [BitVec.getLsbD_ofNat, Nat.testBit_mul_two_pow]
  by_cases hw : i / 32 = w.val
  · have hi : i - 32 * w.val = i % 32 := by omega
    have hle : 32 * w.val ≤ i := by omega
    simp [h, hw, hi, hle, BitVec.getLsbD]
  · by_cases hle : 32 * w.val ≤ i
    · have hbig : 32 ≤ i - 32 * w.val := by omega
      have hv : v.toNat.testBit (i - 32 * w.val) = false := BitVec.getLsbD_of_ge v _ hbig
      simp [hw, hv]
    · simp [hw, hle]

/-- A copy without the bits of word `w` that `v` names. -/
theorem cleared_getLsbD (x : BitVec 256) (w : Fin 8) (v : W32) (i : Nat) (h : i < 256) :
    (x &&& ~~~(BitVec.ofNat 256 (v.toNat * 2 ^ (32 * w.val)))).getLsbD i
      = (x.getLsbD i && !(decide (i / 32 = w.val) && v.getLsbD (i % 32))) := by
  rw [BitVec.getLsbD_and, BitVec.getLsbD_not, wordMask_getLsbD w v i h]
  simp [h]

@[simp] theorem evtCopy_evtPut_same (e : Evt) (h : Host) (x : BitVec 256) : evtCopy (evtPut e h.val x) h.val = x := by
  fin_cases h <;> rfl

theorem evtCopy_evtPut_other {e : Evt} {h n : Host} (hn : n ≠ h) (x : BitVec 256) :
    evtCopy (evtPut e h.val x) n.val = evtCopy e n.val := by
  revert hn
  fin_cases h <;> fin_cases n <;> simp [evtCopy, evtPut]

@[simp] theorem evtPut_fw (e : Evt) (n : Nat) (x : BitVec 256) : (evtPut e n x).fw = e.fw := by
  unfold evtPut; (repeat' split) <;> rfl

@[simp] theorem evtPut_pin (e : Evt) (n : Nat) (x : BitVec 256) : (evtPut e n x).pin = e.pin := by
  unfold evtPut; (repeat' split) <;> rfl

/-! ## The registers EVT_STAT and EVT_PIN_STAT -/

theorem evtStat_address (w : Fin 8) :
    findReg (regAddr .evtStat [w.val]) = some (rowOf .evtStat, [w.val]) ∧ sideAddr (regAddr .evtStat [w.val]) = false
      ∧ regAddr .evtStat [w.val] % 4 = 0 ∧ regAddr .evtStat [w.val] < 0x2000000 := by
  revert w; decide +kernel

theorem evtPinStat_address (w : Fin 8) :
    findReg (regAddr .evtPinStat [w.val]) = some (rowOf .evtPinStat, [w.val]) ∧ sideAddr (regAddr .evtPinStat [w.val]) = false
      ∧ regAddr .evtPinStat [w.val] % 4 = 0 ∧ regAddr .evtPinStat [w.val] < 0x2000000 := by
  revert w; decide +kernel

theorem evtStat_row : (rowOf .evtStat).reg = .evtStat ∧ (rowOf .evtStat).rwl = 0 := by decide +kernel

theorem evtPinStat_row : (rowOf .evtPinStat).reg = .evtPinStat ∧ (rowOf .evtPinStat).rwl = 0 := by decide +kernel

/-- A host's write of its own copy reaches it past every mask (R536). -/
theorem writeAt_evtStat (h : Host) (w : Fin 8) (v : W32) {s : State} (hf : s.jrn.full = false) :
    writeAt h.val .evtStat [w.val] v s = writeEvtStat (.host h) w.val v s := by
  obtain ⟨hfind, hside, haligned, hmapped⟩ := evtStat_address w
  obtain ⟨hreg, hrwl⟩ := evtStat_row
  simp [writeAt, hostWrite, hf, hside, haligned, Nat.not_le.mpr hmapped, writeAllowed, hfind, hreg, hrwl, ownCopy, applyWrite, privOk,
    sidePriv, inRange, writeReg]

theorem writeAt_evtPinStat (h : Host) (w : Fin 8) (v : W32) {s : State} (hf : s.jrn.full = false)
    (hm : permBit s h.val 16 (regAddr .evtPinStat [w.val]) = true) :
    writeAt h.val .evtPinStat [w.val] v s = writePinStat w.val v s := by
  obtain ⟨hfind, hside, haligned, hmapped⟩ := evtPinStat_address w
  obtain ⟨hreg, hrwl⟩ := evtPinStat_row
  simp [writeAt, hostWrite, hf, hside, haligned, Nat.not_le.mpr hmapped, writeAllowed, hfind, hreg, hrwl, hm, ownCopy, ownWrite,
    applyWrite, privOk, sidePriv, inRange, writeReg]

/-- Settles O58: a raise works on the list of all six copies at once; a clear replaces the one copy that its register names. -/
theorem statusBitsHaveSixCopies : Obligations.StatusBitsHaveSixCopies := by
  unfold Obligations.StatusBitsHaveSixCopies
  refine ⟨?sets, ?leaves, ?own, ?pin⟩
  case sets =>
    intro src s hsrc
    obtain ⟨c, -, hc, he⟩ := raise_getLsbD (k := src) hsrc s
    simpa [evtCopies, hc rfl] using he
  case leaves =>
    intro src k s hsrc hk hblocked
    obtain ⟨c, hc, -, he⟩ := raise_getLsbD (k := k) hsrc s
    have hzero : c = false := Bool.eq_false_iff.mpr fun h => (hc h).elim hk hblocked
    simpa [evtCopies, hzero] using he
  case own =>
    intro h w v s hf
    refine ⟨writeEvtStat (.host h) w.val v s, congrArg _ (writeAt_evtStat h w v hf), fun i hi => ?_, fun n hn => ?_,
      evtPut_fw _ _ _, evtPut_pin _ _ _, rfl, rfl, rfl⟩
    · simpa only [writeEvtStat, evtCopy_evtPut_same] using cleared_getLsbD (evtCopy s.evt h.val) w v i hi
    · exact evtCopy_evtPut_other hn _
  case pin =>
    intro h w v s hm hf
    exact ⟨writePinStat w.val v s, congrArg _ (writeAt_evtPinStat h w v hf hm), fun i hi => cleared_getLsbD s.evt.pin w v i hi,
      fun _ => rfl, rfl, rfl, rfl, rfl⟩

end Sys2Proof.Machine
end

section

/-! # Reads of the registers: the masks (R535, R536) and the latches of the LO and HI pairs (R531) -/

namespace Sys2Proof.Machine

/-! ## A read that is carried out at once -/

theorem hostRead_of_readNow {h : Host} {a : Nat} {s : State} (ha : a % 4 = 0) (hm : a < 0x2000000) (hr : readNow (.host h) a s) :
    hostRead h a s = readAt (.host h) a s := by
  obtain ⟨hallowed, hside⟩ := hr
  cases hs : sideAddr a with
  | false => simp [hostRead, ha, Nat.not_le.mpr hm, hallowed, hs]
  | true =>
    obtain ⟨haway, hanswers, hregs, hclears⟩ := hside hs
    simp [hostRead, ha, Nat.not_le.mpr hm, hallowed, hs, haway, sideRead, hclears, hanswers, writesWait, hregs]

theorem readerRead_of_readNow {r : Reader} {a : Nat} {s : State} (ha : a % 4 = 0) (hm : a < 0x2000000) (hr : readNow r a s) :
    readerRead r a s = readAt r a s := by
  cases r with
  | host h => exact hostRead_of_readNow ha hm hr
  | firmware =>
    have hc : consuming s = true := hr
    simp [readerRead, hc, hm]

theorem readAt_of_names {r : Reader} {a : Nat} {g : Reg} {is : List Nat} (hn : Names a g is) (s : State) :
    readAt r a s = doRead r g is s := by
  obtain ⟨hfind, -, hreg, -, -⟩ := hn
  simp [readAt, hfind, hreg]

/-- A permitted read of a register that a side or the rim answers now. -/
theorem readerRead_of_names {r : Reader} {a : Nat} {g : Reg} {is : List Nat} {s : State} (hn : Names a g is) (hr : readNow r a s) :
    readerRead r a s = doRead r g is s := by
  obtain ⟨-, -, -, haligned, hmapped⟩ := id hn
  rw [readerRead_of_readNow haligned hmapped hr, readAt_of_names hn]

/-! ## What a read does to the latches -/

@[simp] theorem clearRc_latch (r : Reader) (g : Reg) (is : List Nat) (s : State) (x : Nat × Nat) :
    (clearRc r g is s x).latch = s.latch := by
  unfold clearRc
  dsimp only
  (repeat' split) <;> rfl

@[simp] theorem foldl_clearRc_latch (r : Reader) (g : Reg) (is : List Nat) (l : List (Nat × Nat)) (s : State) :
    (l.foldl (clearRc r g is) s).latch = s.latch := by
  induction l generalizing s with
  | nil => rfl
  | cons x l ih => rw [List.foldl_cons, ih, clearRc_latch]

@[simp] theorem accrueLpi_latch (p : Nat) (s : State) : (accrueLpi p s).latch = s.latch := by
  unfold accrueLpi
  dsimp only
  split <;> rfl

@[simp] theorem accrueRxLpi_latch (p : Nat) (s : State) : (accrueRxLpi p s).latch = s.latch := by
  unfold accrueRxLpi
  dsimp only
  split <;> rfl

@[simp] theorem latchPut_self (r : Reader) (a v : Nat) (s : State) : tget 0 (latchPut r a v s).latch (latchKey r a) = w32 v :=
  tget_tput_self ..

theorem latchPut_other {r : Reader} {a v k : Nat} {s : State} (h : k ≠ latchKey r a) :
    tget 0 (latchPut r a v s).latch k = tget 0 s.latch k := tget_tput_ne h

theorem latchKey_ne {r : Reader} {a b : Nat} (h : a ≠ b) : latchKey r a ≠ latchKey r b := by
  simpa [latchKey] using h

theorem w32_bitsN_high (v : Nat) : w32 (bitsN v 32 32) = w32 (v / 2 ^ 32) := by
  apply BitVec.eq_of_toNat_eq
  simp [w32, bitsN, Nat.shiftRight_eq_div_pow]

/-- The word above a LO word takes the HI word of the same moment. -/
theorem loadLatch_self {r : Reader} {g : Reg} {is : List Nat} {s : State} {v : Nat} (hv : pairVal s g is = some v) :
    tget 0 (loadLatch r g is s).latch (latchKey r (regAddr g is + 4)) = w32 (v / 2 ^ 32) := by
  have hne : latchKey r (regAddr g is + 4) ≠ latchKey r (regAddr g is + 8) := latchKey_ne (by omega)
  simp only [loadLatch, hv]
  split
  · rw [latchPut_other hne, latchPut_self, w32_bitsN_high]
  · split
    · rw [latchPut_other hne, latchPut_self, w32_bitsN_high]
    · rw [latchPut_self, w32_bitsN_high]

theorem loadLatch_other {r : Reader} {g : Reg} {is : List Nat} {s : State} {v k : Nat} (hv : pairVal s g is = some v)
    (hk : k ≠ latchKey r (regAddr g is + 4)) (he : g = .timeNowLo ∨ g = .timePpsInLo → k ≠ latchKey r (regAddr g is + 8)) :
    tget 0 (loadLatch r g is s).latch k = tget 0 s.latch k := by
  simp only [loadLatch, hv]
  split
  · next hg => rw [latchPut_other (he (.inl hg)), latchPut_other hk]
  · split
    · next hg => rw [latchPut_other (he (.inr hg)), latchPut_other hk]
    · rw [latchPut_other hk]

/-- A LO word of a pair is no port counter and no pop of a timestamp queue. -/
theorem doRead_of_pair {r : Reader} {g : Reg} {is : List Nat} {s : State} {v : Nat} (hv : pairVal s g is = some v) :
    (doRead r g is s).latch = (loadLatch r g is s).latch := by
  have hcnt : g ≠ .portCntLo := by rintro rfl; cases hv
  have hpop : g ≠ .timeTxtsPop0 := by rintro rfl; cases hv
  simp [doRead, hcnt, hpop, readEffects, putRead]

/-- A HI word is neither of those, and loads no latch. -/
theorem isLatched_not_loading {g : Reg} (h : isLatched g = true) (s : State) (is : List Nat) :
    g ≠ .portCntLo ∧ g ≠ .timeTxtsPop0 ∧ pairVal s g is = none := by
  simp only [isLatched, List.contains_iff_mem, List.mem_cons, List.not_mem_nil, or_false] at h
  rcases h with rfl | rfl | rfl | rfl | rfl | rfl | rfl | rfl | rfl | rfl | rfl | rfl | rfl | rfl | rfl | rfl | rfl | rfl <;>
    exact ⟨by decide, by decide, rfl⟩

theorem doRead_of_latched {r : Reader} {g : Reg} {is : List Nat} (h : isLatched g = true) (s : State) :
    doRead r g is s = putRead r (w32 (regRead s r g is)) ((rowOf g).rc.foldl (clearRc r g is) s) := by
  obtain ⟨hcnt, hpop, hv⟩ := isLatched_not_loading h s is
  simp [doRead, hcnt, hpop, readEffects, loadLatch, hv]

/-! ## Port counters (R277) -/

/-- How far the last register of an array lies above its first. -/
def arraySpan (dims : List (Nat × Nat)) : Nat := (dims.map fun d => (d.1 - 1) * d.2).sum

theorem le_arraySpan_of_findIdx {dims : List (Nat × Nat)} {off : Nat} {is : List Nat} (h : findIdx dims off = some is) :
    off ≤ arraySpan dims := by
  induction dims generalizing off is with
  | nil =>
    simp only [findIdx] at h
    split at h
    · next ho => simp [ho]
    · cases h
  | cons d ds ih =>
    obtain ⟨n, st⟩ := d
    simp only [findIdx] at h
    split at h
    · next hi =>
      obtain ⟨js, hjs, -⟩ := Option.map_eq_some_iff.mp h
      have hrest := ih hjs
      have hfirst : off / st * st ≤ (n - 1) * st := Nat.mul_le_mul_right st (by omega)
      simp only [arraySpan, List.map_cons, List.sum_cons] at hrest ⊢
      omega
    · cases h

/-- Rows whose arrays lie outside a range of addresses name none of it. -/
theorem findRow_append_of_outside {l : List RegRow} {a lo hi : Nat} (hl : ∀ r ∈ l, r.base + arraySpan r.dims < lo ∨ hi ≤ r.base)
    (hlo : lo ≤ a) (hhi : a < hi) (m : List RegRow) : findRow (l ++ m) a = findRow m a := by
  induction l with
  | nil => rfl
  | cons r l ih =>
    have hr := hl r List.mem_cons_self
    rw [List.cons_append, findRow, ih fun x hx => hl x (List.mem_cons_of_mem r hx)]
    split
    · rfl
    · split
      · next h =>
        have hspan := le_arraySpan_of_findIdx h
        omega
      · rfl

theorem findRow_append_of_some {l : List RegRow} {a : Nat} {x : RegRow × List Nat} (h : findRow l a = some x) (m : List RegRow) :
    findRow (l ++ m) a = some x := by
  induction l with
  | nil => cases h
  | cons r l ih =>
    rw [findRow] at h
    rw [List.cons_append, findRow]
    split at h
    · next hlt => rw [if_pos hlt, ih h]
    · next hlt =>
      rw [if_neg hlt]
      split at h
      · exact h
      · exact ih h

/-- The row of the port counters' LO words. -/
def portCntLoRow : RegRow := { reg := .portCntLo, base := 0x1001000, dims := [(32, 0x10000), (38, 0x8)], rc := [(0, 32)] }

theorem rowOf_portCntLo : rowOf .portCntLo = portCntLoRow := by decide +kernel

theorem portCntLo_addr (p c : Nat) : regAddr .portCntLo [p, c] = 0x1001000 + (0x10000 * p + 0x8 * c) := by
  simp [regAddr, rowOf_portCntLo, portCntLoRow]

/-- The rows before those of chapter 08: all lie outside the PORT block. -/
def rowsBelowPort : List RegRow := regsSide01 ++ regsCmd02 ++ regsTime03 ++ regsQue04 ++ regsDma05 ++ regsSch06 ++ regsGate07

theorem regTable_split : ∃ l, regTable = rowsBelowPort ++ (regsPort08 ++ l) := by
  simp only [regTable, rowsBelowPort, List.append_assoc]
  exact ⟨_, rfl⟩

theorem findReg_portCntLo (p : Port) (c : Fin 38) :
    findReg (regAddr .portCntLo [p.val, c.val]) = some (rowOf .portCntLo, [p.val, c.val]) := by
  have hbelow : ∀ r ∈ rowsBelowPort, r.base + arraySpan r.dims < 0x1000000 ∨ 0x1400000 ≤ r.base := by decide +kernel
  have hport : ∀ (p : Port) (c : Fin 38),
      findRow regsPort08 (0x1001000 + (0x10000 * p.val + 0x8 * c.val)) = some (portCntLoRow, [p.val, c.val]) := by
    decide +kernel
  obtain ⟨l, hl⟩ := regTable_split
  rw [portCntLo_addr, rowOf_portCntLo, findReg, hl, findRow_append_of_outside hbelow (by omega) (by omega)]
  exact findRow_append_of_some (hport p c) l

/-- The address of a port counter's LO word names it again, in a rim block and on a DWORD. -/
theorem portCntLo_names (p : Port) (c : Fin 38) : Names (regAddr .portCntLo [p.val, c.val]) .portCntLo [p.val, c.val] := by
  refine ⟨findReg_portCntLo p c, rfl, congrArg RegRow.reg rowOf_portCntLo, ?_, ?_⟩
  · rw [portCntLo_addr]
    omega
  · rw [portCntLo_addr]
    omega

/-- The port's state with the low-power idle up to now, where the counter is one of the two that count it (R280). -/
def accrued (p c : Nat) (s : State) : State :=
  if c = 32 then accrueLpi p s else if c = 34 then accrueRxLpi p s else s

theorem accrued_latch (p c : Nat) (s : State) : (accrued p c s).latch = s.latch := by
  unfold accrued
  (repeat' split) <;> simp

theorem doRead_portCntLo (r : Reader) (p c : Nat) (s : State) :
    (doRead r .portCntLo [p, c] s).latch = (latchPut r (regAddr .portCntLo [p, c] + 4)
      (rcVal (accrued p c s) r .portCntLo [p, c] (0, 32) / 2 ^ 32) (accrued p c s)).latch := by
  simp [doRead, readEffects, putRead, accrued]

/-- Settles O56: a read that is carried out at once is a `doRead`, whose effects on the latches are those of `loadLatch`. -/
theorem highWordIsLatched : Obligations.HighWordIsLatched := by
  unfold Obligations.HighWordIsLatched
  refine ⟨?pair, ?counter, ?high, fun k => rfl⟩
  case pair =>
    intro r a g is s v hn hr hv
    have hl := (congrArg State.latch (readerRead_of_names hn hr)).trans (doRead_of_pair hv)
    have ha : regAddr g is = a := hn.2.1
    subst ha
    refine ⟨readerRead r (regAddr g is) s, rfl, ?_, fun k hk he => ?_⟩
    · rw [hl, loadLatch_self hv]
    · rw [hl, loadLatch_other hv hk he]
  case counter =>
    rintro r p c s u hr rfl
    have hl := (congrArg State.latch (readerRead_of_names (portCntLo_names p c) hr)).trans (doRead_portCntLo r p.val c.val s)
    refine ⟨readerRead r (regAddr .portCntLo [p.val, c.val]) s, rfl, ?_, fun k hk => ?_⟩
    · rw [hl, latchPut_self]
      rfl
    · rw [hl, latchPut_other hk, accrued_latch]
  case high =>
    intro r a g is s hn hr hg
    have hd := (readerRead_of_names hn hr).trans (doRead_of_latched hg s)
    have ha : regAddr g is = a := hn.2.1
    refine ⟨_, congrArg Host.Outcome.next hd, ?_, ?_⟩
    · simp [putRead]
    · simp [putRead, regRead, hg, ha]

/-! ## The masks of GLB_HOST_PERM -/

theorem ownRules_false {g : Reg} (h : ownRules g = false) :
    ownCopy g = false ∧ ownWrite g = false ∧ sidePriv g = false
      ∧ g ≠ .glbId ∧ g ≠ .glbReader ∧ g ≠ .glbLock ∧ g ≠ .glbAccErr ∧ g ≠ .glbHostPerm := by
  simpa [ownRules, and_assoc] using h

/-- Every register of the admin queue pairs has rules of its own. -/
theorem ownRules_of_adminBlock {a : Nat} {g : Reg} {is : List Nat} (hn : Names a g is) (hlo : 0x100000 ≤ a) (hhi : a < 0x100400) :
    ownRules g = true := by
  have hall : ∀ k : Fin 256, (findReg (0x100000 + 4 * k.val)).all (fun x => ownRules x.1.reg) = true := by decide +kernel
  obtain ⟨hfind, -, hreg, haligned, -⟩ := hn
  have hk := hall ⟨(a - 0x100000) / 4, by omega⟩
  have ha : 0x100000 + 4 * ((a - 0x100000) / 4) = a := by omega
  simpa [ha, hfind, hreg] using hk

theorem readAllowed_of_mask {a : Nat} {g : Reg} {is : List Nat} (hn : Names a g is) (ho : ownRules g = false) (s : State) (h : Nat) :
    readAllowed s h a = permBit s h 0 a := by
  obtain ⟨hcopy, -, -, hid, hreader, hlock, hacc, -⟩ := ownRules_false ho
  have hblock : ¬(0x100000 ≤ a ∧ a < 0x100400) := fun hb => by simp [ownRules_of_adminBlock hn hb.1 hb.2] at ho
  have hown : (decide (0x100000 ≤ a) && decide (a < 0x100400) && is.getD 0 0 == h) = false := by
    simpa using fun h1 h2 => absurd ⟨h1, h2⟩ hblock
  obtain ⟨hfind, -, hreg, -, -⟩ := hn
  simp only [readAllowed, hfind, hreg, hid, hreader, hlock, hacc, hcopy, hown, decide_false, Bool.false_and, Bool.or_self,
    Bool.false_eq_true, if_false]

theorem writeAllowed_of_mask {a : Nat} {g : Reg} {is : List Nat} (hn : Names a g is) (ho : ownRules g = false) (s : State) (h : Nat) :
    writeAllowed s h a = permBit s h 16 a := by
  obtain ⟨hcopy, hwrite, hpriv, hid, hreader, hlock, hacc, hperm⟩ := ownRules_false ho
  obtain ⟨hfind, -, hreg, -, -⟩ := hn
  simp [writeAllowed, hfind, hreg, hcopy, hwrite, hpriv, hid, hreader, hlock, hacc, hperm]

theorem hostRead_denied {h : Host} {a : Nat} {g : Reg} {is : List Nat} {s : State} (hn : Names a g is) (ho : ownRules g = false)
    (hp : permBit s h.val 0 a = false) : hostRead h a s = putRead (.host h) 0 (accErr h.val 16 s) := by
  have hallowed := (readAllowed_of_mask hn ho s h.val).trans hp
  obtain ⟨-, -, -, haligned, hmapped⟩ := hn
  simp [hostRead, haligned, Nat.not_le.mpr hmapped, hallowed]

theorem hostRead_permitted {h : Host} {a : Nat} {g : Reg} {is : List Nat} {s : State} (hn : Names a g is) (ho : ownRules g = false)
    (hp : permBit s h.val 0 a = true) (hs : sideAddr a = false) : hostRead h a s = readAt (.host h) a s := by
  have hallowed := (readAllowed_of_mask hn ho s h.val).trans hp
  obtain ⟨-, -, -, haligned, hmapped⟩ := hn
  exact hostRead_of_readNow haligned hmapped ⟨hallowed, fun hc => absurd (hs.symm.trans hc) (by decide)⟩

theorem hostWrite_denied {h : Host} {a : Nat} {g : Reg} {is : List Nat} {v : W32} {s : State} (hn : Names a g is)
    (ho : ownRules g = false) (hp : permBit s h.val 16 a = false) (hf : s.jrn.full = false) :
    hostWrite h.val a 0xF v s = accErr h.val 16 s := by
  have hallowed := (writeAllowed_of_mask hn ho s h.val).trans hp
  obtain ⟨-, -, -, haligned, hmapped⟩ := hn
  simp [hostWrite, hf, haligned, Nat.not_le.mpr hmapped, hallowed]

theorem hostWrite_permitted {h : Host} {a : Nat} {g : Reg} {is : List Nat} {v : W32} {s : State} (hn : Names a g is)
    (ho : ownRules g = false) (hp : permBit s h.val 16 a = true) (hs : sideAddr a = false) (hf : s.jrn.full = false) :
    hostWrite h.val a 0xF v s = applyWrite (.host h) a v s := by
  have hallowed := (writeAllowed_of_mask hn ho s h.val).trans hp
  obtain ⟨-, -, -, haligned, hmapped⟩ := hn
  simp [hostWrite, hf, haligned, Nat.not_le.mpr hmapped, hallowed, hs]

theorem glbAccErr_width (h : Host) : ckeyWidth (ckey .glbAccErr [h.val] 16) = 16 := by
  revert h; decide +kernel

/-- A denied access counts in its host's field alone. -/
theorem accErr_denied (h : Host) (s : State) :
    accErr h.val 16 s = { s with
      ctrs := tput {} s.ctrs (ckey .glbAccErr [h.val] 16) (Five.add 16 1 (tget {} s.ctrs (ckey .glbAccErr [h.val] 16))) } := by
  simp [accErr, count, bumpW, glbAccErr_width]

/-- Settles O57: for a register without rules of its own, `readAllowed` and `writeAllowed` are the block's mask bits. -/
theorem accessMasks : Obligations.AccessMasks := by
  unfold Obligations.AccessMasks
  refine ⟨?readDenied, ?writeDenied, ?readGranted, ?writeGranted, ?counted, ?firmware⟩
  case readDenied =>
    intro h a g is s hn ho hp
    exact ⟨congrArg _ (hostRead_denied hn ho hp), congrArg _ (hostRead_denied hn ho hp)⟩
  case writeDenied =>
    intro h a g is v s hn ho hp hf
    exact congrArg _ ((if_neg (by simp [hf])).trans (hostWrite_denied hn ho hp hf))
  case readGranted => exact fun h a g is s hn ho hp hs => congrArg _ (hostRead_permitted hn ho hp hs)
  case writeGranted =>
    intro h a g is v s hn ho hp hs hf
    exact congrArg _ ((if_neg (by simp [hf])).trans (hostWrite_permitted hn ho hp hs hf))
  case counted =>
    intro h s
    exact ⟨_, accErr_denied h s, tget_tput_self .., fun k hk => tget_tput_ne hk, congrArg State.ctrs (accErr_denied h s),
      by simp [putRead, whoOf]⟩
  case firmware =>
    intro a s hm hc
    simp [exec, execCounterReadClear, readerRead, hc, hm]

end Sys2Proof.Machine
end

section

/-! # Moves: commits that fail, and the throttle of phase 3 (R382 to R391, R405) -/

namespace Sys2Proof.Machine

variable {s : State} {h : SideId}

theorem commits_of_running (hh : s.sides.holder = some h) (hd : s.sides.disp = .running) (hl : (sideOf s h).healthy = true) :
    commits s = true := by
  simp [commits, hh, hd, hl]

/-- A healthy holder whose dispatch runs offers the Move that ends, with the delta so far. -/
theorem offerCommit_of_commits (hc : commits s = true) :
    (offerCommit s).jrn.pending = some (s.jrn.move, byToken s) ∧ (offerCommit s).jrn.move = s.jrn.move + 1
      ∧ (offerCommit s).jrn.delta = [] := by
  have hc' : commits { s with jrn := sendLines s.jrn } = true := hc
  unfold offerCommit
  dsimp only
  rw [if_pos hc']
  exact ⟨rfl, rfl, rfl⟩

/-- R387: a token that is not whole, or not the next in order, fails the path. -/
theorem exec_commitTokenRx_of_broken {x : Token} {n : Nat} (hh : s.sides.holder = some h) (hp : s.jrn.pending = some (n, true))
    (ho : (sideOf s (other h)).state = 4) (hl : (sideOf s h).healthy = true) (hlo : (sideOf s (other h)).healthy = true)
    (hm : x.move % 2 ^ 32 = n % 2 ^ 32) (hc : x.cutover = false) (ht : tokenSent x s = true)
    (hb : x.crcGood = false ∨ x.flits ≠ x.flitsSeen ∨ x.base % 2 ^ 32 ≠ (sideOf s (other h)).move % 2 ^ 32) :
    exec (.commitTokenRx x) s = .next (mlFail s) := by
  have hbroken : ¬(x.base % 2 ^ 32 = (sideOf s (other h)).move % 2 ^ 32 ∧ x.flits = x.flitsSeen ∧ x.crcGood = true) := by
    rintro ⟨hbase, hflits, hcrc⟩
    obtain hb | hb | hb := hb
    · exact absurd (hb.symm.trans hcrc) (by decide)
    · exact hb hflits
    · exact hb hbase
  simp only [Nat.reducePow] at hm hbroken
  show execCommitTokenRx x s = _
  simp [execCommitTokenRx, hh, hp, ht, ho, hl, hlo, hm, hc, and_assoc, hbroken]

/-- R405: the CUTOVER token brings the other side into step with the Move that it names. -/
theorem exec_commitTokenRx_of_cutover {x : Token} (hh : s.sides.holder = some h) (hp : ∀ n, s.jrn.pending ≠ some (n, true))
    (ho : (sideOf s (other h)).state = 3) (hphase : s.sides.phase = 3) (ht : tokenSent x s = true) (hc : x.cutover = true)
    (hf : x.flits = x.flitsSeen) (hg : x.crcGood = true) : exec (.commitTokenRx x) s
      = .next (updSide (other h) (takeMove x.move) { s with sides := { s.sides with phase := 4 } }) := by
  show execCommitTokenRx x s = _
  unfold execCommitTokenRx
  split
  · next e => exact absurd e (hp _)
  · next e _ =>
    cases hh.symm.trans e
    simp [ht, hc, ho, hphase, hf, hg]
  · next e => cases hh.symm.trans e

theorem exec_commitAckTimeout_of_alive {n : Nat} (hh : s.sides.holder = some h) (hp : s.jrn.pending = some (n, true))
    (hl : (sideOf s h).healthy = true) (ha : (sideOf s (other h)).alive = true) : exec .commitAckTimeout s = .next (mlFail s) := by
  show execCommitAckTimeout s = _
  simp [execCommitAckTimeout, hh, hp, hl, ha]

/-- In phase 3 the side stops for the granules alone. -/
theorem exec_jrnThrottle_of_granules (hc : consuming s = true) (hf : flitsOf s.jrn.delta < 7680) (hp : s.sides.phase = 3)
    (hg : 32 ≤ (granulesOf s.jrn.delta).length) : exec .jrnThrottle s = .next (throttle s) := by
  show execJrnThrottle s = _
  simp [execJrnThrottle, hc, Nat.not_le.mpr hf, hp, hg]

theorem exec_jrnThrottle_of_few (hf : flitsOf s.jrn.delta < 7680) (hp : s.sides.phase ≠ 3) : exec .jrnThrottle s = .next s := by
  show execJrnThrottle s = _
  simp [execJrnThrottle, Nat.not_le.mpr hf, hp]

end Sys2Proof.Machine
end

section

namespace Sys2Proof.Machine

/-- Settles O37: the marker's state is `markerPast`; each other row's guard holds in the states of its own clause. -/
theorem moveEventsComplete : Obligations.MoveEventsComplete := by
  unfold Obligations.MoveEventsComplete
  refine ⟨?marker, ?offered, ?token, ?broken, ?cutover, ?ack, ?timeout, ?still, ?slot, ?flits, ?granules, ?few, ?full⟩
  case marker =>
    rintro s u v hp rfl rfl
    exact exec_moveMarker_of_powered hp
  case offered => exact fun s h hh hd hl => offerCommit_of_commits (commits_of_running hh hd hl)
  case token => exact fun x h n s hh hp ho hl hlo hm hc ht hb hf hg => exec_commitTokenRx_of_whole hh hp ho hl hlo hm hc ht hb hf hg
  case broken => exact fun x h n s hh hp ho hl hlo hm hc ht hb => exec_commitTokenRx_of_broken hh hp ho hl hlo hm hc ht hb
  case cutover => exact fun x h s hh hp ho hphase ht hc hf hg => exec_commitTokenRx_of_cutover hh hp ho hphase ht hc hf hg
  case ack => exact fun h n s hh hp hm hl => exec_commitAck_of_applied hh hp hm hl
  case timeout => exact fun h n s hh hp hl ha => exec_commitAckTimeout_of_alive hh hp hl ha
  case still => exact fun h n s hh hp hl ha => exec_commitAckTimeout_of_still hh hp hl ha
  case slot => exact fun h n s hh hp hl => exec_moveSlotWriteDone_of_alone hh hp hl
  case flits => exact fun s hc hf => exec_jrnThrottle_of_flits hc hf
  case granules => exact fun s hc hf hp hg => exec_jrnThrottle_of_granules hc hf hp hg
  case few => exact fun s hf hp => exec_jrnThrottle_of_few hf hp
  case full => exact fun s hf hs => exec_scoresheetFull_of_full hf hs

/-- Settles O5: every field of the reset state stands at its default, and its tables are empty. -/
theorem resetState : Obligations.ResetState := by
  refine ⟨by decide, by decide, by decide, by decide, by decide, by decide, fun p => ?_, rfl, rfl, rfl, fun _ => rfl, fun _ => rfl,
    rfl⟩
  by_cases hg : groupOf p < 10 ∧ p.opcode.toNat / 256 ≠ 0
  · exact .inl (by simp [genOf, hg, State.reset])
  · omega

end Sys2Proof.Machine
end

section

/-! # Reset pins and HOLD_N (R435 to R455) -/

namespace Sys2Proof.Machine

/-! ## PORST_N -/

/-- A part in reset drives every bypass output low (R429). -/
theorem bypDrive_open_of_reset {s : State} (h : s.glb.porst = false) : (bypDrive s).fab.open_ = 0 := by
  have hlow (k : Nat) : bypLevel s k = false := by simp [bypLevel, bypLow, h]
  simp [bypDrive, hlow]

theorem exec_porstNRelease_of_held {s : State} (hp : s.glb.porst = false) (hf : s.glb.feedA || s.glb.feedB)
    (hr : s.glb.ref0 || s.glb.ref1) : exec .porstNRelease s = .next (releasePorst s) := by
  show execPorstNRelease s = _
  simp [execPorstNRelease, hp, hf, hr]

theorem exec_porstNRelease_of_idle {s : State} (h : s.glb.porst = true ∨ ¬(s.glb.feedA || s.glb.feedB)) :
    exec .porstNRelease s = .next s :=
  congrArg Host.Outcome.next (if_pos (by simpa using h))

theorem exec_porstNRelease_of_noReference {s : State} (hp : s.glb.porst = false) (hf : s.glb.feedA || s.glb.feedB)
    (hr : ¬(s.glb.ref0 || s.glb.ref1)) : exec .porstNRelease s = .next { s with glb := { s.glb with relHeld := true } } := by
  have hr' : (!(s.glb.ref0 || s.glb.ref1)) = true := by simpa using hr
  show execPorstNRelease s = _
  simp only [execPorstNRelease, hp, hf, hr', Bool.not_true, Bool.or_self, Bool.false_eq_true, if_false, if_true]

/-! ## The side pins -/

/-- What a side's release leaves, but for the warm start of one side in Safe-Hold. -/
def sideReleased (d : SideId) (s : State) : State :=
  let t := updSide d (fun r => { r with state := 1, inReset := false, flag := false, healthy := true, step := 3 }) s
  let u := putPin d true { t with glb := { t.glb with safePin := false } }
  putFlash (selfRefresh d false u) d
    { chooseSlot (flashOf u d) with fallback := false, version := 0, svn := 0, stateFmt := 0, svnCommit := false }

theorem sideReleased_glb_mode (d : SideId) (s : State) : (sideReleased d s).glb.mode = s.glb.mode := by
  cases d <;> rfl

theorem sideOf_sideReleased_self (d : SideId) (s : State) : sideOf (sideReleased d s) d
    = { sideOf s d with state := 1, inReset := false, flag := false, healthy := true, step := 3 } := by
  cases d <;> rfl

theorem sideOf_sideReleased_other (d : SideId) (s : State) : sideOf (sideReleased d s) (other d) = sideOf s (other d) := by
  cases d <;> rfl

section
variable {s : State} (hp : s.glb.porst = true)
include hp

theorem exec_sideResetPinAssert_white_of_other (hb : s.glb.rstB = true) : exec (.sideResetPinAssert .white) s
    = .next (pinReset .white 2 { s with glb := { s.glb with rstW := false } }) := by
  show execSideResetPinAssert .white s = _
  simp [execSideResetPinAssert, hp, hb, putPin]

theorem exec_sideResetPinAssert_black_of_other (hw : s.glb.rstW = true) : exec (.sideResetPinAssert .black) s
    = .next (pinReset .black 4 { s with glb := { s.glb with rstB := false } }) := by
  show execSideResetPinAssert .black s = _
  simp [execSideResetPinAssert, hp, hw, putPin]

theorem exec_sideResetPinAssert_white_of_both (hm : 3 ≤ s.glb.mode) (hb : s.glb.rstB = false) :
    exec (.sideResetPinAssert .white) s = .next (warmStart 2 { s with glb := { s.glb with rstW := false } }) := by
  show execSideResetPinAssert .white s = _
  simp [execSideResetPinAssert, hp, hb, hm, putPin]

theorem exec_sideResetPinAssert_black_of_both (hm : 3 ≤ s.glb.mode) (hw : s.glb.rstW = false) :
    exec (.sideResetPinAssert .black) s = .next (warmStart 4 { s with glb := { s.glb with rstB := false } }) := by
  show execSideResetPinAssert .black s = _
  simp [execSideResetPinAssert, hp, hw, hm, putPin]

theorem exec_bothSidePinsLow_of_started (hm : 3 ≤ s.glb.mode) : exec .bothSidePinsLow s
    = .next (warmStart 6 { s with glb := { s.glb with rstW := false, rstB := false } }) := by
  show execBothSidePinsLow s = _
  simp [execBothSidePinsLow, hp, hm, putPin]

theorem exec_holdNLow_of_running (hm : 3 ≤ s.glb.mode) (hm' : s.glb.mode ≤ 10) :
    exec .holdNLow s = .next { s with glb := { s.glb with holdN := false, holdReq := true } } := by
  show execHoldNLow s = _
  simp [execHoldNLow, hp, hm, hm']

theorem exec_autoReset_of_out {d : SideId} (ho : (sideOf s d).state = 2) (hc : regFld s .glbStartCfg [] 16 8 ≠ 0)
    (hr : (sideOf s d).autoResets < autoMax s) : exec (.autoReset d) s = .next (raise evAutoReset (resetSide d (16 * (1 + sideNum d))
      (updSide d (fun r => { r with autoResets := r.autoResets + 1 }) s))) := by
  show execAutoReset d s = _
  simp [execAutoReset, hp, ho, hc, hr]

theorem exec_sideResetRelease_of_inReset {d : SideId} (hr : (sideOf s d).inReset = true) (hf : (sideOf s d).flushing = false)
    (hu : feedUp s d = true) (hm : s.glb.mode ≠ 11) : exec (.sideResetRelease d) s = .next (sideReleased d s) := by
  have hstays : oneSideWarm (sideReleased d s) = sideReleased d s := if_neg (by simp [sideReleased_glb_mode, hm])
  refine congrArg Host.Outcome.next ((if_neg (by simp [hp])).trans ((if_pos (by simp [hr, hf, hu])).trans ?_))
  exact hstays

end

theorem exec_flushEnd_of_flushing {d : SideId} {s : State} (h : (sideOf s d).flushing = true) :
    exec (.flushEnd d) s = .next (writeSummary true (selfRefresh d true (updSide d (fun r => { r with
      flushing := false, step := 2, flushWhole := true }) s))) :=
  congrArg Host.Outcome.next (if_pos h)

/-- Settles O39: PORST_N's two edges are `porstReset` and `releasePorst`; each pin's guard holds in the states of its clause. -/
theorem resetPinsComplete : Obligations.ResetPinsComplete := by
  unfold Obligations.ResetPinsComplete
  refine ⟨?asserted, ?released, ?idle, ?noReference, ?white, ?black, ?whiteBoth, ?blackBoth, ?both, ?flush, ?release, ?low, ?high,
    ?auto⟩
  case asserted =>
    exact fun s => ⟨porstReset s, rfl, rfl, rfl, rfl, rfl, rfl, rfl, rfl, rfl, rfl, rfl, rfl, rfl, rfl, rfl, rfl,
      bypDrive_open_of_reset rfl⟩
  case released =>
    exact fun s hp hf hr => ⟨releasePorst s, exec_porstNRelease_of_held hp hf hr, rfl, rfl, rfl, rfl, rfl, rfl, rfl⟩
  case idle => exact fun s h => exec_porstNRelease_of_idle h
  case noReference => exact fun s hp hf hr => exec_porstNRelease_of_noReference hp hf hr
  case white =>
    rintro s t hp hb rfl
    exact exec_sideResetPinAssert_white_of_other hp hb
  case black =>
    rintro s t hp hw rfl
    exact exec_sideResetPinAssert_black_of_other hp hw
  case whiteBoth => exact fun s hp hm hb => exec_sideResetPinAssert_white_of_both hp hm hb
  case blackBoth => exact fun s hp hm hw => exec_sideResetPinAssert_black_of_both hp hm hw
  case both => exact fun s hp hm => exec_bothSidePinsLow_of_started hp hm
  case flush => exact fun d s h => exec_flushEnd_of_flushing h
  case release =>
    intro d s hr hf hu hp hm
    have hself := sideOf_sideReleased_self d s
    exact ⟨sideReleased d s, exec_sideResetRelease_of_inReset hp hr hf hu hm, congrArg SideRec.state hself,
      congrArg SideRec.inReset hself, congrArg SideRec.step hself, congrArg SideRec.flag hself, sideReleased_glb_mode d s,
      sideOf_sideReleased_other d s⟩
  case low =>
    rintro s t hp hm hm' rfl
    exact exec_holdNLow_of_running hp hm hm'
  case high => exact fun s => rfl
  case auto => exact fun d s ho hc hp hr => exec_autoReset_of_out hp ho hc hr

end Sys2Proof.Machine
end

section

/-! # Hosts, supplies, clocks, temperature and the start (R439 to R443, R500 to R525, R542 to R549) -/

namespace Sys2Proof.Machine

/-! ## Hosts (R517, R518, R488) -/

theorem exec_perstAssert_of_monitor {h : Host} {s : State} (hp : s.glb.porst = true) (hm : monitor (perstRim h.val s) = true) :
    exec (.perstAssert h) s = .next (perstSide h.val (perstRim h.val s)) :=
  congrArg Host.Outcome.next ((if_neg (by simp [hp])).trans (if_pos hm))

theorem exec_perstAssert_of_side {h : Host} {s : State} (hp : s.glb.porst = true) (hm : monitor (perstRim h.val s) = false) :
    exec (.perstAssert h) s = .next (keepReg (.perst h.val) (perstRim h.val s)) :=
  congrArg Host.Outcome.next ((if_neg (by simp [hp])).trans (if_neg (by simp [hm])))

/-- The vector's record once its mask is gone. -/
def unmasked (h v : Nat) (s : State) : State :=
  putVec s h v { vecOf s h v with masked := false, pba := false, pbaPlain := false }

theorem exec_msixUnmask_of_open {h : Host} {v : Fin 64} {s : State} (hp : (vecOf s h.val v.val).pba = true)
    (hb : msixBlocked s h.val = false) (hf : s.jrn.full = false) : exec (.msixUnmask h v) s
      = .next { unmasked h.val v.val s with bus := (unmasked h.val v.val s).bus ++ [msixTlp h.val v.val (vecOf s h.val v.val)] } := by
  show execMsixUnmask h v s = _
  simp [execMsixUnmask, hf, unmask, hp, hb, unmasked]

theorem exec_msixUnmask_of_none {h : Host} {v : Fin 64} {s : State} (hp : (vecOf s h.val v.val).pba = false) (hf : s.jrn.full = false) :
    exec (.msixUnmask h v) s = .next (unmasked h.val v.val s) := by
  show execMsixUnmask h v s = _
  simp [execMsixUnmask, hf, unmask, hp, unmasked]

/-! ## Feeds and field supplies (R500 to R510) -/

theorem exec_feedLoss_of_running {f : Feed} {s : State} (hu : feedUp s (feedSide f) = true) (hp : s.glb.porst = true) :
    exec (.feedLoss f) s = .next (feedLost f s) := by
  show execFeedLoss f s = _
  simp [execFeedLoss, hu, hp]

theorem viofSense (b : Bool) : BitVec.ofNat 2 (b2n b) = if b then 1 else 0 := by
  cases b <;> rfl

theorem exec_viofFault_of_good {k : Fin 15} {b : Bool} {s : State} (h : (tget 0 s.fld.viof k.val).getLsbD 1 = true) :
    exec (.viofFault k b) s = .next (raise evViofFault
      ((bankPorts k.val s).foldl (fun s n => cutField n s) (putViof k.val (if b then 1 else 0) s))) := by
  rw [← viofSense]
  exact congrArg Host.Outcome.next (if_pos h)

theorem exec_viofFault_of_bad {k : Fin 15} {b : Bool} {s : State} (h : (tget 0 s.fld.viof k.val).getLsbD 1 = false) :
    exec (.viofFault k b) s = .next (putViof k.val (if b then 1 else 0) s) := by
  rw [← viofSense]
  exact congrArg Host.Outcome.next (if_neg (by rw [h]; decide))

/-! ## The rim's clocks (R511 to R513) -/

theorem exec_rimClockUnlock_of_locked {i : RimIsland} {s : State} (hl : rimLock s i = true) (hp : s.glb.porst = true) :
    exec (.rimClockUnlock i) s = .next (rimUnlock (putLock i false s)) :=
  congrArg Host.Outcome.next (if_pos (by simp [hl, hp]))

theorem exec_rimClockRelock_of_last {i : RimIsland} {s : State} (hp : s.glb.porst = true) (hn : s.glb.noClock = false)
    (hr : s.glb.ref0 || s.glb.ref1) (hl : rimLocked (putLock i true s) = true) :
    exec (.rimClockRelock i) s = .next (rimStep 1 (clearAlarm 0 (putLock i true s))) :=
  congrArg Host.Outcome.next ((if_neg (by simp [hp, hn, hr])).trans (if_pos hl))

theorem exec_rimClockRelock_of_noClock {i : RimIsland} {s : State} (h : s.glb.noClock = true ∨ ¬(s.glb.ref0 || s.glb.ref1)) :
    exec (.rimClockRelock i) s = .next s := by
  refine congrArg Host.Outcome.next (if_pos ?_)
  obtain h | h := h
  · simp [h]
  · simp [Bool.eq_false_iff.mpr h]

/-! ## Temperature and supply selectors (R500, R524) -/

/-- THERM_N's level after a reading, from the level `b` before it. -/
def thermRule (s : State) (b : Bool) : Bool :=
  let limit : Int := regFld s .glbThermCfg [] 0 8
  let hyst : Int := regFld s .glbThermCfg [] 8 8
  if !allTemps s (fun t => decide (t < 16 * limit)) then false
  else if allTemps s (fun t => decide (t ≤ 16 * (limit - hyst))) then true
  else b

theorem thermLevel_eq (s : State) : thermLevel s = thermRule s s.glb.therm := rfl

theorem thermLevel_setTherm (s : State) (b : Bool) : thermLevel { s with glb := { s.glb with therm := b } } = thermRule s b := rfl

theorem thermRule_again (s : State) (b : Bool) : thermRule s (thermRule s b) = thermRule s b := by
  simp only [thermRule]
  (repeat' split) <;> rfl

/-- The level stands when it is taken again at the same temperatures: between the two limits it is the level itself. -/
theorem thermLevel_again (s : State) : thermLevel { s with glb := { s.glb with therm := thermLevel s } } = thermLevel s := by
  rw [thermLevel_setTherm, thermLevel_eq, thermRule_again]

/-- The sensor's reading, stored, with its largest value counted. -/
def tempRead (n : Sensor) (x : BitVec 16) (s : State) : State :=
  if 0 < x.toInt then countMax (sensorReg n) [] 16 x.toNat (putTemp n x s) else putTemp n x s

theorem tempRead_glb (n : Sensor) (x : BitVec 16) (s : State) : (tempRead n x s).glb = (putTemp n x s).glb := by
  unfold tempRead
  split <;> rfl

theorem exec_thermCross (n : Sensor) (x : BitVec 16) (s : State) : exec (.thermCross n x) s
    = .next { tempRead n x s with glb := { (tempRead n x s).glb with therm := thermLevel (tempRead n x s) } } := rfl

/-! ## The configuration load and the sides' boots (R439 to R443, R542 to R549) -/

theorem loadItem_of_unverified {s : State} {d : SideId} (hd : s.sides.holder = some d) (hv : cfgVerified s d = false) :
    loadItem s = some .noImage := by
  simp [loadItem, hd, hv]

theorem runItem_regWrite_of_mapped {a : Nat} (v : W32) (s : State) (ha : a % 4 = 0) (hm : a < 0x2000000) :
    runItem s (some (.regWrite a v)) = nextItem (applyWrite .firmware a v s) := by
  simp [runItem, ha, hm]

theorem runItem_regWrite_of_unmapped {a : Nat} (v : W32) (s : State) (h : a % 4 ≠ 0 ∨ 0x2000000 ≤ a) :
    runItem s (some (.regWrite a v)) = nextItem s := by
  have hno : ¬(a % 4 = 0 ∧ a < 0x2000000) := by omega
  simp [runItem, hno]

theorem exec_timeAcqTimeout_of_acquiring {s : State} (hn : regFld s .glbStartCfg [] 0 16 ≠ 0)
    (ht : s.glb.acqFrom + regFld s .glbStartCfg [] 0 16 ≤ s.time.optime) (hm : s.glb.mode = 4) :
    exec .timeAcqTimeout s = .next (toMode (serviceMode s) false (raise evTacqTimeout s)) := by
  show execTimeAcqTimeout s = _
  simp [execTimeAcqTimeout, hn, Nat.not_lt.mpr ht, hm]

theorem exec_sideBootEnd_of_image {d : SideId} {s : State} {x y : ImageFacts} {f : Flash} (hs : (sideOf s d).state = 1)
    (hr : (sideOf s d).ready = false) (hf : bootImage (flashOf s d) x y = some f) :
    exec (.sideBootEnd d .ready x y) s = .next (bootReady d (putFlash s d f)) := by
  show execSideBootEnd d .ready x y s = _
  simp [execSideBootEnd, hs, hr, hf]

theorem exec_sideBootEnd_of_failed {d : SideId} {s : State} {x y : ImageFacts} {c : Nat} (hs : (sideOf s d).state = 1)
    (hr : (sideOf s d).ready = false) : exec (.sideBootEnd d (.failed c) x y) s = .next (bootFailed d c s) := by
  show execSideBootEnd d (.failed c) x y s = _
  simp [execSideBootEnd, hs, hr]

theorem exec_sideBootEnd_of_bufferFault {d : SideId} {e : BootEnd} {s : State} {x y : ImageFacts} (hs : (sideOf s d).state = 1)
    (hr : (sideOf s d).ready = false) (hm : s.glb.mode = 1) : exec (.sideBootEnd d e x y true) s = .next (bypassFail s) := by
  show execSideBootEnd d e x y s true = _
  simp [execSideBootEnd, hs, hr, hm]

/-- Settles O40: each row's guard holds in the states of its clause, and THERM_N's level is a fixed point of `thermLevel`. -/
theorem hostAndPowerEventsComplete : Obligations.HostAndPowerEventsComplete := by
  unfold Obligations.HostAndPowerEventsComplete
  refine ⟨?perstMonitor, ?perstSide, ?link, ?busMaster, ?unmaskSends, ?unmaskStill, ?feedLoss, ?feedPresent, ?supplyFail, ?viofGood,
    ?viofBad, ?viofBack, ?unlock, ?relock, ?noClock, ?therm, ?selector, ?item, ?unverified, ?command, ?mapped, ?unmapped, ?ends,
    ?acquiring, ?image, ?failed, ?buffer⟩
  case perstMonitor =>
    rintro h s u hp rfl hm
    exact exec_perstAssert_of_monitor hp hm
  case perstSide =>
    rintro h s u hp rfl hm
    exact exec_perstAssert_of_side hp hm
  case link => exact fun h up s hp => congrArg Host.Outcome.next (if_pos hp)
  case busMaster => exact fun h x b s hu => congrArg Host.Outcome.next (if_pos hu)
  case unmaskSends =>
    rintro h v s x t rfl rfl hp hb hf
    exact exec_msixUnmask_of_open hp hb hf
  case unmaskStill =>
    rintro h v s x rfl hp hf
    exact exec_msixUnmask_of_none hp hf
  case feedLoss => exact fun f s hu hp => exec_feedLoss_of_running hu hp
  case feedPresent => exact fun f s => rfl
  case supplyFail => exact fun s => rfl
  case viofGood => exact fun k b s h => exec_viofFault_of_good h
  case viofBad => exact fun k b s h => exec_viofFault_of_bad h
  case viofBack => exact fun k b s => rfl
  case unlock => exact fun i s hl hp => exec_rimClockUnlock_of_locked hl hp
  case relock => exact fun i s hp hn hr hl => exec_rimClockRelock_of_last hp hn hr hl
  case noClock => exact fun i s h => exec_rimClockRelock_of_noClock h
  case therm =>
    intro n x s
    refine ⟨_, exec_thermCross n x s, (thermLevel_again (tempRead n x s)).symm, ?_, ?_, ?_⟩ <;>
    · rintro rfl
      simp only [tempRead_glb]
      rfl
  case selector =>
    intro r n s hn
    refine ⟨_, congrArg Host.Outcome.next (if_neg hn), ?_, ?_, ?_⟩ <;>
    · rintro rfl
      rfl
  case item => exact fun i s h => congrArg Host.Outcome.next (if_pos h)
  case unverified => exact fun s d hd hv => loadItem_of_unverified hd hv
  case command => exact fun p ib s => rfl
  case mapped => exact fun a v s ha hm => runItem_regWrite_of_mapped v s ha hm
  case unmapped => exact fun a v s h => runItem_regWrite_of_unmapped v s h
  case ends => exact fun s => ⟨rfl, rfl, rfl, rfl⟩
  case acquiring => exact fun s hn ht hm => exec_timeAcqTimeout_of_acquiring hn ht hm
  case image => exact fun d s x y f hs hr hf => exec_sideBootEnd_of_image hs hr hf
  case failed => exact fun d s x y c hs hr => exec_sideBootEnd_of_failed hs hr
  case buffer => exact fun d e s x y hs hr hm => exec_sideBootEnd_of_bufferFault hs hr hm

end Sys2Proof.Machine
end

section

/-! # Fabric and bypass (R409 to R434) -/

namespace Sys2Proof.Machine

/-! ## Hellos and adjacencies (R412, R413) -/

theorem consuming_of_fabRuns {s : State} (h : fabRuns s = true) : consuming s = true := (Bool.and_eq_true_iff.mp h).1

/-- The adjacency that a hello on port `p` leaves. -/
def heardHello (p : Nat) (x : Hello) (s : State) : State :=
  { s with fab := { s.fab with adjs := tput {} s.fab.adjs p (Adj.mk (x.peerUid == Config.uid) x.uid x.nodeId x.idState x.port
    x.interval (eventEl s)) } }

section
variable {p : Port} {x : Hello} {s : State} (hr : fabRuns s = true) (hp : fabPort s p.val = true) (hl : (portOf s p.val).link = true)
include hr hp hl

/-- A hello on a fabric link, by whether it turns the adjacency. -/
theorem exec_helloRx_of_link : exec (.helloRx p x) s = .next (markConflicts (judgeId x.uid x.nodeId x.idState x.given
    (if (tget {} s.fab.adjs p.val).up != (x.peerUid == Config.uid) then
      raiseS evAdjChange { heardHello p.val x s with fab := { (heardHello p.val x s).fab with topoDue := true } }
    else heardHello p.val x s))) :=
  congrArg Host.Outcome.next ((if_pos (consuming_of_fabRuns hr)).trans (if_pos (by simp [hr, hp, hl])))

theorem exec_helloRx_of_same (h : (tget {} s.fab.adjs p.val).up = (x.peerUid == Config.uid)) :
    exec (.helloRx p x) s = .next (markConflicts (judgeId x.uid x.nodeId x.idState x.given (heardHello p.val x s))) := by
  rw [exec_helloRx_of_link hr hp hl, h, if_neg (by simp)]

theorem exec_helloRx_of_change (h : (tget {} s.fab.adjs p.val).up ≠ (x.peerUid == Config.uid)) : exec (.helloRx p x) s
    = .next (markConflicts (judgeId x.uid x.nodeId x.idState x.given
      (raiseS evAdjChange { heardHello p.val x s with fab := { (heardHello p.val x s).fab with topoDue := true } }))) := by
  rw [exec_helloRx_of_link hr hp hl, if_pos (bne_iff_ne.mpr h)]

end

theorem exec_adjacencyTimeout_of_late {p : Port} {s : State} (hc : consuming s = true)
    (ht : (tget {} s.fab.adjs p.val).heard + 3 * (tget {} s.fab.adjs p.val).interval * 100000 ≤ elapsed s) :
    exec (.adjacencyTimeout p) s = .next (adjLost p.val s) :=
  congrArg Host.Outcome.next (if_pos (Bool.and_eq_true_iff.mpr ⟨hc, decide_eq_true ht⟩))

/-! ## Topology (R416, R417) -/

theorem exec_topologyRx_of_fresh {p : Port} {m : TopoMsg} {s : State} (hr : fabRuns s = true) (hp : fabPort s p.val = true)
    (hu : m.uid ≠ Config.uid) (hf : freshTopo s m = true) : exec (.topologyRx p m) s = .next (markConflicts (endConflict
      (judgeId m.uid m.nodeId m.idState m.given (trimDb (floodTopo p.val m (putTopo m s)))))) :=
  congrArg Host.Outcome.next ((if_pos (consuming_of_fabRuns hr)).trans ((if_pos (by simp [hr, hp, hu])).trans (if_pos hf)))

theorem freshTopo_of_known {m x : TopoMsg} {s : State} (h : s.fab.db.find? (fun y => y.uid == m.uid) = some x) :
    freshTopo s m = newer16 m.seq x.seq := by
  simp [freshTopo, h]

/-- A message no newer than the one held is without effect; the part's own is too. -/
theorem takeTopo_of_stale {p : Nat} {m : TopoMsg} {s : State} (h : freshTopo s m = false) : takeTopo p m s = s := by
  simp [takeTopo, h]

theorem exec_topologyRx_of_stale {p : Port} {m : TopoMsg} {s : State} (hr : fabRuns s = true) (h : freshTopo s m = false) :
    exec (.topologyRx p m) s = .next s :=
  congrArg Host.Outcome.next ((if_pos (consuming_of_fabRuns hr)).trans (takeTopo_of_stale h))

theorem exec_topologyAgeOut_of_old {uid : BitVec 64} {s : State} (hc : consuming s = true)
    (ht : heardTopo s uid + 350000000 ≤ elapsed s) : exec (.topologyAgeOut uid) s
      = .next (endConflict { s with fab := { s.fab with db := s.fab.db.filter (fun x => x.uid != uid),
                                                        dbAt := s.fab.dbAt.filter (fun x => x.1 != uid) } }) :=
  congrArg Host.Outcome.next (if_pos (by simp [hc, ht]))

theorem exec_topologyAgeOut_of_young {uid : BitVec 64} {s : State} (ht : elapsed s < heardTopo s uid + 350000000) :
    exec (.topologyAgeOut uid) s = .next s :=
  congrArg Host.Outcome.next (if_neg (by simp [Nat.not_le.mpr ht]))

/-! ## Routes, node IDs, relays (R414, R418, R425) -/

theorem exec_routeCompute_of_good {l : List SecPath} {s : State} (hr : fabRuns s = true) (hc : regFld s .fabCfg [] 1 1 = 0)
    (ht : treesGood l s = true) : exec (.routeCompute l) s = .next (pushSet [.routeTable (computeRoutes l s)] s) :=
  congrArg Host.Outcome.next (if_pos (by simp [hr, hc, ht]))

theorem exec_idClaim_of_tentative {s : State} {en : Bool} {id : Nat} (hr : fabRuns s = true) (hn : fabNow s = (en, false, 1, id))
    (ha : 4 ≤ s.fab.idAge) (hd : id ∉ dbIds s) : exec .idClaim s = .next (setId 2 id s) := by
  show execIdClaim s = _
  simp [execIdClaim, hn, hr, ha, hd]

theorem exec_relayHoldTimeout_of_late {p : Port} {t : Cls} {s : State} {x : Staged} {r : List Staged}
    (hx : tget [] (gateOf s p.val).relay t.val = x :: r) (ht : x.since + regFld s .fabRelayCfg [] 16 16 * 1000 < elapsed s) :
    exec (.relayHoldTimeout p t) s = .next (count .fabCntDrop [x.flow] 0 1
      (putGate s p.val { gateOf s p.val with relay := tput [] (gateOf s p.val).relay t.val r })) := by
  show execRelayHoldTimeout p t s = _
  simp [execRelayHoldTimeout, hx, ht]

/-- Settles O42: each row's guard holds in the states of its clause. -/
theorem fabricEventsComplete : Obligations.FabricEventsComplete := by
  unfold Obligations.FabricEventsComplete
  refine ⟨?hello, ?same, ?change, ?keeps, ?adjacency, ?topology, ?fresh, ?stale, ?old, ?young, ?routes, ?claim, ?relay, ?insert,
    ?linkLoss, ?holdoff⟩
  case hello =>
    rintro s u hr rfl
    exact congrArg Host.Outcome.next (if_pos hr)
  case same =>
    rintro p x s u hr hp hl h rfl
    exact exec_helloRx_of_same hr hp hl h
  case change =>
    rintro p x s u v hr hp hl h rfl rfl
    exact exec_helloRx_of_change hr hp hl h
  case keeps =>
    exact fun p x m s hc => ⟨congrArg Host.Outcome.next (if_neg (by simp [hc])), congrArg Host.Outcome.next (if_neg (by simp [hc]))⟩
  case adjacency =>
    rintro p s a hc rfl ht
    exact exec_adjacencyTimeout_of_late hc ht
  case topology =>
    rintro s u hr rfl
    exact congrArg Host.Outcome.next (if_pos hr)
  case fresh =>
    rintro p m s u hr hp hu hf rfl
    exact exec_topologyRx_of_fresh hr hp hu hf
  case stale => exact fun p m x s hr _ hx hn => exec_topologyRx_of_stale hr ((freshTopo_of_known hx).trans hn)
  case old => exact fun uid s hc ht => exec_topologyAgeOut_of_old hc ht
  case young => exact fun uid s ht => exec_topologyAgeOut_of_young ht
  case routes => exact fun l s hr hc ht => exec_routeCompute_of_good hr hc ht
  case claim => exact fun s en id hr hn ha hd => exec_idClaim_of_tentative hr hn ha hd
  case relay => exact fun p t s x r hx ht => exec_relayHoldTimeout_of_late hx ht
  case insert => exact fun k s => rfl
  case linkLoss => exact fun k s => rfl
  case holdoff => exact fun k s => rfl

end Sys2Proof.Machine
end

section

/-! # The event recorder (R461 to R481) -/

namespace Sys2Proof.Machine

/-! ## Writing (R464, R477, R480) -/

theorem exec_recordTake_of_offered {s : State} {r : RecIn} {rs : List RecIn} (h : s.recd.offered = r :: rs) :
    exec .recordTake s = .next (takeRecord r { s with recd := { s.recd with offered := rs } }) := by
  show execRecordTake s = _
  simp [execRecordTake, h]

section
variable {s : State} {r : Rec} {rs : List Rec} {n : Fin 5} (hr : s.recd.ready = true) (hq : s.recd.queue = r :: rs)
include hr hq

theorem exec_recordWriteDone_of_banks (hv : s.recd.volatile = false) : exec (.recordWriteDone n) s
    = .next { count .recBankStat [] 16 n.val s with recd := { s.recd with queue := rs, store := s.recd.store ++ [r] } } := by
  show execRecordWriteDone s n = _
  simp [execRecordWriteDone, hr, hq, hv, writeFirst, count, bumpW]

theorem exec_recordWriteDone_of_ring (hv : s.recd.volatile = true) :
    exec (.recordWriteDone n) s = .next { s with recd := { s.recd with queue := rs, ring := s.recd.ring ++ [r] } } := by
  show execRecordWriteDone s n = _
  simp [execRecordWriteDone, hr, hq, hv, writeFirst]

end

/-! ## A failed bank (R477, R478) -/

/-- What the recorder tells of its first bank, and whether it writes to the volatile ring. -/
def bankState (s : State) : Bool × Bool := (s.recd.fail0, s.recd.volatile)

theorem takeRecord_bankState (r : RecIn) (s : State) : bankState (takeRecord r s) = bankState s := by
  unfold takeRecord
  dsimp only
  (repeat' split) <;> simp [bankState, count, bumpW, keepRecord, evict]

theorem takeBank_bankState (b cause : Nat) (seq : W32) (s : State) : bankState (takeBank b cause seq s) = bankState s := by
  rw [← takeRecord_bankState (bankRecord b cause seq) s]
  unfold takeBank
  dsimp only
  (repeat' split) <;> rfl

theorem writeFirst_bankState (s : State) : bankState (writeFirst s) = bankState s := by
  unfold writeFirst
  (repeat' split) <;> rfl

theorem goVolatile_bankState (s : State) : bankState (goVolatile s) = (s.recd.fail0, true) := by
  simp [bankState, goVolatile, setAlarm]

theorem takeRecord_keeps_bit {b : BitVec 256} {s : State} (r : RecIn) (h : s.evt.fw &&& b ≠ 0) :
    (takeRecord r s).evt.fw &&& b ≠ 0 := by
  unfold takeRecord
  dsimp only
  split
  · exact raise_keeps_bit _ h
  · split
    · exact h
    · split
      · exact h
      · split
        · exact h
        · exact raise_keeps_bit _ h

theorem takeBank_keeps_bit {b : BitVec 256} {s : State} (k cause : Nat) (seq : W32) (h : s.evt.fw &&& b ≠ 0) :
    (takeBank k cause seq s).evt.fw &&& b ≠ 0 := by
  have ht := takeRecord_keeps_bit (bankRecord k cause seq) h
  unfold takeBank
  dsimp only
  (repeat' split) <;> exact ht

theorem writeFirst_evt (s : State) : (writeFirst s).evt = s.evt := by
  unfold writeFirst
  (repeat' split) <;> rfl

theorem goVolatile_keeps_bit {b : BitVec 256} {s : State} (h : s.evt.fw &&& b ≠ 0) : (goVolatile s).evt.fw &&& b ≠ 0 :=
  raise_keeps_bit (s := { s with recd := { s.recd with volatile := true } }) evRecLost h

/-- The part with its first bank marked failed and told. -/
def bankMarked (c : Nat) (s : State) : State := raise evBankFail (markBank 0 c s)

/-- Where writing goes after the mark: to the volatile ring where no bank works, and else, once the rebuild is over, to the other bank. -/
def afterMark (s : State) : State :=
  if s.recd.fail0 && s.recd.fail1 then goVolatile s else if s.recd.ready then writeFirst s else s

theorem exec_bankFail_of_working {c : Fin 5} {s : State} (hc : c ≠ 0) (hf : s.recd.fail0 = false) :
    ∃ seq, exec (.bankFail 0 c) s = .next (takeBank 0 c.val seq (afterMark (bankMarked c.val s))) := by
  have hc' : ¬c.val = 0 := fun h => hc (Fin.ext h)
  exact ⟨_, congrArg Host.Outcome.next (if_neg (by simp [hc', hf]))⟩

theorem afterMark_bankState {c : Nat} {s : State} :
    bankState (afterMark (bankMarked c s)) = (true, s.recd.volatile || s.recd.fail1) := by
  have hmark : (bankMarked c s).recd = { s.recd with fail0 := true, cause0 := c } := by simp [bankMarked, markBank]
  unfold afterMark
  cases h1 : s.recd.fail1 with
  | true => simp [hmark, h1, goVolatile_bankState]
  | false =>
    have hstate : bankState (bankMarked c s) = (true, s.recd.volatile || false) := by simp [bankState, hmark]
    simp only [hmark, h1, Bool.and_false, Bool.false_eq_true, if_false]
    split
    · rw [writeFirst_bankState, hstate]
    · exact hstate

theorem afterMark_tells (c : Nat) (s : State) : (afterMark (bankMarked c s)).evt.fw &&& evtBit evBankFail ≠ 0 := by
  have hraised : (bankMarked c s).evt.fw &&& evtBit evBankFail ≠ 0 := raise_sets_bit (evtBit_ne_zero (by decide)) _
  unfold afterMark
  split
  · exact goVolatile_keeps_bit hraised
  · split
    · rwa [writeFirst_evt]
    · exact hraised

/-! ## Windows (R472, R473) -/

theorem readerNum_ne {q r : Reader} (h : q ≠ r) : readerNum q ≠ readerNum r := by
  intro he
  cases q with
  | host a =>
    cases r with
    | host b => exact h (congrArg Reader.host (Fin.ext he))
    | firmware =>
      have ha : a.val = 4 := he
      omega
  | firmware =>
    cases r with
    | host b =>
      have hb : 4 = b.val := he
      omega
    | firmware => exact h rfl

theorem readerOf_putReader_self (s : State) (r : Reader) (x : RecReader) : readerOf (putReader s r x) r = x := tget_tput_self ..

theorem readerOf_putReader_other {s : State} {q r : Reader} (x : RecReader) (h : q ≠ r) :
    readerOf (putReader s r x) q = readerOf s q := tget_tput_ne (readerNum_ne h)

/-- The store as a load finds it: from the banks, with the damage that it has met. -/
def loadedFrom (r : Reader) (dm : List W32) (s : State) : State := if (readerOf s r).source then s else markDamaged dm s

theorem loadedFrom_recd (r : Reader) (dm : List W32) (s : State) :
    (loadedFrom r dm s).recd.readers = s.recd.readers ∧ (loadedFrom r dm s).recd.queue = s.recd.queue := by
  unfold loadedFrom
  split <;> exact ⟨rfl, rfl⟩

/-- The records that a load from the cursor puts in the window. -/
def cursorWindow (r : Reader) (dm : List W32) (s : State) : List Rec :=
  fitWindow ((matching (loadedFrom r dm s) (readerOf s r)).filter (fun x => atOrAfter x.seq (readerOf s r).cursor)) 4096

theorem exec_recWindowLoadEnd_of_cursor {r : Reader} {dm : List W32} {s : State} (hb : (readerOf s r).busy = true)
    (hr : s.recd.ready = true) (ha : (readerOf s r).ask = 0) :
    ∃ x : RecReader, exec (.recWindowLoadEnd r dm) s = .next (putReader (loadedFrom r dm s) r x) ∧ x.busy = false
      ∧ x.count = (cursorWindow r dm s).length ∧ x.window = (cursorWindow r dm s).flatMap recBytes := by
  refine ⟨_, congrArg Host.Outcome.next (if_pos (by simp [hb, hr])), rfl, ?_, ?_⟩ <;> simp [ha, cursorWindow, loadedFrom]

/-! ## The rebuild at a start (R477, R479) -/

theorem rimStep_recd (k : Nat) (s : State) : (rimStep k s).recd = s.recd := by
  unfold rimStep
  dsimp only
  split <;> rfl

theorem rimStep_jrn (k : Nat) (s : State) : (rimStep k s).jrn = s.jrn := by
  unfold rimStep
  dsimp only
  split <;> rfl

/-- With no summary and no cold start that a host asked for, no work is told lost. -/
theorem checkLost_of_nothing {s : State} (hs : s.jrn.summaries = []) (ha : s.recd.asked = false) : checkLost s = s := by
  simp [checkLost, hs, ha]

/-- The rebuild is over, and the start's step of the rim with it. -/
def rebuildOver (s : State) : State := rimStep 2 { s with recd := { s.recd with ready := true } }

/-- Writing goes to the banks. -/
def toBanks (s : State) : State := clearAlarm 5 { s with recd := { s.recd with volatile := false } }

theorem rebuildOver_recd (s : State) : (rebuildOver s).recd = { s.recd with ready := true } := rimStep_recd 2 _

theorem checkLost_toBanks {s : State} (hs : s.jrn.summaries = []) (ha : s.recd.asked = false) :
    checkLost (toBanks (rebuildOver s)) = toBanks (rebuildOver s) := by
  refine checkLost_of_nothing ?_ ?_
  · exact (congrArg Jrn.summaries (rimStep_jrn 2 _)).trans hs
  · exact (congrArg Recorder.asked (rebuildOver_recd s)).trans ha

theorem exec_recorderRebuildEnd_of_good {s : State} (hr : s.recd.ready = false) (h0 : s.recd.fail0 = false)
    (hp : s.recd.powerUp = none) (hs : s.jrn.summaries = []) (ha : s.recd.asked = false) :
    exec (.recorderRebuildEnd false false) s = .next (toBanks (rebuildOver s)) := by
  refine congrArg Host.Outcome.next ((if_neg (by simp [hr])).trans ?_)
  extract_lets lost queue anew first second _ ready power _ cleared newest _ _ kept told
  have hgood : lost = false := by simp [lost, h0]
  have hsecond : second = s := by simp [second, first, anew, hgood]
  have hready : ready = rebuildOver s := congrArg rebuildOver hsecond
  have hpower : power = none := by simp only [power, hready, rebuildOver_recd, hp]
  have hkept : kept = toBanks (rebuildOver s) :=
    (if_neg (by simp [hgood])).trans ((if_neg (by simp [hpower])).trans (congrArg toBanks hready))
  simp only [hpower, told, hkept, checkLost_toBanks hs ha]

/-- Settles O43: the mark, the damage that a load meets and the rebuild each have their state, whose fields the clauses read off. -/
theorem recorderEventsComplete : Obligations.RecorderEventsComplete := by
  unfold Obligations.RecorderEventsComplete
  refine ⟨?take, ?banks, ?ring, ?fails, ?writes, ?window, ?rebuild⟩
  case take => exact fun s r rs h => exec_recordTake_of_offered h
  case banks =>
    rintro s r rs n u hr hq hv rfl
    exact exec_recordWriteDone_of_banks hr hq hv
  case ring => exact fun s r rs n hr hq hv => exec_recordWriteDone_of_ring hr hq hv
  case fails =>
    intro c s hc hf
    obtain ⟨seq, hx⟩ := exec_bankFail_of_working hc hf
    have hstate := (takeBank_bankState 0 c.val seq _).trans (afterMark_bankState (c := c.val) (s := s))
    exact ⟨_, hx, congrArg Prod.fst hstate, takeBank_keeps_bit 0 c.val seq (afterMark_tells c.val s), congrArg Prod.snd hstate⟩
  case writes => exact fun r v s => ⟨rfl, rfl, rfl⟩
  case window =>
    rintro r dm s u hb hr ha rfl
    obtain ⟨x, hx, hbusy, hcount, hwindow⟩ := exec_recWindowLoadEnd_of_cursor (dm := dm) hb hr ha
    obtain ⟨hreaders, hqueue⟩ := loadedFrom_recd r dm s
    refine ⟨_, cursorWindow r dm s, hx, rfl, ?_, ?_, ?_, rfl, hqueue, fun q hq => ?_⟩
    · rw [readerOf_putReader_self, hbusy]
    · rw [readerOf_putReader_self, hcount]
    · rw [readerOf_putReader_self, hwindow]
    · rw [readerOf_putReader_other x hq, readerOf, hreaders, ← readerOf]
  case rebuild =>
    intro s hr h0 _ hp hs ha
    rw [exec_recorderRebuildEnd_of_good hr h0 hp hs ha, toBanks, rebuildOver_recd, rebuildOver]

end Sys2Proof.Machine
end

section

/-! # Event rows (R485 to R491) -/

namespace Sys2Proof.Machine

theorem exec_coalesceTimeout_of_pending {h : Host} {x : Fin 64} {s : State} (hp : (vecOf s h.val x.val).pending ≠ 0)
    (hc : coalOff s h.val x.val = false) : exec (.coalesceTimeout h x) s = .next (sendDue h.val x.val s) :=
  congrArg Host.Outcome.next (if_pos (by simp [hp, hc]))

theorem exec_evtStatClear_firmware_of_consuming {w : Fin 8} {v : W32} {s : State} (hc : consuming s = true) :
    exec (.evtStatClear .firmware false w v) s = .next (writeEvtStat .firmware w.val v s) :=
  congrArg Host.Outcome.next (if_pos (by simp [hc]))

/-- Settles O45: five rows are the host's write of their register by definition, and the other guards hold in their clauses. -/
theorem eventRowsComplete : Obligations.EventRowsComplete := by
  unfold Obligations.EventRowsComplete
  refine ⟨?route, ?coal, ?timeout, ?pinCfg, ?pulse, ?test, ?host, ?firmware⟩
  case route => exact fun h n x v s => rfl
  case coal => exact fun h n x v s => rfl
  case timeout => exact fun h x s hp hc => exec_coalesceTimeout_of_pending hp hc
  case pinCfg => exact fun h v s => rfl
  case pulse => exact fun s => rfl
  case test => exact fun h v s => rfl
  case host => exact fun h b w v s => rfl
  case firmware => exact fun w v s hc => exec_evtStatClear_firmware_of_consuming hc

end Sys2Proof.Machine
end
